-- ==== Sys2Proof/Word.lean ====
section
/-! DEFINITION. Word types, the small vocabulary of the commands' operands, and the association list that holds sparse state.
Numbers the manual never adds or masks as words (engine, cluster, lane and point numbers, counts of periods) are plain `Nat`. -/

namespace Sys2Proof

/-- A 32-bit word: every register and every port (R15, R43). -/
abbrev Word := BitVec 32
/-- One byte of memory. -/
abbrev Byte := BitVec 8

/-- The four grades of R1. -/
inductive Grade | x1024P | x1024C | x512C | x256E
  deriving DecidableEq, Repr

/-- The three shared units of a cluster (R50). -/
inductive SharedUnit | kin | ipl | bmv
  deriving DecidableEq, Repr

/-- How a dual-port access met the other port (R180): not at all, as the port granted first, as the port granted second. -/
inductive Collision | none | earlier | later
  deriving DecidableEq, Repr

/-- What has struck a check word (R184, R185). -/
inductive Upset | single | uncorrectable
  deriving DecidableEq, Repr

/-- The unit classes of TRL.SVC (R406). -/
inductive UnitClass | cluster | fieldLane | linkLane | dramStack
  deriving DecidableEq, Repr

/-- The state whose uncorrectable error or parity error is critical; `saveSingle` and `tablesSingle` are a single-bit error that is corrected in the two
that SECDED protects (R484). -/
inductive CriticalState | save | dispatch | tables | config | saveSingle | tablesSingle
  deriving DecidableEq, Repr

/-- The wake causes of PWR.CSTAT.WAKE (R514). -/
inductive WakeCause | laneFrame | chipSelect | alarm | duringDrain
  deriving DecidableEq, Repr

/-- A wake: its cause, and what has struck the check words of the retained memories since the entry, by address (R38, R192). -/
structure WakeEvent where
  cause : WakeCause
  struck : List (Nat × Upset)
  deriving DecidableEq, Repr

/-- The end of a bmv transfer: its cluster, and whether its reads of a dual-port memory met the other port (R54, R55, R180). -/
structure TransferEnd where
  cluster : Nat
  hit : Collision
  deriving DecidableEq, Repr

/-- Which supply is reported (R493, R514): main input with its reading in 10 mV and the input power in 0.1 W, or AUX, below its warning level. -/
inductive SupplyWarn | main (mv10 : BitVec 16) (dw : BitVec 16) | aux
  deriving DecidableEq, Repr

/-- The protocol errors of R448. -/
inductive HostError | bothStrobes | readEndedEarly | writeEndedEarly
  deriving DecidableEq, Repr

/-- Why a Decant ends (R382); which divergence the replay found is in the state. -/
inductive DecantCause | vintageEnd | endStep | request | starved | tag
  | diverged
  deriving DecidableEq, Repr

/-- Who writes a device register: an engine's ring and partition, or a module master at ring 0 (R196). -/
structure Writer where
  ring : BitVec 2
  part : Option Nat
  deriving DecidableEq, Repr

/-- One update carried by a link-layer block (R436): remote window, offset, value, auxiliary value, quality, timestamp. -/
structure LinkUpdate where
  window : Nat
  offset : Nat
  value : Word
  aux : Word
  quality : BitVec 16
  stamp : BitVec 48
  deriving DecidableEq, Repr

/-- What a link-layer block carries (R435, R436, R438, R439). -/
inductive LinkPayload | updates (us : List LinkUpdate) | lineReset | drain
  deriving DecidableEq, Repr

/-- A link-layer block as received: its sequence number, whether its CRC-32 is good, its content; the peer acknowledges this side's blocks before
number `ack`, and `again` says that the block of that number failed there (R435). -/
structure LinkBlock where
  seq : Nat
  crcGood : Bool
  payload : LinkPayload
  ack : Nat := 0
  again : Bool := false
  deriving DecidableEq, Repr

/-- One namespace a store controller presents (R432). -/
structure NamespaceInfo where
  nsid : Nat
  blockBytes : Nat
  metadata : Bool
  protection : Bool
  lbas : Nat
  deriving DecidableEq, Repr

/-- What a store controller that has come up presents: its namespaces, whether its volatile write cache is disabled, and the AER events and the failed
commands of its link until then (R430 to R434). -/
structure ControllerReport where
  spaces : List NamespaceInfo
  cacheOff : Bool := true
  aer : Nat := 0
  failed : Nat := 0
  deriving DecidableEq, Repr

/-- The result of reading one identity EEPROM address (R451, R453). -/
inductive IdentityRead | noAck | clockTimeout | data (bytes : List Byte)
  deriving DecidableEq, Repr

/-- An association list: sparse state by key. -/
abbrev Assoc (κ α : Type) := List (κ × α)

/-- The value at a key, or the default where the key is not listed. -/
def Assoc.get {κ α : Type} [DecidableEq κ] (dflt : α) : Assoc κ α → κ → α
  | [], _ => dflt
  | (k, v) :: rest, q => if k = q then v else Assoc.get dflt rest q

/-- Replace the value at a key, or append it. -/
def Assoc.put {κ α : Type} [DecidableEq κ] : Assoc κ α → κ → α → Assoc κ α
  | [], q, x => [(q, x)]
  | (k, v) :: rest, q, x => if k = q then (k, x) :: rest else (k, v) :: Assoc.put rest q x

/-- Forget a key. -/
def Assoc.erase {κ α : Type} [DecidableEq κ] (t : Assoc κ α) (q : κ) : Assoc κ α :=
  t.filter (fun p => p.1 ≠ q)

/-- Is the key listed? -/
def Assoc.has {κ α : Type} [DecidableEq κ] (t : Assoc κ α) (q : κ) : Bool :=
  t.any (fun p => p.1 = q)

end Sys2Proof
end

