-- ==== Sys2Proof/Syntax.lean ====
section
/-! DEFINITION. The commands of the module: one constructor per row of spec/opcode_table.json, in the table's order.
The table gives no operands; each constructor carries what its rule says the event is about (log entry 7). -/

namespace Sys2Proof

/-- The 141 commands. -/
inductive Instr
  /-- ISSUE_PAIR (R99) of engine e -/
  | issuePair (e : Nat)
  /-- REPEAT_ITERATION (R155) of engine e -/
  | repeatIteration (e : Nat)
  /-- LINE_DELIVERY (R138): the code line at address `line` reaches engine e -/
  | lineDelivery (e : Nat) (line : Nat)
  /-- BARRIER_RELEASE (R154) of engine e -/
  | barrierRelease (e : Nat)
  /-- SHORT_OP_COMPLETE (R55) of engine e -/
  | shortOpComplete (e : Nat)
  /-- DIV_RETIRE (R151) of engine e -/
  | divRetire (e : Nat)
  /-- FPU_LONG_RETIRE (R151) of engine e -/
  | fpuLongRetire (e : Nat)
  /-- LSU_COMPLETE (R56) of engine e; how the access met the other port; what has struck the check word -/
  | lsuComplete (e : Nat) (hit : Collision) (upset : Option Upset)
  /-- SHARED_REQUEST_START (R52) of unit u of cluster c -/
  | sharedRequestStart (c : Nat) (u : SharedUnit)
  /-- KIN_COMPLETE (R129) of cluster c -/
  | kinComplete (c : Nat)
  /-- IPL_COMPLETE (R133) of cluster c -/
  | iplComplete (c : Nat)
  /-- BMV_COMPLETE (R55) -/
  | bmvComplete (c : TransferEnd)
  /-- BMV_SUSPEND (R54) -/
  | bmvSuspend (c : TransferEnd)
  /-- WAIT_LIMIT_EXPIRE (R288) of engine e -/
  | waitLimitExpire (e : Nat)
  /-- CH_POST (R276): the message of engine e's oldest last send lands -/
  | chPost (e : Nat)
  /-- CH_SEND_COMPLETE (R282) of engine e -/
  | chSendComplete (e : Nat)
  /-- CH_RECV_COMPLETE (R279) of engine e -/
  | chRecvComplete (e : Nat)
  /-- EV_WAIT_COMPLETE (R294) of engine e -/
  | evWaitComplete (e : Nat)
  /-- TASK_LANDING (R305) of cluster c -/
  | taskLanding (c : Nat)
  /-- ROUTE_DELIVERY (R300) of the oldest raise on its way -/
  | routeDelivery
  /-- SOFTWARE_RAISE (R302): v is written to EVR.RAISE of partition p -/
  | softwareRaise (p : Nat) (v : Word)
  /-- TIMER_ARM (R303): v is written to EVR.TCTLn, or to EVR.TPERn when `per` -/
  | timerArm (n : Nat) (per : Bool) (v : Word)
  /-- TIMER_EXPIRE (R303) of timer n -/
  | timerExpire (n : Nat)
  /-- UPDATE_ARRIVE (R248) of the i-th update on its way -/
  | updateArrive (i : Nat)
  /-- UPDATE_APPLY (R247): a slot of router r applies an update of partition p -/
  | updateApply (r : Nat) (p : Nat)
  /-- DELIVERY_RECORD_WRITE (R255) of the oldest record due at router r -/
  | deliveryRecordWrite (r : Nat)
  /-- SUBSCRIBER_LINE_RAISE (R252) of the oldest line due at router r -/
  | subscriberLineRaise (r : Nat)
  /-- PT_READ_COMPLETE (R242) of engine e -/
  | ptReadComplete (e : Nat)
  /-- PT_SUB_COMPLETE (R254) of engine e -/
  | ptSubComplete (e : Nat)
  /-- FORCE (R265) of partition p's PTR.FPNT and PTR.FVAL -/
  | force (p : Nat)
  /-- FORCE_RELEASE (R266) of partition p's PTR.FPNT -/
  | forceRelease (p : Nat)
  /-- FORCE_APPLY (R265): the next Free slot applies partition p's oldest accepted force -/
  | forceApply (p : Nat)
  /-- FRAME_RECEIVE (R417): lane n receives the bytes from destination address to the last before the FCS -/
  | frameReceive (n : Nat) (frame : List Byte) (fcsGood : Bool)
  /-- TAKE (R19) of frame index f on lane n -/
  | take (n : Nat) (f : Nat)
  /-- SEND (R420) of frame index f on lane n -/
  | send (n : Nat) (f : Nat)
  /-- PLAIN_TRANSMIT (R425) on lane n -/
  | plainTransmit (n : Nat)
  /-- IDENT_RESPONSE (R422): the frame received on lane n -/
  | identResponse (n : Nat) (frame : List Byte)
  /-- IDENT_TIMEOUT (R422) of the k-th station of lane n -/
  | identTimeout (n : Nat) (k : Nat)
  /-- WAKE_FRAME (R423) received on lane n -/
  | wakeFrame (n : Nat) (frame : List Byte)
  /-- LANE_LINK_UP (R479) of field lane n -/
  | laneLinkUp (n : Nat)
  /-- LANE_REENTRY (R403) of field lane n -/
  | laneReentry (n : Nat)
  /-- CYCLE_START (R333): the cycle-start tick of partition p -/
  | cycleStart (p : Nat)
  /-- GRANT_WINDOW (R338) -/
  | grantWindow
  /-- ADMISSION_EPOCH (R310) -/
  | admissionEpoch
  /-- PACE_LOSS_DETECT (R320): the supply, temperature and margin conditions now present, each 0 none, 1 the S = 2 row, 2 the S = 4 row -/
  | paceLossDetect (supply temp margin : BitVec 2)
  /-- REFCLK_LOSS (R321) -/
  | refclkLoss
  /-- REFCLK_RELOCK (R321) -/
  | refclkRelock
  /-- TIM_SET (R336): TIM.CMD 1 -/
  | timSet
  /-- TIM_OFFSET (R336): TIM.CMD 2 -/
  | timOffset
  /-- TIM_ADJ (R329): v is written to TIM.ADJ -/
  | timAdj (v : Word)
  /-- TIM_NSL_READ (R332) by engine e -/
  | timNslRead (e : Nat)
  /-- TIM_NSH_READ (R332) by engine e -/
  | timNshRead (e : Nat)
  /-- MODE_REQUEST (R34): req is written to PAR.MODE.REQ of partition p -/
  | modeRequest (p : Nat) (req : BitVec 3)
  /-- DECANT_END (R382) of partition p -/
  | decantEnd (p : Nat) (why : DecantCause)
  /-- COCOON_REQUEST (R499) -/
  | cocoonRequest
  /-- COCOON_ENTER (R37) -/
  | cocoonEnter
  /-- COCOON_ALARM (R499) -/
  | cocoonAlarm
  /-- WAKE (R38) -/
  | wake (why : WakeEvent)
  /-- ENGINE_RESTART (R192) -/
  | engineRestart
  /-- LOW_WATER (R367) of partition p -/
  | lowWater (p : Nat)
  /-- CASK_COMMIT (R372): partition p's oldest cask Write succeeds, or fails -/
  | caskCommit (p : Nat) (ok : Bool)
  /-- REARM (R357) of partition p -/
  | rearm (p : Nat)
  /-- CEL_ENABLE (R357) of partition p -/
  | celEnable (p : Nat)
  /-- CEL_DISABLE (R358) of partition p -/
  | celDisable (p : Nat)
  /-- ENROLL (R375) -/
  | enroll
  /-- NEWKEY (R375) of partition p -/
  | newkey (p : Nat)
  /-- CLEAR (R375) -/
  | clear
  /-- DEFAULT_TARGET (R393): a request of a master on behalf of a partition -/
  | defaultTarget (master : Nat) (part : Option Nat) (addr : Nat) (write : Bool)
  /-- TARGET_GRANT (R389) of target port t -/
  | targetGrant (t : Nat)
  /-- FENCE_DRAIN_END (R395) of partition p -/
  | fenceDrainEnd (p : Nat)
  /-- OUT_OF_SERVICE (R401) -/
  | outOfService (cls : UnitClass) (u : Nat)
  /-- RETURN (R402) -/
  | returnUnit (cls : UnitClass) (u : Nat)
  /-- SELF_TEST_COMPLETE (R402); the failed local engine numbers of a cluster -/
  | selfTestComplete (cls : UnitClass) (u : Nat) (pass : Bool) (failed : List Nat)
  /-- PAGE_FILL_COMPLETE (R189) of a 16 MiB page -/
  | pageFillComplete (page : Nat)
  /-- DOMAIN_FAULT (R498) of domain n -/
  | domainFault (n : Nat)
  /-- VSET (R497) of domain n -/
  | vset (n : Nat) (v : BitVec 8)
  /-- THERMAL_WARNING (R493): the temperature of die d in 1/16 degree -/
  | thermalWarning (d : Nat) (tj : BitVec 16)
  /-- SUPPLY_WARNING (R493) -/
  | supplyWarning (w : SupplyWarn)
  /-- POWER_ON_MAIN (R482) -/
  | powerOnMain
  /-- POWER_ON_AUX (R482) -/
  | powerOnAux
  /-- SEATING (R501) -/
  | seating
  /-- BANK_CHARGED (R501) -/
  | bankCharged
  /-- RESET_PIN (R482): the level RESET# takes -/
  | resetPin (low : Bool)
  /-- LINE_RST (R482): the level LINE_RST# takes -/
  | lineRst (low : Bool)
  /-- MODULE_WATCHDOG (R489) -/
  | moduleWatchdog
  /-- PARTITION_WATCHDOG (R408) of partition p -/
  | partitionWatchdog (p : Nat)
  /-- MWDKICK (R489): the value written -/
  | mwdkick (v : Word)
  /-- WDKICK (R408): the value written to partition p's register -/
  | wdkick (p : Nat) (v : Word)
  /-- SW_RESET_ENGINE (R485) -/
  | swResetEngine (e : Nat)
  /-- SW_RESET_CLUSTER (R485) -/
  | swResetCluster (c : Nat)
  /-- SW_RESET_PARTITION (R485) -/
  | swResetPartition (p : Nat)
  /-- SW_RESET_CORE (R485) -/
  | swResetCore
  /-- SW_RESET_MODULE (R485) -/
  | swResetModule
  /-- SW_RESET_COLD (R485) -/
  | swResetCold
  /-- CRITICAL_STATE_ERROR (R484) in the state of engine or cluster `u` -/
  | criticalStateError (st : CriticalState) (u : Nat)
  /-- THERMAL_TRIP (R482) -/
  | thermalTrip
  /-- SUPPLY_FAULT (R482) -/
  | supplyFault
  /-- RESET_RELEASE (R487) of the k-th asserted source; the engines (cluster, local number) a self-test finds failed -/
  | resetRelease (k : Nat) (failed : List (Nat × Nat))
  /-- RESCAN (R456): by ring 0, or by ring 1 of a partition -/
  | rescan (by_ : Option Nat)
  /-- COMMIT (R474): the value written -/
  | commit (v : Word)
  /-- FALLBACK (R475): the value written -/
  | fallback (v : Word)
  /-- READ (R490) -/
  | read
  /-- PROGRAM (R490) -/
  | program
  /-- ERASE_4K (R490) -/
  | erase4k
  /-- ERASE_64K (R490) -/
  | erase64k
  /-- ARM_TRIAL (R465) -/
  | armTrial
  /-- ANCHOR (R462) -/
  | anchor
  /-- QCMD_COMPLETE (R490): the device reported an error, or not -/
  | qcmdComplete (err : Bool)
  /-- HOST_READ (R443): word address, byte enables (bit set: lane enabled), collision -/
  | hostRead (a : BitVec 15) (be : BitVec 2) (hit : Collision)
  /-- HOST_WRITE (R444) -/
  | hostWrite (a : BitVec 15) (be : BitVec 2) (v : BitVec 16) (hit : Collision)
  /-- PROTOCOL_ERROR (R448) -/
  | protocolError (err : HostError)
  /-- INTSET (R447): the value written -/
  | intset (v : Word)
  /-- LINK_BLOCK_RECEIVE (R435) on link lane m -/
  | linkBlockReceive (m : Nat) (b : LinkBlock)
  /-- LINK_DOWN (R438) of link lane m; `drain`: the peer announced an eject drain -/
  | linkDown (m : Nat) (drain : Bool)
  /-- LINE_RESET (R439): LNK.CMD 1 on lane m -/
  | lineReset (m : Nat)
  /-- SURPRISE_DOWN (R430) of store port n, sub-port s -/
  | surpriseDown (n : Nat) (s : Nat)
  /-- EJECT (R502) -/
  | eject
  /-- EJECT_DRAIN_END (R502); `timedOut`: step 4 had not completed at 800 ms -/
  | ejectDrainEnd (timedOut : Bool)
  /-- SEAL (R505) -/
  | seal
  /-- SEAL_COMPLETE (R506) -/
  | sealComplete
  /-- TMX_SELECT (R508): v is written to TMX.SELk -/
  | tmxSelect (k : Nat) (v : Word)
  /-- SCRUB (R509): v is written to TMX.SCRUB -/
  | scrub (v : Word)
  /-- SCRUB_COMPLETE (R509) of partition p -/
  | scrubComplete (p : Nat)
  /-- EXTEST (R511): the boundary cells shifted in -/
  | extest (cells : List Bool)
  /-- SAMPLE_PRELOAD (R511): the boundary cells shifted in -/
  | samplePreload (cells : List Bool)
  /-- IDCODE (R512) -/
  | idcode
  /-- CLAMP (R511) -/
  | clamp
  /-- HIGHZ (R511) -/
  | highz
  /-- MSTAT (R512) -/
  | mstat
  /-- BYPASS (R511) -/
  | bypass
  /-- REGISTER_WRITE (R15): a word written to a device register address -/
  | registerWrite (w : Writer) (addr : Nat) (v : Word)
  /-- LINK_LANE_UP (R440) of link lane m; the module number its peer announces -/
  | linkLaneUp (m : Nat) (peer : BitVec 4)
  /-- LANE_LINK_DOWN (R428) of field lane n -/
  | laneLinkDown (n : Nat)
  /-- STORE_PORT_LINK_UP (R479) of port n, sub-port s: speed, width and what the controller presents -/
  | storePortLinkUp (n : Nat) (s : Nat) (speed : BitVec 2) (width : BitVec 3) (found : ControllerReport)
  /-- IDENTITY_READ_COMPLETE (R454) of segment s, address 0x50 + a -/
  | identityReadComplete (s : Nat) (a : Nat) (r : IdentityRead)
  /-- DOMAIN_ON (R496) of domain n -/
  | domainOn (n : Nat)
  /-- DOMAIN_OFF (R496) of domain n -/
  | domainOff (n : Nat)
  /-- ZERO_FILL_COMPLETE (R402) of a returning unit -/
  | zeroFillComplete (cls : UnitClass) (u : Nat)
  /-- SEAT_RISE (R501) -/
  | seatRise
  /-- EJECT_RELEASE (R503) -/
  | ejectRelease
  /-- DECANT_LOAD_COMPLETE (R379) of partition p -/
  | decantLoadComplete (p : Nat)
  deriving DecidableEq, Repr

end Sys2Proof
end

