-- ==== Sys2Proof/Decode.lean ====
section
/-! DEFINITION. Words that spell commands: the opcode table gives no row any bits, so no word spells one. The encodings of the
moves, which the engines decode, are in Sys2Proof/Machine/Encoding.lean. -/

namespace Sys2Proof

/-- The command that a word spells by the table's bits: none, for every row's bit list is empty. -/
def decodeTableWord (_nbits _w : Nat) : Option Instr := none

end Sys2Proof
end

