-- ==== Sys2Proof/Machine/Move.lean ====
section
/-! DEFINITION. The moves of the engines (R39, R48 to R50, R76 to R93): units, ports, prefixes and bodies as data.
An instruction of an engine is a `Move`; it is no command of the module (those are `Instr`). -/

namespace Sys2Proof.Machine

/-- alu operations in the order of R49. -/
inductive AluOp | add | sub | rsub | adds | subs | and | or | xor | andn | neg | abs | min | max | minu | maxu
  deriving DecidableEq, Repr
/-- shf operations (R115). -/
inductive ShfOp | shl | shr | sar | rol | ror
  deriving DecidableEq, Repr
/-- Comparison conditions (R82). -/
inductive Cc | eq | ne | lt | ge | ltu | geu | bs | bc
  deriving DecidableEq, Repr
/-- mul operations (R118). -/
inductive MulOp | mul | mulu | mulq | macq | ldacc
  deriving DecidableEq, Repr
/-- div operations (R120). -/
inductive DivOp | divs | divu
  deriving DecidableEq, Repr
/-- fpu operations (R124). -/
inductive FpuOp | add | sub | mul | fma | min | max | neg | abs | cvtfi | cvtfu | cvtif | cvtuf
  | feq | flt | fle | fun | div | sqrt
  deriving DecidableEq, Repr
/-- lsu operations (R169). -/
inductive LsuOp | ldw | ldh | ldhu | ldb | ldbu | stw | sth | stb | aswp | aadd | aand | aor
  deriving DecidableEq, Repr
/-- pt operations (R242). -/
inductive PtOp | rd | wr | sub
  deriving DecidableEq, Repr
/-- ch operations (R271, R279). -/
inductive ChOp | send | recv
  deriving DecidableEq, Repr
/-- ev operations (R294, R296, R304). -/
inductive EvOp | wait | ack | ready | cancel
  deriving DecidableEq, Repr
/-- sys operations (R194, R195). -/
inductive SysOp | rd | wr
  deriving DecidableEq, Repr
/-- kin operations (R129). -/
inductive KinOp | mv4 | sincos | atan2 | sqrt | norm3
  deriving DecidableEq, Repr
/-- ipl operations (R133). -/
inductive IplOp | lin | circ | spl
  deriving DecidableEq, Repr
/-- bmv operations (R50). -/
inductive BmvOp | copy | fill
  deriving DecidableEq, Repr
/-- cu operations (R49). -/
inductive CuOp | jmp | call | ret | gate | sysc | sysr | bar | trap | wait
  deriving DecidableEq, Repr

/-- Operand ports: they hold their last value and start nothing (R48). -/
inductive Opnd | alu0A | alu1A | shfA | cmpA | mulA | divA | fpuA | fpuB | lsuA | ptIdx | chDst | sysSel
  | kinA | kinB | iplA | bmvA | bmvB
  deriving DecidableEq, Repr

/-- Trigger ports (R48): the unit and its operation. `alu false` is alu0. -/
inductive Trig
  | alu (second : Bool) (op : AluOp) | shf (op : ShfOp) | cmp (cc : Cc) (k : BitVec 3) | mul (op : MulOp)
  | div (op : DivOp) | fpu (op : FpuOp) | lsu (op : LsuOp) | pt (op : PtOp) | ch (op : ChOp) | ev (op : EvOp)
  | sys (op : SysOp) | kin (op : KinOp) | ipl (op : IplOp) | bmv (op : BmvOp) | cu (op : CuOp)
  deriving DecidableEq, Repr

/-- Destination ports (R81). -/
inductive Dst | d (i : BitVec 6) | g (k : BitVec 3) | bnk | rc | opnd (p : Opnd) | trig (t : Trig)
  deriving DecidableEq, Repr

/-- Fixed result ports (R48). -/
inductive ResPort | alu0R | alu1R | shfR | cmpR | mulRl | mulRh | divQ | divM | fpuR | lsuR | lsuSt | ptR | ptQ
  | chR | chSt | evR | sysR | cuLnk | kinR | kinR2 | iplR | iplSt | bmvSt
  deriving DecidableEq, Repr

/-- Waiting result ports (R48). -/
inductive WaitPort | divQw | divMw | lsuRw | ptRw | chRw
  deriving DecidableEq, Repr

/-- Source ports (R83). -/
inductive Src | d (i : BitVec 6) | g (k : BitVec 3) | bnk | rc | imm | res (r : ResPort) | wait (w : WaitPort)
  deriving DecidableEq, Repr

/-- Repeat prefixes (R85): `rep n` with n = nn + 1, `repi n`, `repi rc`. -/
inductive Rep | rep (nn : BitVec 8) | repi (n : BitVec 16) | repiRc
  deriving DecidableEq, Repr

/-- Immediate prefixes (R85). -/
inductive ImmPre | high (u : BitVec 16) | full (v : Word)
  deriving DecidableEq, Repr

/-- The prefixes of one instruction, at most one of each group (R86). A guard is (negated, k). -/
structure Prefixes where
  rep : Option Rep := none
  guard : Option (Bool × BitVec 3) := none
  priv : Bool := false
  far : Option (BitVec 20) := none
  imm : Option ImmPre := none
  deriving DecidableEq, Repr

/-- Bodies: short and long moves and system forms (R78, R79, R92). -/
inductive Body
  | short (dst : Dst) (src : Src)
  | long (dst : Dst) (src : Src)
  | longI8 (dst : Dst) (v : BitVec 8)
  | longI16 (dst : Dst) (v : BitVec 16)
  | longU16 (dst : Dst) (v : BitVec 16)
  | nop | bar | ret | sysr
  | trap (n : BitVec 8)
  | gate (n : BitVec 16)
  | sysc (n : BitVec 8)
  deriving DecidableEq, Repr

/-- One instruction of an engine (R76). -/
structure Move where
  pre : Prefixes
  body : Body
  deriving DecidableEq, Repr

/-- What a move reads: a port, or an inline value (R80). -/
inductive Operand | port (s : Src) | value (v : Word)
  deriving DecidableEq, Repr

end Sys2Proof.Machine
end

