-- ==== Sys2Proof/Machine/Encoding.lean ====
section
/-! DEFINITION. Port identifiers (R81 to R83), the decoder of the engines' byte strings (R76 to R94, R517) and the encoder. -/

namespace Sys2Proof.Machine

/-- alu operations in ID order (R81). -/
def AluOp.all : List AluOp :=
  [.add, .sub, .rsub, .adds, .subs, .and, .or, .xor, .andn, .neg, .abs, .min, .max, .minu, .maxu]
def ShfOp.all : List ShfOp := [.shl, .shr, .sar, .rol, .ror]
def Cc.all : List Cc := [.eq, .ne, .lt, .ge, .ltu, .geu, .bs, .bc]
def MulOp.all : List MulOp := [.mul, .mulu, .mulq, .macq, .ldacc]
def DivOp.all : List DivOp := [.divs, .divu]
def FpuOp.all : List FpuOp :=
  [.add, .sub, .mul, .fma, .min, .max, .neg, .abs, .cvtfi, .cvtfu, .cvtif, .cvtuf, .feq, .flt, .fle, .fun, .div, .sqrt]
def LsuOp.all : List LsuOp :=
  [.ldw, .ldh, .ldhu, .ldb, .ldbu, .stw, .sth, .stb, .aswp, .aadd, .aand, .aor]

/-- Destination IDs 0x40 to 0xC0 in ID order (R81). -/
def Dst.middle : List Dst :=
  List.flatten (α := Dst) [
    [.g 0, .g 1, .g 2, .g 3, .g 4, .g 5, .g 6, .g 7, .bnk, .rc],
    .opnd .alu0A :: AluOp.all.map (fun o => .trig (.alu false o)),
    .opnd .alu1A :: AluOp.all.map (fun o => .trig (.alu true o)),
    .opnd .shfA :: ShfOp.all.map (fun o => .trig (.shf o)),
    .opnd .mulA :: MulOp.all.map (fun o => .trig (.mul o)),
    .opnd .divA :: DivOp.all.map (fun o => .trig (.div o)),
    .opnd .fpuA :: .opnd .fpuB :: FpuOp.all.map (fun o => .trig (.fpu o)),
    .opnd .lsuA :: LsuOp.all.map (fun o => .trig (.lsu o)),
    [.opnd .ptIdx, .trig (.pt .rd), .trig (.pt .wr), .trig (.pt .sub),
     .opnd .chDst, .trig (.ch .send), .trig (.ch .recv),
     .trig (.ev .wait), .trig (.ev .ack), .trig (.ev .ready), .trig (.ev .cancel),
     .opnd .sysSel, .trig (.sys .rd), .trig (.sys .wr),
     .opnd .kinA, .opnd .kinB, .trig (.kin .mv4), .trig (.kin .sincos), .trig (.kin .atan2), .trig (.kin .sqrt),
     .trig (.kin .norm3), .opnd .iplA, .trig (.ipl .lin), .trig (.ipl .circ), .trig (.ipl .spl),
     .opnd .bmvA, .opnd .bmvB, .trig (.bmv .copy), .trig (.bmv .fill),
     .trig (.cu .jmp), .trig (.cu .call), .trig (.cu .ret), .trig (.cu .gate), .trig (.cu .sysc), .trig (.cu .sysr),
     .trig (.cu .bar), .trig (.cu .trap), .trig (.cu .wait), .opnd .cmpA]]

/-- Source IDs 0x40 to 0x66 in ID order (R83). -/
def Src.middle : List Src :=
  [.g 0, .g 1, .g 2, .g 3, .g 4, .g 5, .g 6, .g 7, .bnk, .rc, .imm,
   .res .alu0R, .res .alu1R, .res .shfR, .res .cmpR, .res .mulRl, .res .mulRh, .res .divQ, .res .divM,
   .wait .divQw, .wait .divMw, .res .fpuR, .res .lsuR, .wait .lsuRw, .res .lsuSt, .res .ptR, .res .ptQ, .wait .ptRw,
   .res .chR, .res .chSt, .wait .chRw, .res .evR, .res .sysR, .res .cuLnk, .res .kinR, .res .kinR2,
   .res .iplR, .res .iplSt, .res .bmvSt]

/-- The condition of a cmp trigger ID's low three bits (R82). -/
def Cc.ofBits (b : BitVec 3) : Cc :=
  match b.toNat with
  | 0 => .eq | 1 => .ne | 2 => .lt | 3 => .ge | 4 => .ltu | 5 => .geu | 6 => .bs | _ => .bc

/-- The low three bits of a cmp trigger ID (R82). -/
def Cc.bits : Cc → BitVec 3
  | .eq => 0 | .ne => 1 | .lt => 2 | .ge => 3 | .ltu => 4 | .geu => 5 | .bs => 6 | .bc => 7

/-- The destination port of an ID; none for the reserved IDs 0xC1 to 0xC7 (R81). -/
def Dst.ofId (b : Byte) : Option Dst :=
  if b.toNat < 0x40 then some (.d (b.extractLsb' 0 6))
  else if b.toNat ≤ 0xC0 then Dst.middle[b.toNat - 0x40]?
  else if b.toNat < 0xC8 then none
  else some (.trig (.cmp (Cc.ofBits (b.extractLsb' 0 3)) (b.extractLsb' 3 3)))

/-- The source port of an ID; none for the reserved IDs from 0x67 (R83). -/
def Src.ofId (b : Byte) : Option Src :=
  if b.toNat < 0x40 then some (.d (b.extractLsb' 0 6)) else Src.middle[b.toNat - 0x40]?

/-- The position of an element in a list; the list's length where it is not there. -/
def indexIn {α : Type} [DecidableEq α] : List α → α → Nat
  | [], _ => 0
  | x :: xs, y => if x = y then 0 else indexIn xs y + 1

/-- The ID of a destination port (R81, R82). A cmp trigger of g0 has no ID; it takes the reserved 0xC1. -/
def Dst.id : Dst → Byte
  | .d i => i.setWidth 8
  | .trig (.cmp cc k) => if k = 0 then 0xC1 else 0xC0 + (k.setWidth 8) * 8 + (cc.bits.setWidth 8)
  | x => BitVec.ofNat 8 (0x40 + indexIn Dst.middle x)

/-- The ID of a source port (R83). -/
def Src.id : Src → Byte
  | .d i => i.setWidth 8
  | x => BitVec.ofNat 8 (0x40 + indexIn Src.middle x)

/-- Is the destination a cu trigger (R99)? -/
def Dst.isCu : Dst → Bool
  | .trig (.cu _) => true
  | _ => false

/-- May a far prefix stand before a move into this destination (R86)? -/
def Dst.takesFar : Dst → Bool
  | .trig (.lsu _) => true
  | .trig (.bmv _) => true
  | _ => false

/-- Does a move into this destination carry the privileged prefix (R86)? -/
def Dst.privileged : Dst → Bool
  | .trig (.sys .wr) => true
  | .trig (.cu .sysr) => true
  | _ => false

/-- The destination of a body; a system form counts as the move of R92. -/
def Body.dst : Body → Dst
  | .short d _ => d | .long d _ => d | .longI8 d _ => d | .longI16 d _ => d | .longU16 d _ => d
  | .nop => .g 0 | .bar => .trig (.cu .bar) | .ret => .trig (.cu .ret) | .sysr => .trig (.cu .sysr)
  | .trap _ => .trig (.cu .trap) | .gate _ => .trig (.cu .gate) | .sysc _ => .trig (.cu .sysc)

/-- What a body reads (R80, R92). -/
def Body.operand : Body → Operand
  | .short _ s => .port s | .long _ s => .port s
  | .longI8 _ v => .value (v.signExtend 32) | .longI16 _ v => .value (v.signExtend 32)
  | .longU16 _ v => .value (v.setWidth 32)
  | .nop => .port (.g 0) | .bar => .port (.g 0) | .ret => .port (.res .cuLnk) | .sysr => .port (.g 0)
  | .trap n => .value (n.setWidth 32) | .gate n => .value (n.setWidth 32) | .sysc n => .value (n.setWidth 32)

/-- Is the body a system form other than nop (R86, R93)? -/
def Body.isSystem : Body → Bool
  | .short .. | .long .. | .longI8 .. | .longI16 .. | .longU16 .. => false
  | _ => true

/-- Does the body read `imm` (R87)? -/
def Body.readsImm : Body → Bool
  | .short _ .imm => true
  | .long _ .imm => true
  | _ => false

/-- The value of an immediate prefix (R85). -/
def ImmPre.value : ImmPre → Word
  | .high u => u.setWidth 32 <<< 16
  | .full v => v

/-- The lesser of two detail values; 0 stands for none (R94). -/
def worse (a b : Nat) : Nat := if a = 0 then b else if b = 0 then a else min a b

/-- The detail values of R94 that a body and its prefixes meet, from 0x06 on; 0 for none. -/
def Move.useDetail (i : Move) : Nat :=
  let d := i.body.dst
  let sys := i.body.isSystem
  let badRep := i.pre.rep.isSome && (d.isCu || (sys && i.body ≠ .nop))
  let badFar := i.pre.far.isSome && (sys || !d.takesFar)
  let badPriv := i.pre.priv && (sys || !d.privileged)
  if badRep || badFar || badPriv then 6
  else if i.pre.imm.isSome ≠ i.body.readsImm then 7
  else if d.privileged && !i.pre.priv && !sys then 8
  else 0

/-- The outcome of decoding: an instruction and its length, a detail of R94, or the bytes do not suffice. -/
inductive Decoded | ok (i : Move) (len : Nat) | illegal (detail : Nat) | more
  deriving DecidableEq, Repr

/-- What the prefixes read so far give: the prefixes, their count, the last group, the least detail, the bytes used. -/
structure PrefixScan where
  pre : Prefixes := {}
  count : Nat := 0
  lastGroup : Nat := 0
  detail : Nat := 0
  used : Nat := 0
  deriving DecidableEq, Repr

/-- One more prefix of group `grp` and `len` bytes (R86): order and count are judged here. -/
def PrefixScan.take (a : PrefixScan) (grp len : Nat) (bad : Bool) (p : Prefixes → Prefixes) : PrefixScan :=
  { pre := p a.pre, count := a.count + 1, lastGroup := grp, used := a.used + len
    detail := worse (worse a.detail (if bad then 5 else 0))
      (worse (if a.count + 1 > 3 then 3 else 0) (if grp ≤ a.lastGroup then 4 else 0)) }

/-- The end of a decoding: the checks that need the whole instruction (R94). -/
def finishDecode (a : PrefixScan) (len : Nat) (body : Option Body) : Decoded :=
  let long := if a.used + len > 12 then 9 else 0
  match body with
  | none => .illegal (worse 2 (worse a.detail long))
  | some b =>
    let i : Move := { pre := a.pre, body := b }
    let det := worse (worse a.detail i.useDetail) long
    if det = 0 then .ok i (a.used + len) else .illegal det

/-- Decode the body that starts with `b0` (R77 to R80, R92). -/
def decodeBody (a : PrefixScan) (b0 : Byte) (bs : List Byte) : Decoded :=
  if b0.toNat < 0xC0 then
    match bs with
    | s :: _ =>
      finishDecode a 2 (match Dst.ofId b0, Src.ofId s with | some d, some s => some (.short d s) | _, _ => none)
    | _ => .more
  else match b0.toNat with
  | 0xC0 => match bs with
    | d :: s :: _ =>
      finishDecode a 3 (match Dst.ofId d, Src.ofId s with | some d, some s => some (.long d s) | _, _ => none)
    | _ => .more
  | 0xC1 => match bs with
    | d :: v :: _ => finishDecode a 3 ((Dst.ofId d).map (.longI8 · v))
    | _ => .more
  | 0xC2 => match bs with
    | d :: l :: h :: _ => finishDecode a 4 ((Dst.ofId d).map (.longI16 · (h ++ l)))
    | _ => .more
  | 0xC3 => match bs with
    | d :: l :: h :: _ => finishDecode a 4 ((Dst.ofId d).map (.longU16 · (h ++ l)))
    | _ => .more
  | 0xF0 => finishDecode a 1 (some .nop)
  | 0xF1 => finishDecode a 1 (some .bar)
  | 0xF2 => finishDecode a 1 (some .ret)
  | 0xF3 => finishDecode a 1 (some .sysr)
  | 0xF4 => match bs with
    | n :: _ => finishDecode a 2 (some (.trap n))
    | _ => .more
  | 0xF5 => match bs with
    | l :: h :: _ => finishDecode a 3 (some (.gate (h ++ l)))
    | _ => .more
  | 0xF6 => match bs with
    | n :: _ => finishDecode a 2 (some (.sysc n))
    | _ => .more
  | _ => .illegal 1

/-- Decode from the first byte (R77). `fuel` bounds the prefixes that are read: an over-long instruction is read on, since a lower
detail of R94 may still apply. More than 92 bytes of prefixes are judged without what follows: with them, the four lines that a line buffer holds
(R138, R143) may end before the instruction does (log entry 63). -/
def decodeFrom (fuel : Nat) (a : PrefixScan) (bytes : List Byte) : Decoded :=
  match fuel with
  | 0 => .illegal (worse a.detail 9)
  | fuel + 1 =>
    if 92 < a.used then .illegal (worse a.detail 9) else
    match bytes with
    | [] => .more
    | b0 :: bs =>
      match b0.toNat with
      | 0xE0 => match bs with
        | n :: r => decodeFrom fuel (a.take 1 2 false (fun p => { p with rep := some (.rep n) })) r
        | _ => .more
      | 0xE1 => match bs with
        | l :: h :: r =>
          decodeFrom fuel (a.take 1 3 (h ++ l == 0#16) (fun p => { p with rep := some (.repi (h ++ l)) })) r
        | _ => .more
      | 0xE2 => decodeFrom fuel (a.take 1 1 false (fun p => { p with rep := some .repiRc })) bs
      | 0xE3 => decodeFrom fuel (a.take 3 1 false (fun p => { p with priv := true })) bs
      | 0xE4 => match bs with
        | g :: r =>
          decodeFrom fuel (a.take 2 2 (g.extractLsb' 4 4 != 0#4)
            (fun p => { p with guard := some (g.getLsbD 3, g.extractLsb' 0 3) })) r
        | _ => .more
      | 0xE5 => match bs with
        | x :: y :: z :: r =>
          decodeFrom fuel (a.take 4 4 (z.extractLsb' 4 4 != 0#4)
            (fun p => { p with far := some (z.extractLsb' 0 4 ++ y ++ x) })) r
        | _ => .more
      | 0xE6 => match bs with
        | l :: h :: r => decodeFrom fuel (a.take 5 3 false (fun p => { p with imm := some (.high (h ++ l)) })) r
        | _ => .more
      | 0xE7 => match bs with
        | x :: y :: z :: w :: r =>
          decodeFrom fuel (a.take 5 5 false (fun p => { p with imm := some (.full (w ++ z ++ y ++ x)) })) r
        | _ => .more
      | n => if 0xE8 ≤ n ∧ n ≤ 0xEF then .illegal 1 else decodeBody a b0 bs

/-- Decode one instruction from the bytes at its address (R76, R94). -/
def decodeMove (bytes : List Byte) : Decoded := decodeFrom 100 {} bytes

/-- The low byte of a 16-bit field, and its high byte (R76: little-endian). -/
def bytes16 (v : BitVec 16) : List Byte := [v.extractLsb' 0 8, v.extractLsb' 8 8]

/-- The four bytes of a word, lowest first (R76, R169). -/
def bytes32 (v : Word) : List Byte := [v.extractLsb' 0 8, v.extractLsb' 8 8, v.extractLsb' 16 8, v.extractLsb' 24 8]

/-- The bytes of a repeat prefix (R85). -/
def Rep.encode : Rep → List Byte
  | .rep nn => [0xE0, nn]
  | .repi n => 0xE1 :: bytes16 n
  | .repiRc => [0xE2]

/-- The bytes of a guard prefix (R85). -/
def encodeGuard (g : Bool × BitVec 3) : List Byte := [0xE4, (0#4 ++ BitVec.ofBool g.1) ++ g.2]

/-- The bytes of a far prefix (R85). -/
def encodeFar (b : BitVec 20) : List Byte :=
  [0xE5, b.extractLsb' 0 8, b.extractLsb' 8 8, 0#4 ++ b.extractLsb' 16 4]

/-- The bytes of an immediate prefix (R85). -/
def ImmPre.encode : ImmPre → List Byte
  | .high u => 0xE6 :: bytes16 u
  | .full v => 0xE7 :: bytes32 v

/-- The bytes of the prefixes in the order of R86. -/
def Prefixes.encode (p : Prefixes) : List Byte :=
  (p.rep.elim [] Rep.encode) ++ (p.guard.elim [] encodeGuard) ++ (if p.priv then [0xE3] else []) ++
  (p.far.elim [] encodeFar) ++ (p.imm.elim [] ImmPre.encode)

/-- The bytes of a body (R78, R79, R92). -/
def Body.encode : Body → List Byte
  | .short d s => [d.id, s.id]
  | .long d s => [0xC0, d.id, s.id]
  | .longI8 d v => [0xC1, d.id, v]
  | .longI16 d v => [0xC2, d.id] ++ bytes16 v
  | .longU16 d v => [0xC3, d.id] ++ bytes16 v
  | .nop => [0xF0] | .bar => [0xF1] | .ret => [0xF2] | .sysr => [0xF3]
  | .trap n => [0xF4, n]
  | .gate n => 0xF5 :: bytes16 n
  | .sysc n => [0xF6, n]

/-- The bytes of an instruction. -/
def encodeMove (i : Move) : List Byte := i.pre.encode ++ i.body.encode

/-- How many prefixes an instruction has. -/
def Prefixes.count (p : Prefixes) : Nat :=
  p.rep.isSome.toNat + p.guard.isSome.toNat + p.priv.toNat + p.far.isSome.toNat + p.imm.isSome.toNat

/-- A destination that has an ID: cmp triggers name g1 to g7 (R81). -/
def Dst.wf : Dst → Bool
  | .trig (.cmp _ k) => k != 0
  | _ => true

/-- A well-formed instruction obeys R77 to R93: a legal destination, the short form only below 0xC0, `repi n` above 0,
at most three prefixes, at most 12 bytes, prefixes only where R86 and R93 allow them. -/
def Move.wf (i : Move) : Bool :=
  i.body.dst.wf && (match i.body with | .short d _ => decide (d.id.toNat < 0xC0) | _ => true) &&
  decide (i.pre.rep ≠ some (.repi 0)) && decide (i.pre.count ≤ 3) && decide ((encodeMove i).length ≤ 12) &&
  decide (i.useDetail = 0)

end Sys2Proof.Machine
end

