-- ==== Sys2Proof/Machine/Digest.lean ====
section
/-! DEFINITION. The digests and the signature that images carry: SHA-256 and SHA-384 of FIPS 180-4, and the verification of ECDSA over P-384 of
FIPS 186-4 (R460, R462; log entry 9). -/

namespace Sys2Proof.Machine

/-- n big-endian bytes of a number. -/
def bigBytes : Nat → Nat → List Byte
  | 0, _ => []
  | n + 1, v => bigBytes n (v / 256) ++ [BitVec.ofNat 8 v]

/-- The number that big-endian bytes form. -/
def fromBig (bs : List Byte) : Nat := bs.foldl (fun n b => 256 * n + b.toNat) 0

/-- Cut a list into pieces of n; `fuel` is the list's length. -/
def pieces {α : Type} (n : Nat) : Nat → List α → List (List α)
  | 0, _ => []
  | _, [] => []
  | fuel + 1, x :: xs => (x :: xs).take n :: pieces n fuel ((x :: xs).drop n)

/-- A message padded to whole blocks of `block` bytes: 0x80, zeros and its length in bits. -/
def shaPad (block : Nat) (m : List Byte) : List Byte :=
  let tail := block / 8
  m ++ 0x80 :: List.replicate ((block - (m.length + 1 + tail) % block) % block) 0 ++ bigBytes tail (8 * m.length)

/-- The round functions of SHA-2 on words of w bits: choice and majority. -/
def shaCh {w : Nat} (x y z : BitVec w) : BitVec w := (x &&& y) ^^^ (~~~ x &&& z)
def shaMaj {w : Nat} (x y z : BitVec w) : BitVec w := (x &&& y) ^^^ (x &&& z) ^^^ (y &&& z)

/-- What tells the two word sizes of SHA-2 apart: the rotations of the two round sums, those of the two schedule sums with their shifts, and the
round constants. -/
structure ShaRounds (w : Nat) where
  big0 : Nat × Nat × Nat
  big1 : Nat × Nat × Nat
  small0 : Nat × Nat × Nat
  small1 : Nat × Nat × Nat
  k : List (BitVec w)

/-- A round sum: three rotations. -/
def shaBig {w : Nat} (r : Nat × Nat × Nat) (x : BitVec w) : BitVec w :=
  x.rotateRight r.1 ^^^ x.rotateRight r.2.1 ^^^ x.rotateRight r.2.2

/-- A schedule sum: two rotations and a shift. -/
def shaSmall {w : Nat} (r : Nat × Nat × Nat) (x : BitVec w) : BitVec w :=
  x.rotateRight r.1 ^^^ x.rotateRight r.2.1 ^^^ (x >>> r.2.2)

/-- The message schedule: n more words behind the 16 of the block. -/
def shaSchedule {w : Nat} (c : ShaRounds w) : Nat → List (BitVec w) → List (BitVec w)
  | 0, ws => ws
  | n + 1, ws =>
    let i := ws.length
    let at_ := fun k => ws.getD (i - k) 0
    shaSchedule c n (ws ++ [shaSmall c.small1 (at_ 2) + at_ 7 + shaSmall c.small0 (at_ 15) + at_ 16])

/-- One round on the eight working words. -/
def shaRound {w : Nat} (c : ShaRounds w) (s : List (BitVec w)) (kw : BitVec w × BitVec w) : List (BitVec w) :=
  match s with
  | [a, b, cc, d, e, f, g, h] =>
    let t := h + shaBig c.big1 e + shaCh e f g + kw.1 + kw.2
    [t + shaBig c.big0 a + shaMaj a b cc, a, b, cc, d + t, e, f, g]
  | s => s

/-- One block. -/
def shaBlock {w : Nat} (c : ShaRounds w) (s : List (BitVec w)) (block : List Byte) : List (BitVec w) :=
  let ws := shaSchedule c (c.k.length - 16) ((pieces (w / 8) block.length block).map (fun p => BitVec.ofNat w (fromBig p)))
  List.zipWith (· + ·) s ((c.k.zip ws).foldl (shaRound c) s)

/-- A digest of `out` bytes. -/
def shaDigest {w : Nat} (c : ShaRounds w) (start : List (BitVec w)) (out : Nat) (m : List Byte) : List Byte :=
  let padded := shaPad (2 * w) m
  let s := (pieces (2 * w) padded.length padded).foldl (shaBlock c) start
  ((s.map (fun x => bigBytes (w / 8) x.toNat)).flatten).take out

/-- The round constants of SHA-256. -/
def sha256K : List (BitVec 32) :=
  List.flatten [
  [0x428A2F98, 0x71374491, 0xB5C0FBCF, 0xE9B5DBA5, 0x3956C25B, 0x59F111F1, 0x923F82A4, 0xAB1C5ED5],
  [0xD807AA98, 0x12835B01, 0x243185BE, 0x550C7DC3, 0x72BE5D74, 0x80DEB1FE, 0x9BDC06A7, 0xC19BF174],
  [0xE49B69C1, 0xEFBE4786, 0x0FC19DC6, 0x240CA1CC, 0x2DE92C6F, 0x4A7484AA, 0x5CB0A9DC, 0x76F988DA],
  [0x983E5152, 0xA831C66D, 0xB00327C8, 0xBF597FC7, 0xC6E00BF3, 0xD5A79147, 0x06CA6351, 0x14292967],
  [0x27B70A85, 0x2E1B2138, 0x4D2C6DFC, 0x53380D13, 0x650A7354, 0x766A0ABB, 0x81C2C92E, 0x92722C85],
  [0xA2BFE8A1, 0xA81A664B, 0xC24B8B70, 0xC76C51A3, 0xD192E819, 0xD6990624, 0xF40E3585, 0x106AA070],
  [0x19A4C116, 0x1E376C08, 0x2748774C, 0x34B0BCB5, 0x391C0CB3, 0x4ED8AA4A, 0x5B9CCA4F, 0x682E6FF3],
  [0x748F82EE, 0x78A5636F, 0x84C87814, 0x8CC70208, 0x90BEFFFA, 0xA4506CEB, 0xBEF9A3F7, 0xC67178F2]]

/-- The round constants of SHA-384 and SHA-512. -/
def sha512K : List (BitVec 64) :=
  List.flatten [
  [0x428A2F98D728AE22, 0x7137449123EF65CD, 0xB5C0FBCFEC4D3B2F, 0xE9B5DBA58189DBBC],
  [0x3956C25BF348B538, 0x59F111F1B605D019, 0x923F82A4AF194F9B, 0xAB1C5ED5DA6D8118],
  [0xD807AA98A3030242, 0x12835B0145706FBE, 0x243185BE4EE4B28C, 0x550C7DC3D5FFB4E2],
  [0x72BE5D74F27B896F, 0x80DEB1FE3B1696B1, 0x9BDC06A725C71235, 0xC19BF174CF692694],
  [0xE49B69C19EF14AD2, 0xEFBE4786384F25E3, 0x0FC19DC68B8CD5B5, 0x240CA1CC77AC9C65],
  [0x2DE92C6F592B0275, 0x4A7484AA6EA6E483, 0x5CB0A9DCBD41FBD4, 0x76F988DA831153B5],
  [0x983E5152EE66DFAB, 0xA831C66D2DB43210, 0xB00327C898FB213F, 0xBF597FC7BEEF0EE4],
  [0xC6E00BF33DA88FC2, 0xD5A79147930AA725, 0x06CA6351E003826F, 0x142929670A0E6E70],
  [0x27B70A8546D22FFC, 0x2E1B21385C26C926, 0x4D2C6DFC5AC42AED, 0x53380D139D95B3DF],
  [0x650A73548BAF63DE, 0x766A0ABB3C77B2A8, 0x81C2C92E47EDAEE6, 0x92722C851482353B],
  [0xA2BFE8A14CF10364, 0xA81A664BBC423001, 0xC24B8B70D0F89791, 0xC76C51A30654BE30],
  [0xD192E819D6EF5218, 0xD69906245565A910, 0xF40E35855771202A, 0x106AA07032BBD1B8],
  [0x19A4C116B8D2D0C8, 0x1E376C085141AB53, 0x2748774CDF8EEB99, 0x34B0BCB5E19B48A8],
  [0x391C0CB3C5C95A63, 0x4ED8AA4AE3418ACB, 0x5B9CCA4F7763E373, 0x682E6FF3D6B2B8A3],
  [0x748F82EE5DEFB2FC, 0x78A5636F43172F60, 0x84C87814A1F0AB72, 0x8CC702081A6439EC],
  [0x90BEFFFA23631E28, 0xA4506CEBDE82BDE9, 0xBEF9A3F7B2C67915, 0xC67178F2E372532B],
  [0xCA273ECEEA26619C, 0xD186B8C721C0C207, 0xEADA7DD6CDE0EB1E, 0xF57D4F7FEE6ED178],
  [0x06F067AA72176FBA, 0x0A637DC5A2C898A6, 0x113F9804BEF90DAE, 0x1B710B35131C471B],
  [0x28DB77F523047D84, 0x32CAAB7B40C72493, 0x3C9EBE0A15C9BEBC, 0x431D67C49C100D4C],
  [0x4CC5D4BECB3E42B6, 0x597F299CFC657E2A, 0x5FCB6FAB3AD6FAEC, 0x6C44198C4A475817]]

/-- SHA-256 of a byte string. -/
def sha256 (m : List Byte) : List Byte :=
  shaDigest { big0 := (2, 13, 22), big1 := (6, 11, 25), small0 := (7, 18, 3), small1 := (17, 19, 10), k := sha256K }
    [0x6A09E667, 0xBB67AE85, 0x3C6EF372, 0xA54FF53A, 0x510E527F, 0x9B05688C, 0x1F83D9AB, 0x5BE0CD19] 32 m

/-- SHA-384 of a byte string. -/
def sha384 (m : List Byte) : List Byte :=
  shaDigest { big0 := (28, 34, 39), big1 := (14, 18, 41), small0 := (1, 8, 7), small1 := (19, 61, 6), k := sha512K }
    [0xCBBB9D5DC1059ED8, 0x629A292A367CD507, 0x9159015A3070DD17, 0x152FECD8F70E5939,
     0x67332667FFC00B31, 0x8EB44A8768581511, 0xDB0C2E0D64F98FA7, 0x47B5481DBEFA4FA4] 48 m

/-! ### ECDSA over P-384 -/

/-- The prime, the coefficient b, the base point and the order of P-384. -/
def p384P : Nat := 2 ^ 384 - 2 ^ 128 - 2 ^ 96 + 2 ^ 32 - 1
def p384B : Nat := 0xB3312FA7E23EE7E4988E056BE3F82D19181D9C6EFE8141120314088F5013875AC656398D8A2ED19D2A85C8EDD3EC2AEF
def p384G : Nat × Nat :=
  (0xAA87CA22BE8B05378EB1C71EF320AD746E1D3B628BA79B9859F741E082542A385502F25DBF55296C3A545E3872760AB7,
   0x3617DE4A96262C6F5D9E98BF9292DC29F8F41DBD289A147CE9DA3113B5F0B8C00A60B1CE1D7E819D7A431D7C90EA0E5F)
def p384N : Nat := 0xFFFFFFFFFFFFFFFFFFFFFFFFFFFFFFFFFFFFFFFFFFFFFFFFC7634D81F4372DDF581A0DB248B0A77AECEC196ACCC52973

/-- b ^ e mod m, by the low n bits of e. -/
def powMod (m : Nat) : Nat → Nat → Nat → Nat
  | 0, _, _ => 1 % m
  | n + 1, b, e => (if e % 2 = 1 then b else 1) * powMod m n (b * b % m) (e / 2) % m

/-- The inverse modulo a prime of 384 bits. -/
def invMod (m a : Nat) : Nat := powMod m 384 (a % m) (m - 2)

/-- The sum of two points of the curve; none is the point at infinity. -/
def p384Add : Option (Nat × Nat) → Option (Nat × Nat) → Option (Nat × Nat)
  | none, q => q
  | p, none => p
  | some (x, y), some (u, v) =>
    let p := p384P
    if x = u ∧ (y + v) % p = 0 then none else
    let l := if x = u then (3 * x * x + (p - 3)) * invMod p (2 * y) % p else (v + p - y) * invMod p (u + p - x) % p
    let r := (l * l + 2 * p - x - u) % p
    some (r, (l * (x + p - r) + p - y) % p)

/-- The multiple of a point by the low n bits of a number. -/
def p384Mul : Nat → Nat → Option (Nat × Nat) → Option (Nat × Nat)
  | 0, _, _ => none
  | n + 1, k, q => p384Add (if k % 2 = 1 then q else none) (p384Mul n (k / 2) (p384Add q q))

/-- Does the signature r, s of 96 bytes over SHA-384 of the bytes verify under the uncompressed point of 97 bytes (R460)? -/
def signatureOk (pubkey signature bytes : List Byte) : Bool :=
  let x := fromBig ((pubkey.drop 1).take 48)
  let y := fromBig ((pubkey.drop 49).take 48)
  let r := fromBig (signature.take 48)
  let s := fromBig ((signature.drop 48).take 48)
  let w := invMod p384N s
  let u := fromBig (sha384 bytes) * w % p384N
  decide (pubkey.head? = some 0x04 ∧ pubkey.length = 97 ∧ signature.length = 96) &&
  decide (x < p384P ∧ y < p384P ∧ y * y % p384P = (x * x * x + (p384P - 3) * x + p384B) % p384P) &&
  decide (0 < r ∧ r < p384N ∧ 0 < s ∧ s < p384N) &&
  (match p384Add (p384Mul 384 u (some p384G)) (p384Mul 384 (r * w % p384N) (some (x, y))) with
   | some q => decide (q.1 % p384N = r)
   | none => false)

end Sys2Proof.Machine
end

