-- ==== Sys2Proof/Machine/Cipher.lean ====
section
/-! DEFINITION. AES-256 of FIPS 197, the key wrap of NIST SP 800-38F and the GCM of NIST SP 800-38D (R355, R374; log entry 9). -/

namespace Sys2Proof.Machine

/-! ### AES-256 -/

/-- Twice a byte in GF(2^8). -/
def gfTwice (a : Byte) : Byte := (a <<< 1) ^^^ (if a.getLsbD 7 then 0x1B else 0)

/-- The product in GF(2^8), by the low n bits of the second factor. -/
def gfMul : Nat → Byte → Byte → Byte
  | 0, _, _ => 0
  | n + 1, a, b => (if b.getLsbD 0 then a else 0) ^^^ gfMul n (gfTwice a) (b >>> 1)

/-- a to the power n in GF(2^8). -/
def gfPow (a : Byte) : Nat → Byte
  | 0 => 1
  | n + 1 => gfMul 8 (gfPow a n) a

/-- The S-box: the inverse, then the affine map. -/
def sBox (a : Byte) : Byte :=
  let b := gfPow a 254
  b ^^^ b.rotateLeft 1 ^^^ b.rotateLeft 2 ^^^ b.rotateLeft 3 ^^^ b.rotateLeft 4 ^^^ 0x63

/-- The inverse S-box. -/
def invSBox (a : Byte) : Byte := gfPow (a.rotateLeft 1 ^^^ a.rotateLeft 3 ^^^ a.rotateLeft 6 ^^^ 0x05) 254

/-- The sum of two byte strings. -/
def xorBytes (a b : List Byte) : List Byte := List.zipWith (· ^^^ ·) a b

/-- The key schedule: n more words of 4 bytes behind those there are. -/
def expandKey : Nat → List (List Byte) → List (List Byte)
  | 0, ws => ws
  | n + 1, ws =>
    let i := ws.length
    let last := ws.getD (i - 1) []
    let t := if i % 8 = 0 then xorBytes ((last.drop 1 ++ last.take 1).map sBox) [gfPow 2 (i / 8 - 1), 0, 0, 0]
      else if i % 8 = 4 then last.map sBox else last
    expandKey n (ws ++ [xorBytes (ws.getD (i - 8) []) t])

/-- The 15 round keys of a key of 32 bytes. -/
def roundKeys (key : List Byte) : List (List Byte) :=
  let ws := expandKey 52 (pieces 4 32 key)
  (pieces 4 60 ws).map List.flatten

/-- The rows of a state shifted by k columns a row. -/
def shiftRows (k : Nat) (s : List Byte) : List Byte :=
  (List.range 16).map (fun i => s.getD (4 * ((i / 4 + k * (i % 4)) % 4) + i % 4) 0)

/-- The columns of a state multiplied by a circulant of four bytes. -/
def mixColumns (m : List Byte) (s : List Byte) : List Byte :=
  (List.range 16).map (fun i =>
    (List.range 4).foldl (fun acc j => acc ^^^ gfMul 8 (s.getD (4 * (i / 4) + (i + j) % 4) 0) (m.getD j 0)) 0)

/-- The cipher of one block under the round keys. -/
def aesBlock (keys : List (List Byte)) (b : List Byte) : List Byte :=
  match keys with
  | [] => b
  | k :: ks => ks.zipIdx.foldl (fun s k =>
      let t := shiftRows 1 (s.map sBox)
      xorBytes (if k.2 = 13 then t else mixColumns [2, 3, 1, 1] t) k.1) (xorBytes b k)

/-- The inverse cipher of one block under the round keys. -/
def aesInverse (keys : List (List Byte)) (b : List Byte) : List Byte :=
  keys.reverse.zipIdx.foldl (fun s k =>
    let t := xorBytes (if k.2 = 0 then s else (shiftRows 3 s).map invSBox) k.1
    if k.2 = 0 ∨ k.2 = 14 then t else mixColumns [14, 11, 13, 9] t) b

/-! ### Key wrap (R374) -/

/-- One step of the wrap: the integrity value, the blocks, at step t. -/
def wrapStep (keys : List (List Byte)) (s : List Byte × List (List Byte)) (t : Nat) : List Byte × List (List Byte) :=
  let i := (t - 1) % s.2.length
  let b := aesBlock keys (s.1 ++ s.2.getD i [])
  (xorBytes (b.take 8) (bigBytes 8 t), s.2.set i (b.drop 8))

/-- A key wrapped: its bytes and the integrity value before them. -/
def keyWrap (kek key : List Byte) : List Byte :=
  let r := ((List.range (6 * (key.length / 8))).map (· + 1)).foldl (wrapStep (roundKeys kek))
    (List.replicate 8 0xA6, pieces 8 key.length key)
  r.1 ++ r.2.flatten

/-- One step back. -/
def unwrapStep (keys : List (List Byte)) (s : List Byte × List (List Byte)) (t : Nat) : List Byte × List (List Byte) :=
  let i := (t - 1) % s.2.length
  let b := aesInverse keys (xorBytes s.1 (bigBytes 8 t) ++ s.2.getD i [])
  (b.take 8, s.2.set i (b.drop 8))

/-- The key unwrapped; none where the integrity value does not come out. -/
def keyUnwrap (kek wrapped : List Byte) : Option (List Byte) :=
  let blocks := pieces 8 wrapped.length (wrapped.drop 8)
  let r := ((List.range (6 * blocks.length)).map (· + 1)).reverse.foldl (unwrapStep (roundKeys kek)) (wrapped.take 8, blocks)
  if r.1 = List.replicate 8 0xA6 then some r.2.flatten else none

/-! ### GCM (R355) -/

/-- The product of GHASH: the bits of the second factor, from the most significant one. -/
def ghashMul : Nat → BitVec 128 → BitVec 128 → BitVec 128
  | 0, _, _ => 0
  | n + 1, x, y =>
    (if y.getMsbD 0 then x else 0) ^^^
      ghashMul n ((x >>> 1) ^^^ (if x.getLsbD 0 then 0xE1000000000000000000000000000000 else 0)) (y <<< 1)

/-- Zeros up to a multiple of 16 bytes. -/
def pad16 (bs : List Byte) : List Byte := bs ++ List.replicate ((16 - bs.length % 16) % 16) 0

/-- GHASH of whole blocks under the hash key. -/
def ghash (h : BitVec 128) (bs : List Byte) : BitVec 128 :=
  (pieces 16 bs.length bs).foldl (fun y b => ghashMul 128 (y ^^^ BitVec.ofNat 128 (fromBig b)) h) 0

/-- AES-256-GCM with an IV of 96 bits and a tag of 128: the ciphertext and the tag. -/
def gcmSeal (key iv aad text : List Byte) : List Byte × List Byte :=
  let keys := roundKeys key
  let h := BitVec.ofNat 128 (fromBig (aesBlock keys (List.replicate 16 0)))
  let counter := fun (i : Nat) => aesBlock keys (iv ++ bigBytes 4 (i + 1))
  let out := ((pieces 16 text.length text).zipIdx.map (fun b => xorBytes b.1 (counter (b.2 + 1)))).flatten
  let s := ghash h (pad16 aad ++ pad16 out ++ bigBytes 8 (8 * aad.length) ++ bigBytes 8 (8 * out.length))
  (out, xorBytes (bigBytes 16 s.toNat) (counter 0))

end Sys2Proof.Machine
end

