-- ==== Sys2Proof/Machine/Reg.lean ====
section
/-! DEFINITION. The device registers of R15: one constructor per register (R161's register blocks), its address, its
access masks and the register an address names. -/

namespace Sys2Proof.Machine

/-- The 16 register blocks, 1 MiB each from 0xFF_0000_0000 (R161, R196). -/
inductive Block | rst | pwr | cfg | par | trl | evr | ptr | tim | cel | fld | lnk | sto | hst | idn | tmx | cap
  deriving DecidableEq, Repr

/-- The device registers, in address order of their blocks. -/
inductive Reg
  /-- RST.CAUSE (R489) -/
  | rstCause
  /-- RST.SWRST (R489) -/
  | rstSwrst
  /-- RST.STAT (R489) -/
  | rstStat
  /-- RST.MWDCTL (R489) -/
  | rstMwdctl
  /-- RST.MWDKICK (R489) -/
  | rstMwdkick
  /-- PWR.PACE (R326) -/
  | pwrPace
  /-- PWR.PACECNT (R327) -/
  | pwrPacecnt
  /-- PWR.CCTL (R514) -/
  | pwrCctl
  /-- PWR.CSTAT (R514) -/
  | pwrCstat
  /-- PWR.HPSTAT (R514) -/
  | pwrHpstat
  /-- PWR.TEMP (R514) -/
  | pwrTemp (d : Nat)
  /-- PWR.VIN (R514) -/
  | pwrVin
  /-- PWR.PIN (R514) -/
  | pwrPin
  /-- PWR.CGRANT (R342) -/
  | pwrCgrant (c : Nat)
  /-- PWR.DOM (R514) -/
  | pwrDom (n : Nat)
  /-- CFG.BOOT (R490) -/
  | cfgBoot
  /-- CFG.INSTAR (R490) -/
  | cfgInstar
  /-- CFG.OTHER (R490) -/
  | cfgOther
  /-- CFG.SETG (R490) -/
  | cfgSetg
  /-- CFG.COMMIT (R490) -/
  | cfgCommit
  /-- CFG.FALLBACK (R490) -/
  | cfgFallback
  /-- CFG.QADDR (R490) -/
  | cfgQaddr
  /-- CFG.QCMD (R490) -/
  | cfgQcmd
  /-- CFG.QSTAT (R490) -/
  | cfgQstat
  /-- CFG.QBUF (R490) -/
  | cfgQbuf (i : Nat)
  /-- CFG.SPARE (R75) -/
  | cfgSpare (c : Nat)
  /-- CFG.MREP (R186) -/
  | cfgMrep (c : Nat)
  /-- CFG.ECCCNT (R187) -/
  | cfgEcccnt
  /-- PAR.LOCK (R408) -/
  | parLock
  /-- PAR.NS (R408) -/
  | parNs (n : Nat)
  /-- PAR.CLL (R408) -/
  | parCll (p : Nat)
  /-- PAR.CLH (R408) -/
  | parClh (p : Nat)
  /-- PAR.FLL (R408) -/
  | parFll (p : Nat)
  /-- PAR.FLH (R408) -/
  | parFlh (p : Nat)
  /-- PAR.OWN (R408) -/
  | parOwn (p : Nat)
  /-- PAR.QOS (R408) -/
  | parQos (p : Nat)
  /-- PAR.WAYS (R408) -/
  | parWays (p : Nat)
  /-- PAR.START (R408) -/
  | parStart (p : Nat)
  /-- PAR.DRB (R408) -/
  | parDrb (p : Nat) (i : Nat)
  /-- PAR.DRL (R408) -/
  | parDrl (p : Nat) (i : Nat)
  /-- PAR.MODE (R408) -/
  | parMode (p : Nat)
  /-- PAR.STAT (R408) -/
  | parStat (p : Nat)
  /-- PAR.CAUSE (R408) -/
  | parCause (p : Nat)
  /-- PAR.WDCTL (R408) -/
  | parWdctl (p : Nat)
  /-- PAR.WDKICK (R408) -/
  | parWdkick (p : Nat)
  /-- PAR.DTA (R408) -/
  | parDta (p : Nat)
  /-- PAR.DTB (R408) -/
  | parDtb (p : Nat)
  /-- TRL.MQOS (R406) -/
  | trlMqos (m : Nat)
  /-- TRL.SVC (R406) -/
  | trlSvc
  /-- TRL.SVCST (R406) -/
  | trlSvcst
  /-- TRL.OFFCL (R406) -/
  | trlOffcl
  /-- TRL.OFFCH (R406) -/
  | trlOffch
  /-- TRL.OFFFL (R406) -/
  | trlOfffl
  /-- TRL.OFFFH (R406) -/
  | trlOfffh
  /-- TRL.OFFX (R406) -/
  | trlOffx
  /-- TRL.MERR (R406) -/
  | trlMerr
  /-- TRL.MERA (R406) -/
  | trlMera
  /-- EVR.ROUTE (R308) -/
  | evrRoute (n : Nat)
  /-- EVR.TCTL (R308) -/
  | evrTctl (n : Nat)
  /-- EVR.TPER (R308) -/
  | evrTper (n : Nat)
  /-- EVR.ENT (R308) -/
  | evrEnt (e : Nat) (w : Nat)
  /-- EVR.EWLIM (R308) -/
  | evrEwlim (p : Nat)
  /-- EVR.RAISE (R308) -/
  | evrRaise (p : Nat)
  /-- EVR.DROP (R308) -/
  | evrDrop (p : Nat)
  /-- EVR.MDROP (R308) -/
  | evrMdrop
  /-- PTR.RB (R268) -/
  | ptrRb (n : Nat)
  /-- PTR.RL (R268) -/
  | ptrRl (n : Nat)
  /-- PTR.IXA (R268) -/
  | ptrIxa (n : Nat)
  /-- PTR.IXB (R268) -/
  | ptrIxb (n : Nat)
  /-- PTR.SHARE (R268) -/
  | ptrShare (r : Nat) (p : Nat)
  /-- PTR.RCOAL (R269) -/
  | ptrRcoal (r : Nat)
  /-- PTR.RPEND (R269) -/
  | ptrRpend (r : Nat)
  /-- PTR.PCOAL (R269) -/
  | ptrPcoal (p : Nat)
  /-- PTR.FPNT (R269) -/
  | ptrFpnt (p : Nat)
  /-- PTR.FVAL (R269) -/
  | ptrFval (p : Nat)
  /-- PTR.FCTL (R269) -/
  | ptrFctl (p : Nat)
  /-- PTR.FSTAT (R269) -/
  | ptrFstat (p : Nat)
  /-- PTR.FDROP (R269) -/
  | ptrFdrop (p : Nat)
  /-- PTR.SUBQ (R269) -/
  | ptrSubq (p : Nat) (r : Nat)
  /-- PTR.SUBUSE (R269) -/
  | ptrSubuse (p : Nat) (r : Nat)
  /-- TIM.NSL (R336) -/
  | timNsl
  /-- TIM.NSH (R336) -/
  | timNsh
  /-- TIM.CTL (R336) -/
  | timCtl
  /-- TIM.ADJ (R336) -/
  | timAdj
  /-- TIM.SETL (R336) -/
  | timSetl
  /-- TIM.SETH (R336) -/
  | timSeth
  /-- TIM.CMD (R336) -/
  | timCmd
  /-- TIM.STAT (R336) -/
  | timStat
  /-- TIM.CYCLE (R336) -/
  | timCycle (p : Nat)
  /-- TIM.PHASE (R336) -/
  | timPhase (p : Nat)
  /-- TIM.CSKIP (R336) -/
  | timCskip (p : Nat)
  /-- CEL.KCTL (R385) -/
  | celKctl
  /-- CEL.KSTAT (R385) -/
  | celKstat
  /-- CEL.KIN (R385) -/
  | celKin (i : Nat)
  /-- CEL.CTL (R385) -/
  | celCtl (p : Nat)
  /-- CEL.STAT (R385) -/
  | celStat (p : Nat)
  /-- CEL.VINL (R385) -/
  | celVinl (p : Nat)
  /-- CEL.VINH (R385) -/
  | celVinh (p : Nat)
  /-- CEL.QUOTA (R385) -/
  | celQuota (p : Nat)
  /-- CEL.USE (R385) -/
  | celUse (p : Nat)
  /-- CEL.GAPS (R385) -/
  | celGaps (p : Nat)
  /-- CEL.LOSTREC (R385) -/
  | celLostrec (p : Nat)
  /-- CEL.DVL (R385) -/
  | celDvl (p : Nat)
  /-- CEL.DVH (R385) -/
  | celDvh (p : Nat)
  /-- CEL.DSRC (R385) -/
  | celDsrc (p : Nat)
  /-- CEL.DENDL (R385) -/
  | celDendl (p : Nat)
  /-- CEL.DENDH (R385) -/
  | celDendh (p : Nat)
  /-- CEL.DSTAT (R385) -/
  | celDstat (p : Nat)
  /-- CEL.DVSL (R385) -/
  | celDvsl (p : Nat)
  /-- CEL.DVSH (R385) -/
  | celDvsh (p : Nat)
  /-- CEL.DLOC (R385) -/
  | celDloc (p : Nat)
  /-- FLD.LCTL (R428) -/
  | fldLctl (n : Nat)
  /-- FLD.LSTAT (R428) -/
  | fldLstat (n : Nat)
  /-- FLD.MACL (R428) -/
  | fldMacl (n : Nat)
  /-- FLD.MACH (R428) -/
  | fldMach (n : Nat)
  /-- FLD.WAKE (R428) -/
  | fldWake (n : Nat)
  /-- FLD.RXB (R428) -/
  | fldRxb (n : Nat)
  /-- FLD.RXH (R428) -/
  | fldRxh (n : Nat)
  /-- FLD.TXB (R428) -/
  | fldTxb (n : Nat)
  /-- FLD.TXH (R428) -/
  | fldTxh (n : Nat)
  /-- FLD.CNT (R428) -/
  | fldCnt (n : Nat) (k : Nat)
  /-- LNK.CTL (R440) -/
  | lnkCtl (m : Nat)
  /-- LNK.STAT (R440) -/
  | lnkStat (m : Nat)
  /-- LNK.RETRY (R440) -/
  | lnkRetry (m : Nat)
  /-- LNK.BADWIN (R440) -/
  | lnkBadwin (m : Nat)
  /-- LNK.CMD (R440) -/
  | lnkCmd
  /-- LNK.ID (R440) -/
  | lnkId
  /-- LNK.XWA (R440) -/
  | lnkXwa (j : Nat)
  /-- LNK.XWB (R440) -/
  | lnkXwb (j : Nat)
  /-- STO.PCTL (R434) -/
  | stoPctl (n : Nat)
  /-- STO.PSTAT (R434) -/
  | stoPstat (n : Nat) (s : Nat)
  /-- STO.ERR (R434) -/
  | stoErr (n : Nat) (s : Nat)
  /-- STO.NSREJ (R434) -/
  | stoNsrej
  /-- HST.CTL (R449) -/
  | hstCtl
  /-- HST.INT (R449) -/
  | hstInt
  /-- HST.INTSET (R449) -/
  | hstIntset
  /-- HST.DBSRC (R449) -/
  | hstDbsrc
  /-- HST.STAT (R449) -/
  | hstStat
  /-- IDN.SEG (R455) -/
  | idnSeg (s : Nat)
  /-- IDN.CMD (R455) -/
  | idnCmd
  /-- IDN.STAT (R455) -/
  | idnStat
  /-- IDN.ENTRY (R453) -/
  | idnEntry (i : Nat) (w : Nat)
  /-- TMX.SEL (R515) -/
  | tmxSel (k : Nat)
  /-- TMX.SCRUB (R515) -/
  | tmxScrub
  /-- TMX.STAT (R515) -/
  | tmxStat
  /-- TMX.SCRST (R515) -/
  | tmxScrst
  /-- CAP.UNITS (R5) -/
  | capUnits
  /-- CAP.SIZE (R6) -/
  | capSize
  deriving DecidableEq, Repr

/-- The block's number: bits [23:20] of its addresses (R161). -/
def Block.number : Block → Nat
  | .rst => 0
  | .pwr => 1
  | .cfg => 2
  | .par => 3
  | .trl => 4
  | .evr => 5
  | .ptr => 6
  | .tim => 7
  | .cel => 8
  | .fld => 9
  | .lnk => 10
  | .sto => 11
  | .hst => 12
  | .idn => 13
  | .tmx => 14
  | .cap => 15

/-- The block of a register. -/
def Reg.block : Reg → Block
  | .rstCause => .rst
  | .rstSwrst => .rst
  | .rstStat => .rst
  | .rstMwdctl => .rst
  | .rstMwdkick => .rst
  | .pwrPace => .pwr
  | .pwrPacecnt => .pwr
  | .pwrCctl => .pwr
  | .pwrCstat => .pwr
  | .pwrHpstat => .pwr
  | .pwrTemp _ => .pwr
  | .pwrVin => .pwr
  | .pwrPin => .pwr
  | .pwrCgrant _ => .pwr
  | .pwrDom _ => .pwr
  | .cfgBoot => .cfg
  | .cfgInstar => .cfg
  | .cfgOther => .cfg
  | .cfgSetg => .cfg
  | .cfgCommit => .cfg
  | .cfgFallback => .cfg
  | .cfgQaddr => .cfg
  | .cfgQcmd => .cfg
  | .cfgQstat => .cfg
  | .cfgQbuf _ => .cfg
  | .cfgSpare _ => .cfg
  | .cfgMrep _ => .cfg
  | .cfgEcccnt => .cfg
  | .parLock => .par
  | .parNs _ => .par
  | .parCll _ => .par
  | .parClh _ => .par
  | .parFll _ => .par
  | .parFlh _ => .par
  | .parOwn _ => .par
  | .parQos _ => .par
  | .parWays _ => .par
  | .parStart _ => .par
  | .parDrb _ _ => .par
  | .parDrl _ _ => .par
  | .parMode _ => .par
  | .parStat _ => .par
  | .parCause _ => .par
  | .parWdctl _ => .par
  | .parWdkick _ => .par
  | .parDta _ => .par
  | .parDtb _ => .par
  | .trlMqos _ => .trl
  | .trlSvc => .trl
  | .trlSvcst => .trl
  | .trlOffcl => .trl
  | .trlOffch => .trl
  | .trlOfffl => .trl
  | .trlOfffh => .trl
  | .trlOffx => .trl
  | .trlMerr => .trl
  | .trlMera => .trl
  | .evrRoute _ => .evr
  | .evrTctl _ => .evr
  | .evrTper _ => .evr
  | .evrEnt _ _ => .evr
  | .evrEwlim _ => .evr
  | .evrRaise _ => .evr
  | .evrDrop _ => .evr
  | .evrMdrop => .evr
  | .ptrRb _ => .ptr
  | .ptrRl _ => .ptr
  | .ptrIxa _ => .ptr
  | .ptrIxb _ => .ptr
  | .ptrShare _ _ => .ptr
  | .ptrRcoal _ => .ptr
  | .ptrRpend _ => .ptr
  | .ptrPcoal _ => .ptr
  | .ptrFpnt _ => .ptr
  | .ptrFval _ => .ptr
  | .ptrFctl _ => .ptr
  | .ptrFstat _ => .ptr
  | .ptrFdrop _ => .ptr
  | .ptrSubq _ _ => .ptr
  | .ptrSubuse _ _ => .ptr
  | .timNsl => .tim
  | .timNsh => .tim
  | .timCtl => .tim
  | .timAdj => .tim
  | .timSetl => .tim
  | .timSeth => .tim
  | .timCmd => .tim
  | .timStat => .tim
  | .timCycle _ => .tim
  | .timPhase _ => .tim
  | .timCskip _ => .tim
  | .celKctl => .cel
  | .celKstat => .cel
  | .celKin _ => .cel
  | .celCtl _ => .cel
  | .celStat _ => .cel
  | .celVinl _ => .cel
  | .celVinh _ => .cel
  | .celQuota _ => .cel
  | .celUse _ => .cel
  | .celGaps _ => .cel
  | .celLostrec _ => .cel
  | .celDvl _ => .cel
  | .celDvh _ => .cel
  | .celDsrc _ => .cel
  | .celDendl _ => .cel
  | .celDendh _ => .cel
  | .celDstat _ => .cel
  | .celDvsl _ => .cel
  | .celDvsh _ => .cel
  | .celDloc _ => .cel
  | .fldLctl _ => .fld
  | .fldLstat _ => .fld
  | .fldMacl _ => .fld
  | .fldMach _ => .fld
  | .fldWake _ => .fld
  | .fldRxb _ => .fld
  | .fldRxh _ => .fld
  | .fldTxb _ => .fld
  | .fldTxh _ => .fld
  | .fldCnt _ _ => .fld
  | .lnkCtl _ => .lnk
  | .lnkStat _ => .lnk
  | .lnkRetry _ => .lnk
  | .lnkBadwin _ => .lnk
  | .lnkCmd => .lnk
  | .lnkId => .lnk
  | .lnkXwa _ => .lnk
  | .lnkXwb _ => .lnk
  | .stoPctl _ => .sto
  | .stoPstat _ _ => .sto
  | .stoErr _ _ => .sto
  | .stoNsrej => .sto
  | .hstCtl => .hst
  | .hstInt => .hst
  | .hstIntset => .hst
  | .hstDbsrc => .hst
  | .hstStat => .hst
  | .idnSeg _ => .idn
  | .idnCmd => .idn
  | .idnStat => .idn
  | .idnEntry _ _ => .idn
  | .tmxSel _ => .tmx
  | .tmxScrub => .tmx
  | .tmxStat => .tmx
  | .tmxScrst => .tmx
  | .capUnits => .cap
  | .capSize => .cap

/-- The physical address of a register. -/
def Reg.addr : Reg → Nat
  | .rstCause => 0xFF00000000
  | .rstSwrst => 0xFF00000004
  | .rstStat => 0xFF00000008
  | .rstMwdctl => 0xFF0000000C
  | .rstMwdkick => 0xFF00000010
  | .pwrPace => 0xFF00100100
  | .pwrPacecnt => 0xFF00100104
  | .pwrCctl => 0xFF00100180
  | .pwrCstat => 0xFF00100184
  | .pwrHpstat => 0xFF00100188
  | .pwrTemp d => 0xFF00100190 + 0x4 * d
  | .pwrVin => 0xFF001001B0
  | .pwrPin => 0xFF001001B4
  | .pwrCgrant c => 0xFF00100200 + 0x4 * c
  | .pwrDom n => 0xFF00100400 + 0x4 * n
  | .cfgBoot => 0xFF00200000
  | .cfgInstar => 0xFF00200004
  | .cfgOther => 0xFF00200008
  | .cfgSetg => 0xFF0020000C
  | .cfgCommit => 0xFF00200010
  | .cfgFallback => 0xFF00200014
  | .cfgQaddr => 0xFF00200020
  | .cfgQcmd => 0xFF00200024
  | .cfgQstat => 0xFF00200028
  | .cfgQbuf i => 0xFF00200100 + 0x4 * i
  | .cfgSpare c => 0xFF00208000 + 0x4 * c
  | .cfgMrep c => 0xFF00208100 + 0x4 * c
  | .cfgEcccnt => 0xFF00208200
  | .parLock => 0xFF00300000
  | .parNs n => 0xFF00300100 + 0x4 * n
  | .parCll p => 0xFF00310000 + 0x100 * p
  | .parClh p => 0xFF00310004 + 0x100 * p
  | .parFll p => 0xFF00310008 + 0x100 * p
  | .parFlh p => 0xFF0031000C + 0x100 * p
  | .parOwn p => 0xFF00310010 + 0x100 * p
  | .parQos p => 0xFF00310014 + 0x100 * p
  | .parWays p => 0xFF00310018 + 0x100 * p
  | .parStart p => 0xFF0031001C + 0x100 * p
  | .parDrb p i => 0xFF00310020 + 0x100 * p + 0x8 * i
  | .parDrl p i => 0xFF00310024 + 0x100 * p + 0x8 * i
  | .parMode p => 0xFF00310040 + 0x100 * p
  | .parStat p => 0xFF00310044 + 0x100 * p
  | .parCause p => 0xFF00310048 + 0x100 * p
  | .parWdctl p => 0xFF0031004C + 0x100 * p
  | .parWdkick p => 0xFF00310050 + 0x100 * p
  | .parDta p => 0xFF00310054 + 0x100 * p
  | .parDtb p => 0xFF00310058 + 0x100 * p
  | .trlMqos m => 0xFF00400000 + 0x4 * m
  | .trlSvc => 0xFF00401000
  | .trlSvcst => 0xFF00401004
  | .trlOffcl => 0xFF00401010
  | .trlOffch => 0xFF00401014
  | .trlOfffl => 0xFF00401018
  | .trlOfffh => 0xFF0040101C
  | .trlOffx => 0xFF00401020
  | .trlMerr => 0xFF00401030
  | .trlMera => 0xFF00401034
  | .evrRoute n => 0xFF00500000 + 0x4 * n
  | .evrTctl n => 0xFF00504000 + 0x8 * n
  | .evrTper n => 0xFF00504004 + 0x8 * n
  | .evrEnt e w => 0xFF00508000 + 0x20 * e + 0x4 * w
  | .evrEwlim p => 0xFF00510000 + 0x100 * p
  | .evrRaise p => 0xFF00510004 + 0x100 * p
  | .evrDrop p => 0xFF00510008 + 0x100 * p
  | .evrMdrop => 0xFF00511000
  | .ptrRb n => 0xFF00600000 + 0x8 * n
  | .ptrRl n => 0xFF00600004 + 0x8 * n
  | .ptrIxa n => 0xFF00600400 + 0x8 * n
  | .ptrIxb n => 0xFF00600404 + 0x8 * n
  | .ptrShare r p => 0xFF00601000 + 0x40 * r + 0x4 * p
  | .ptrRcoal r => 0xFF00602000 + 0x10 * r
  | .ptrRpend r => 0xFF00602004 + 0x10 * r
  | .ptrPcoal p => 0xFF00610000 + 0x100 * p
  | .ptrFpnt p => 0xFF00610004 + 0x100 * p
  | .ptrFval p => 0xFF00610008 + 0x100 * p
  | .ptrFctl p => 0xFF0061000C + 0x100 * p
  | .ptrFstat p => 0xFF00610010 + 0x100 * p
  | .ptrFdrop p => 0xFF00610014 + 0x100 * p
  | .ptrSubq p r => 0xFF00610020 + 0x100 * p + 0x4 * r
  | .ptrSubuse p r => 0xFF00610030 + 0x100 * p + 0x4 * r
  | .timNsl => 0xFF00700000
  | .timNsh => 0xFF00700004
  | .timCtl => 0xFF00700008
  | .timAdj => 0xFF0070000C
  | .timSetl => 0xFF00700010
  | .timSeth => 0xFF00700014
  | .timCmd => 0xFF00700018
  | .timStat => 0xFF0070001C
  | .timCycle p => 0xFF00710000 + 0x10 * p
  | .timPhase p => 0xFF00710004 + 0x10 * p
  | .timCskip p => 0xFF00710008 + 0x10 * p
  | .celKctl => 0xFF00800000
  | .celKstat => 0xFF00800004
  | .celKin i => 0xFF00800010 + 0x4 * i
  | .celCtl p => 0xFF00810000 + 0x100 * p
  | .celStat p => 0xFF00810004 + 0x100 * p
  | .celVinl p => 0xFF00810008 + 0x100 * p
  | .celVinh p => 0xFF0081000C + 0x100 * p
  | .celQuota p => 0xFF00810010 + 0x100 * p
  | .celUse p => 0xFF00810014 + 0x100 * p
  | .celGaps p => 0xFF00810018 + 0x100 * p
  | .celLostrec p => 0xFF0081001C + 0x100 * p
  | .celDvl p => 0xFF00810020 + 0x100 * p
  | .celDvh p => 0xFF00810024 + 0x100 * p
  | .celDsrc p => 0xFF00810028 + 0x100 * p
  | .celDendl p => 0xFF0081002C + 0x100 * p
  | .celDendh p => 0xFF00810030 + 0x100 * p
  | .celDstat p => 0xFF00810040 + 0x100 * p
  | .celDvsl p => 0xFF00810044 + 0x100 * p
  | .celDvsh p => 0xFF00810048 + 0x100 * p
  | .celDloc p => 0xFF0081004C + 0x100 * p
  | .fldLctl n => 0xFF00900000 + 0x400 * n
  | .fldLstat n => 0xFF00900004 + 0x400 * n
  | .fldMacl n => 0xFF00900008 + 0x400 * n
  | .fldMach n => 0xFF0090000C + 0x400 * n
  | .fldWake n => 0xFF00900010 + 0x400 * n
  | .fldRxb n => 0xFF00900020 + 0x400 * n
  | .fldRxh n => 0xFF00900024 + 0x400 * n
  | .fldTxb n => 0xFF00900028 + 0x400 * n
  | .fldTxh n => 0xFF0090002C + 0x400 * n
  | .fldCnt n k => 0xFF00900040 + 0x400 * n + 0x4 * k
  | .lnkCtl m => 0xFF00A00000 + 0x40 * m
  | .lnkStat m => 0xFF00A00004 + 0x40 * m
  | .lnkRetry m => 0xFF00A00008 + 0x40 * m
  | .lnkBadwin m => 0xFF00A0000C + 0x40 * m
  | .lnkCmd => 0xFF00A01000
  | .lnkId => 0xFF00A01004
  | .lnkXwa j => 0xFF00A02000 + 0x8 * j
  | .lnkXwb j => 0xFF00A02004 + 0x8 * j
  | .stoPctl n => 0xFF00B00000 + 0x4 * n
  | .stoPstat n s => 0xFF00B00010 + 0x8 * n + 0x4 * s
  | .stoErr n s => 0xFF00B00030 + 0x8 * n + 0x4 * s
  | .stoNsrej => 0xFF00B00040
  | .hstCtl => 0xFF00C00000
  | .hstInt => 0xFF00C00004
  | .hstIntset => 0xFF00C00008
  | .hstDbsrc => 0xFF00C0000C
  | .hstStat => 0xFF00C00010
  | .idnSeg s => 0xFF00D00000 + 0x4 * s
  | .idnCmd => 0xFF00D00040
  | .idnStat => 0xFF00D00044
  | .idnEntry i w => 0xFF00D10000 + 0x100 * i + 0x4 * w
  | .tmxSel k => 0xFF00E00000 + 0x4 * k
  | .tmxScrub => 0xFF00E00040
  | .tmxStat => 0xFF00E00044
  | .tmxScrst => 0xFF00E00048
  | .capUnits => 0xFF00F00000
  | .capSize => 0xFF00F00004

/-- Are the indices of a register in range? -/
def Reg.wf : Reg → Bool
  | .rstCause => true
  | .rstSwrst => true
  | .rstStat => true
  | .rstMwdctl => true
  | .rstMwdkick => true
  | .pwrPace => true
  | .pwrPacecnt => true
  | .pwrCctl => true
  | .pwrCstat => true
  | .pwrHpstat => true
  | .pwrTemp d => decide (d < 5)
  | .pwrVin => true
  | .pwrPin => true
  | .pwrCgrant c => decide (c < 64)
  | .pwrDom n => decide (n < 84)
  | .cfgBoot => true
  | .cfgInstar => true
  | .cfgOther => true
  | .cfgSetg => true
  | .cfgCommit => true
  | .cfgFallback => true
  | .cfgQaddr => true
  | .cfgQcmd => true
  | .cfgQstat => true
  | .cfgQbuf i => decide (i < 64)
  | .cfgSpare c => decide (c < 64)
  | .cfgMrep c => decide (c < 64)
  | .cfgEcccnt => true
  | .parLock => true
  | .parNs n => decide (n < 128)
  | .parCll p => decide (p < 16)
  | .parClh p => decide (p < 16)
  | .parFll p => decide (p < 16)
  | .parFlh p => decide (p < 16)
  | .parOwn p => decide (p < 16)
  | .parQos p => decide (p < 16)
  | .parWays p => decide (p < 16)
  | .parStart p => decide (p < 16)
  | .parDrb p i => decide (p < 16) && decide (i < 4)
  | .parDrl p i => decide (p < 16) && decide (i < 4)
  | .parMode p => decide (p < 16)
  | .parStat p => decide (p < 16)
  | .parCause p => decide (p < 16)
  | .parWdctl p => decide (p < 16)
  | .parWdkick p => decide (p < 16)
  | .parDta p => decide (p < 16)
  | .parDtb p => decide (p < 16)
  | .trlMqos m => decide (68 ≤ m ∧ m ≤ 131 ∨ 134 ≤ m ∧ m ≤ 150)
  | .trlSvc => true
  | .trlSvcst => true
  | .trlOffcl => true
  | .trlOffch => true
  | .trlOfffl => true
  | .trlOfffh => true
  | .trlOffx => true
  | .trlMerr => true
  | .trlMera => true
  | .evrRoute n => decide (n < 4096)
  | .evrTctl n => decide (n < 1024)
  | .evrTper n => decide (n < 1024)
  | .evrEnt e w => decide (e < 1024) && decide (w < 6)
  | .evrEwlim p => decide (p < 16)
  | .evrRaise p => decide (p < 16)
  | .evrDrop p => decide (p < 16)
  | .evrMdrop => true
  | .ptrRb n => decide (n < 64)
  | .ptrRl n => decide (n < 64)
  | .ptrIxa n => decide (n < 256)
  | .ptrIxb n => decide (n < 256)
  | .ptrShare r p => decide (r < 4) && decide (p < 16)
  | .ptrRcoal r => decide (r < 4)
  | .ptrRpend r => decide (r < 4)
  | .ptrPcoal p => decide (p < 16)
  | .ptrFpnt p => decide (p < 16)
  | .ptrFval p => decide (p < 16)
  | .ptrFctl p => decide (p < 16)
  | .ptrFstat p => decide (p < 16)
  | .ptrFdrop p => decide (p < 16)
  | .ptrSubq p r => decide (p < 16) && decide (r < 4)
  | .ptrSubuse p r => decide (p < 16) && decide (r < 4)
  | .timNsl => true
  | .timNsh => true
  | .timCtl => true
  | .timAdj => true
  | .timSetl => true
  | .timSeth => true
  | .timCmd => true
  | .timStat => true
  | .timCycle p => decide (p < 16)
  | .timPhase p => decide (p < 16)
  | .timCskip p => decide (p < 16)
  | .celKctl => true
  | .celKstat => true
  | .celKin i => decide (i < 8)
  | .celCtl p => decide (p < 16)
  | .celStat p => decide (p < 16)
  | .celVinl p => decide (p < 16)
  | .celVinh p => decide (p < 16)
  | .celQuota p => decide (p < 16)
  | .celUse p => decide (p < 16)
  | .celGaps p => decide (p < 16)
  | .celLostrec p => decide (p < 16)
  | .celDvl p => decide (p < 16)
  | .celDvh p => decide (p < 16)
  | .celDsrc p => decide (p < 16)
  | .celDendl p => decide (p < 16)
  | .celDendh p => decide (p < 16)
  | .celDstat p => decide (p < 16)
  | .celDvsl p => decide (p < 16)
  | .celDvsh p => decide (p < 16)
  | .celDloc p => decide (p < 16)
  | .fldLctl n => decide (n < 64)
  | .fldLstat n => decide (n < 64)
  | .fldMacl n => decide (n < 64)
  | .fldMach n => decide (n < 64)
  | .fldWake n => decide (n < 64)
  | .fldRxb n => decide (n < 64)
  | .fldRxh n => decide (n < 64)
  | .fldTxb n => decide (n < 64)
  | .fldTxh n => decide (n < 64)
  | .fldCnt n k => decide (n < 64) && decide (k < 12)
  | .lnkCtl m => decide (m < 16)
  | .lnkStat m => decide (m < 16)
  | .lnkRetry m => decide (m < 16)
  | .lnkBadwin m => decide (m < 16)
  | .lnkCmd => true
  | .lnkId => true
  | .lnkXwa j => decide (j < 64)
  | .lnkXwb j => decide (j < 64)
  | .stoPctl n => decide (n < 2)
  | .stoPstat n s => decide (n < 2) && decide (s < 2)
  | .stoErr n s => decide (n < 2) && decide (s < 2)
  | .stoNsrej => true
  | .hstCtl => true
  | .hstInt => true
  | .hstIntset => true
  | .hstDbsrc => true
  | .hstStat => true
  | .idnSeg s => decide (s < 8)
  | .idnCmd => true
  | .idnStat => true
  | .idnEntry i w => decide (i < 2112) && decide (w < 64)
  | .tmxSel k => decide (k < 8)
  | .tmxScrub => true
  | .tmxStat => true
  | .tmxScrst => true
  | .capUnits => true
  | .capSize => true

/-- The access masks of a register (R15): bits that read back what is written, bits locked after Configure,
bits cleared by writing 1, bits cleared by a read, bits that a write stores and no read shows. -/
structure Access where
  rw : Word := 0
  rwl : Word := 0
  w1c : Word := 0
  rc : Word := 0
  hidden : Word := 0
  deriving DecidableEq, Repr

/-- The access masks of each register. -/
def Reg.access : Reg → Access
  | .rstCause => { w1c := 0x3FFFFF }
  | .rstSwrst => {}
  | .rstStat => {}
  | .rstMwdctl => { rw := 0x8000FFFF }
  | .rstMwdkick => {}
  | .pwrPace => { w1c := 0x100 }
  | .pwrPacecnt => { rc := 0xFFFFFFFF }
  | .pwrCctl => { rwl := 0xFFFF0000 }
  | .pwrCstat => { w1c := 0x2 }
  | .pwrHpstat => { w1c := 0x20 }
  | .pwrTemp _ => {}
  | .pwrVin => {}
  | .pwrPin => {}
  | .pwrCgrant _ => {}
  | .pwrDom _ => { rw := 0xFF00 }
  | .cfgBoot => {}
  | .cfgInstar => {}
  | .cfgOther => {}
  | .cfgSetg => {}
  | .cfgCommit => {}
  | .cfgFallback => {}
  | .cfgQaddr => { rw := 0xFFFFFFFF }
  | .cfgQcmd => {}
  | .cfgQstat => {}
  | .cfgQbuf _ => { rw := 0xFFFFFFFF }
  | .cfgSpare _ => {}
  | .cfgMrep _ => {}
  | .cfgEcccnt => { rc := 0xFFFFFFFF }
  | .parLock => {}
  | .parNs _ => { rwl := 0x8F8F8F8F }
  | .parCll _ => { rwl := 0xFFFFFFFF }
  | .parClh _ => { rwl := 0xFFFFFFFF }
  | .parFll _ => { rwl := 0xFFFFFFFF }
  | .parFlh _ => { rwl := 0xFFFFFFFF }
  | .parOwn _ => { rwl := 0x8001FFFF }
  | .parQos _ => { rwl := 0x3FFF }
  | .parWays _ => { rwl := 0xFFFF }
  | .parStart _ => { rwl := 0x7 }
  | .parDrb _ _ => { rwl := 0xFFF }
  | .parDrl _ _ => { rwl := 0x80000FFF }
  | .parMode _ => {}
  | .parStat _ => {}
  | .parCause _ => { w1c := 0x3F }
  | .parWdctl _ => { rw := 0x8000FFFF }
  | .parWdkick _ => {}
  | .parDta _ => {}
  | .parDtb _ => { w1c := 0x80000000 }
  | .trlMqos _ => { rwl := 0xF }
  | .trlSvc => {}
  | .trlSvcst => {}
  | .trlOffcl => {}
  | .trlOffch => {}
  | .trlOfffl => {}
  | .trlOfffh => {}
  | .trlOffx => {}
  | .trlMerr => { w1c := 0x80000000 }
  | .trlMera => {}
  | .evrRoute _ => { rw := 0x7FC03FF, rwl := 0xF8000000 }
  | .evrTctl _ => { rw := 0x3, rwl := 0xF8000000 }
  | .evrTper _ => { rw := 0xFFFFFFFF }
  | .evrEnt _ _ => { rw := 0xFFFFFFFF }
  | .evrEwlim _ => { rw := 0xFFFFFF }
  | .evrRaise _ => {}
  | .evrDrop _ => { rc := 0xFFFFFFFF }
  | .evrMdrop => { rc := 0xFFFFFFFF }
  | .ptrRb _ => { rwl := 0x1FFF }
  | .ptrRl _ => { rwl := 0x83F01FFF }
  | .ptrIxa _ => { rwl := 0x1FFFFFF }
  | .ptrIxb _ => { rwl := 0x800FFFFF }
  | .ptrShare _ _ => { rwl := 0xFF }
  | .ptrRcoal _ => { rc := 0xFFFFFFFF }
  | .ptrRpend _ => {}
  | .ptrPcoal _ => { rc := 0xFFFFFFFF }
  | .ptrFpnt _ => { rw := 0x1FFFFFF }
  | .ptrFval _ => { rw := 0xFFFFFFFF }
  | .ptrFctl _ => {}
  | .ptrFstat _ => {}
  | .ptrFdrop _ => { rc := 0xFFFFFFFF }
  | .ptrSubq _ _ => {}
  | .ptrSubuse _ _ => {}
  | .timNsl => {}
  | .timNsh => {}
  | .timCtl => { rw := 0x3 }
  | .timAdj => { rw := 0xFFFFFFFF }
  | .timSetl => { rw := 0xFFFFFFFF }
  | .timSeth => { rw := 0xFFFFFFFF }
  | .timCmd => {}
  | .timStat => { w1c := 0x2 }
  | .timCycle _ => { rwl := 0xFFFFFF }
  | .timPhase _ => { rwl := 0xFFFFFF }
  | .timCskip _ => { rc := 0xFFFFFFFF }
  | .celKctl => {}
  | .celKstat => {}
  | .celKin _ => { hidden := 0xFFFFFFFF }
  | .celCtl _ => { rw := 0x1, rwl := 0xC }
  | .celStat _ => {}
  | .celVinl _ => {}
  | .celVinh _ => {}
  | .celQuota _ => {}
  | .celUse _ => {}
  | .celGaps _ => { rc := 0xFFFFFFFF }
  | .celLostrec _ => { rc := 0xFFFFFFFF }
  | .celDvl _ => { rw := 0xFFFFFFFF }
  | .celDvh _ => { rw := 0xFFFFFFFF }
  | .celDsrc _ => { rw := 0xFFFFF0F }
  | .celDendl _ => { rw := 0xFFFFFFFF }
  | .celDendh _ => { rw := 0xFFFFFFFF }
  | .celDstat _ => {}
  | .celDvsl _ => {}
  | .celDvsh _ => {}
  | .celDloc _ => {}
  | .fldLctl _ => { rwl := 0xFF }
  | .fldLstat _ => {}
  | .fldMacl _ => { rwl := 0xFFFFFFFF }
  | .fldMach _ => { rwl := 0xFFFF }
  | .fldWake _ => { rw := 0xFFFFFFFF }
  | .fldRxb _ => { rw := 0xFFFFFFFF }
  | .fldRxh _ => { rw := 0xFFFF0000 }
  | .fldTxb _ => { rw := 0xFFFFFFFF }
  | .fldTxh _ => { rw := 0xFFFF0000 }
  | .fldCnt _ _ => { rc := 0xFFFFFFFF }
  | .lnkCtl _ => { rwl := 0x3F }
  | .lnkStat _ => {}
  | .lnkRetry _ => { rc := 0xFFFFFFFF }
  | .lnkBadwin _ => { rc := 0xFFFFFFFF }
  | .lnkCmd => {}
  | .lnkId => { rwl := 0xF }
  | .lnkXwa _ => { rwl := 0xC1FFFFFF }
  | .lnkXwb _ => { rwl := 0x3FFFFFF }
  | .stoPctl _ => { rwl := 0x7 }
  | .stoPstat _ _ => {}
  | .stoErr _ _ => { rc := 0xFFFFFFFF }
  | .stoNsrej => { rc := 0xFFFFFFFF }
  | .hstCtl => { rw := 0x2, rwl := 0x1 }
  | .hstInt => { w1c := 0xFFFF }
  | .hstIntset => {}
  | .hstDbsrc => { rc := 0xFFFF }
  | .hstStat => { rc := 0xFFFFFFFF }
  | .idnSeg _ => { rwl := 0xF3 }
  | .idnCmd => {}
  | .idnStat => {}
  | .idnEntry _ _ => {}
  | .tmxSel _ => { rw := 0x80007FFF }
  | .tmxScrub => {}
  | .tmxStat => { w1c := 0xFFFF }
  | .tmxScrst => { w1c := 0x1 }
  | .capUnits => {}
  | .capSize => {}

/-- The index of an offset in an array of registers from `base`. -/
def indexAt (off base stride count : Nat) : Option Nat :=
  if base ≤ off ∧ (off - base) % stride = 0 ∧ (off - base) / stride < count then some ((off - base) / stride) else none

/-- The two indices of an offset in an array of arrays of registers from `base`. -/
def indexAt2 (off base s1 c1 s2 c2 : Nat) : Option (Nat × Nat) :=
  if base ≤ off ∧ (off - base) / s1 < c1 then
    (indexAt ((off - base) % s1) 0 s2 c2).map (fun j => ((off - base) / s1, j))
  else none

/-- The register at an offset of the RST block. -/
def Reg.ofRst (o : Nat) : Option Reg :=
  (if o = 0x0 then some .rstCause else none) <|>
  (if o = 0x4 then some .rstSwrst else none) <|>
  (if o = 0x8 then some .rstStat else none) <|>
  (if o = 0xC then some .rstMwdctl else none) <|>
  (if o = 0x10 then some .rstMwdkick else none)

/-- The register at an offset of the PWR block. -/
def Reg.ofPwr (o : Nat) : Option Reg :=
  (if o = 0x100 then some .pwrPace else none) <|>
  (if o = 0x104 then some .pwrPacecnt else none) <|>
  (if o = 0x180 then some .pwrCctl else none) <|>
  (if o = 0x184 then some .pwrCstat else none) <|>
  (if o = 0x188 then some .pwrHpstat else none) <|>
  ((indexAt o 0x190 0x4 5).map .pwrTemp) <|>
  (if o = 0x1B0 then some .pwrVin else none) <|>
  (if o = 0x1B4 then some .pwrPin else none) <|>
  ((indexAt o 0x200 0x4 64).map .pwrCgrant) <|>
  ((indexAt o 0x400 0x4 84).map .pwrDom)

/-- The register at an offset of the CFG block. -/
def Reg.ofCfg (o : Nat) : Option Reg :=
  (if o = 0x0 then some .cfgBoot else none) <|>
  (if o = 0x4 then some .cfgInstar else none) <|>
  (if o = 0x8 then some .cfgOther else none) <|>
  (if o = 0xC then some .cfgSetg else none) <|>
  (if o = 0x10 then some .cfgCommit else none) <|>
  (if o = 0x14 then some .cfgFallback else none) <|>
  (if o = 0x20 then some .cfgQaddr else none) <|>
  (if o = 0x24 then some .cfgQcmd else none) <|>
  (if o = 0x28 then some .cfgQstat else none) <|>
  ((indexAt o 0x100 0x4 64).map .cfgQbuf) <|>
  ((indexAt o 0x8000 0x4 64).map .cfgSpare) <|>
  ((indexAt o 0x8100 0x4 64).map .cfgMrep) <|>
  (if o = 0x8200 then some .cfgEcccnt else none)

/-- The register at an offset of the PAR block. -/
def Reg.ofPar (o : Nat) : Option Reg :=
  (if o = 0x0 then some .parLock else none) <|>
  ((indexAt o 0x100 0x4 128).map .parNs) <|>
  ((indexAt o 0x10000 0x100 16).map .parCll) <|>
  ((indexAt o 0x10004 0x100 16).map .parClh) <|>
  ((indexAt o 0x10008 0x100 16).map .parFll) <|>
  ((indexAt o 0x1000C 0x100 16).map .parFlh) <|>
  ((indexAt o 0x10010 0x100 16).map .parOwn) <|>
  ((indexAt o 0x10014 0x100 16).map .parQos) <|>
  ((indexAt o 0x10018 0x100 16).map .parWays) <|>
  ((indexAt o 0x1001C 0x100 16).map .parStart) <|>
  ((indexAt2 o 0x10020 0x100 16 0x8 4).map (fun x => .parDrb x.1 x.2)) <|>
  ((indexAt2 o 0x10024 0x100 16 0x8 4).map (fun x => .parDrl x.1 x.2)) <|>
  ((indexAt o 0x10040 0x100 16).map .parMode) <|>
  ((indexAt o 0x10044 0x100 16).map .parStat) <|>
  ((indexAt o 0x10048 0x100 16).map .parCause) <|>
  ((indexAt o 0x1004C 0x100 16).map .parWdctl) <|>
  ((indexAt o 0x10050 0x100 16).map .parWdkick) <|>
  ((indexAt o 0x10054 0x100 16).map .parDta) <|>
  ((indexAt o 0x10058 0x100 16).map .parDtb)

/-- The register at an offset of the TRL block. -/
def Reg.ofTrl (o : Nat) : Option Reg :=
  (((indexAt o 0 4 151).filter (fun m => decide (68 ≤ m ∧ m ≤ 131 ∨ 134 ≤ m ∧ m ≤ 150))).map .trlMqos) <|>
  (if o = 0x1000 then some .trlSvc else none) <|>
  (if o = 0x1004 then some .trlSvcst else none) <|>
  (if o = 0x1010 then some .trlOffcl else none) <|>
  (if o = 0x1014 then some .trlOffch else none) <|>
  (if o = 0x1018 then some .trlOfffl else none) <|>
  (if o = 0x101C then some .trlOfffh else none) <|>
  (if o = 0x1020 then some .trlOffx else none) <|>
  (if o = 0x1030 then some .trlMerr else none) <|>
  (if o = 0x1034 then some .trlMera else none)

/-- The register at an offset of the EVR block. -/
def Reg.ofEvr (o : Nat) : Option Reg :=
  ((indexAt o 0x0 0x4 4096).map .evrRoute) <|>
  ((indexAt o 0x4000 0x8 1024).map .evrTctl) <|>
  ((indexAt o 0x4004 0x8 1024).map .evrTper) <|>
  ((indexAt2 o 0x8000 0x20 1024 0x4 6).map (fun x => .evrEnt x.1 x.2)) <|>
  ((indexAt o 0x10000 0x100 16).map .evrEwlim) <|>
  ((indexAt o 0x10004 0x100 16).map .evrRaise) <|>
  ((indexAt o 0x10008 0x100 16).map .evrDrop) <|>
  (if o = 0x11000 then some .evrMdrop else none)

/-- The register at an offset of the PTR block. -/
def Reg.ofPtr (o : Nat) : Option Reg :=
  ((indexAt o 0x0 0x8 64).map .ptrRb) <|>
  ((indexAt o 0x4 0x8 64).map .ptrRl) <|>
  ((indexAt o 0x400 0x8 256).map .ptrIxa) <|>
  ((indexAt o 0x404 0x8 256).map .ptrIxb) <|>
  ((indexAt2 o 0x1000 0x40 4 0x4 16).map (fun x => .ptrShare x.1 x.2)) <|>
  ((indexAt o 0x2000 0x10 4).map .ptrRcoal) <|>
  ((indexAt o 0x2004 0x10 4).map .ptrRpend) <|>
  ((indexAt o 0x10000 0x100 16).map .ptrPcoal) <|>
  ((indexAt o 0x10004 0x100 16).map .ptrFpnt) <|>
  ((indexAt o 0x10008 0x100 16).map .ptrFval) <|>
  ((indexAt o 0x1000C 0x100 16).map .ptrFctl) <|>
  ((indexAt o 0x10010 0x100 16).map .ptrFstat) <|>
  ((indexAt o 0x10014 0x100 16).map .ptrFdrop) <|>
  ((indexAt2 o 0x10020 0x100 16 0x4 4).map (fun x => .ptrSubq x.1 x.2)) <|>
  ((indexAt2 o 0x10030 0x100 16 0x4 4).map (fun x => .ptrSubuse x.1 x.2))

/-- The register at an offset of the TIM block. -/
def Reg.ofTim (o : Nat) : Option Reg :=
  (if o = 0x0 then some .timNsl else none) <|>
  (if o = 0x4 then some .timNsh else none) <|>
  (if o = 0x8 then some .timCtl else none) <|>
  (if o = 0xC then some .timAdj else none) <|>
  (if o = 0x10 then some .timSetl else none) <|>
  (if o = 0x14 then some .timSeth else none) <|>
  (if o = 0x18 then some .timCmd else none) <|>
  (if o = 0x1C then some .timStat else none) <|>
  ((indexAt o 0x10000 0x10 16).map .timCycle) <|>
  ((indexAt o 0x10004 0x10 16).map .timPhase) <|>
  ((indexAt o 0x10008 0x10 16).map .timCskip)

/-- The register at an offset of the CEL block. -/
def Reg.ofCel (o : Nat) : Option Reg :=
  (if o = 0x0 then some .celKctl else none) <|>
  (if o = 0x4 then some .celKstat else none) <|>
  ((indexAt o 0x10 0x4 8).map .celKin) <|>
  ((indexAt o 0x10000 0x100 16).map .celCtl) <|>
  ((indexAt o 0x10004 0x100 16).map .celStat) <|>
  ((indexAt o 0x10008 0x100 16).map .celVinl) <|>
  ((indexAt o 0x1000C 0x100 16).map .celVinh) <|>
  ((indexAt o 0x10010 0x100 16).map .celQuota) <|>
  ((indexAt o 0x10014 0x100 16).map .celUse) <|>
  ((indexAt o 0x10018 0x100 16).map .celGaps) <|>
  ((indexAt o 0x1001C 0x100 16).map .celLostrec) <|>
  ((indexAt o 0x10020 0x100 16).map .celDvl) <|>
  ((indexAt o 0x10024 0x100 16).map .celDvh) <|>
  ((indexAt o 0x10028 0x100 16).map .celDsrc) <|>
  ((indexAt o 0x1002C 0x100 16).map .celDendl) <|>
  ((indexAt o 0x10030 0x100 16).map .celDendh) <|>
  ((indexAt o 0x10040 0x100 16).map .celDstat) <|>
  ((indexAt o 0x10044 0x100 16).map .celDvsl) <|>
  ((indexAt o 0x10048 0x100 16).map .celDvsh) <|>
  ((indexAt o 0x1004C 0x100 16).map .celDloc)

/-- The register at an offset of the FLD block. -/
def Reg.ofFld (o : Nat) : Option Reg :=
  ((indexAt o 0x0 0x400 64).map .fldLctl) <|>
  ((indexAt o 0x4 0x400 64).map .fldLstat) <|>
  ((indexAt o 0x8 0x400 64).map .fldMacl) <|>
  ((indexAt o 0xC 0x400 64).map .fldMach) <|>
  ((indexAt o 0x10 0x400 64).map .fldWake) <|>
  ((indexAt o 0x20 0x400 64).map .fldRxb) <|>
  ((indexAt o 0x24 0x400 64).map .fldRxh) <|>
  ((indexAt o 0x28 0x400 64).map .fldTxb) <|>
  ((indexAt o 0x2C 0x400 64).map .fldTxh) <|>
  ((indexAt2 o 0x40 0x400 64 0x4 12).map (fun x => .fldCnt x.1 x.2))

/-- The register at an offset of the LNK block. -/
def Reg.ofLnk (o : Nat) : Option Reg :=
  ((indexAt o 0x0 0x40 16).map .lnkCtl) <|>
  ((indexAt o 0x4 0x40 16).map .lnkStat) <|>
  ((indexAt o 0x8 0x40 16).map .lnkRetry) <|>
  ((indexAt o 0xC 0x40 16).map .lnkBadwin) <|>
  (if o = 0x1000 then some .lnkCmd else none) <|>
  (if o = 0x1004 then some .lnkId else none) <|>
  ((indexAt o 0x2000 0x8 64).map .lnkXwa) <|>
  ((indexAt o 0x2004 0x8 64).map .lnkXwb)

/-- The register at an offset of the STO block. -/
def Reg.ofSto (o : Nat) : Option Reg :=
  ((indexAt o 0x0 0x4 2).map .stoPctl) <|>
  ((indexAt2 o 0x10 0x8 2 0x4 2).map (fun x => .stoPstat x.1 x.2)) <|>
  ((indexAt2 o 0x30 0x8 2 0x4 2).map (fun x => .stoErr x.1 x.2)) <|>
  (if o = 0x40 then some .stoNsrej else none)

/-- The register at an offset of the HST block. -/
def Reg.ofHst (o : Nat) : Option Reg :=
  (if o = 0x0 then some .hstCtl else none) <|>
  (if o = 0x4 then some .hstInt else none) <|>
  (if o = 0x8 then some .hstIntset else none) <|>
  (if o = 0xC then some .hstDbsrc else none) <|>
  (if o = 0x10 then some .hstStat else none)

/-- The register at an offset of the IDN block. -/
def Reg.ofIdn (o : Nat) : Option Reg :=
  ((indexAt o 0x0 0x4 8).map .idnSeg) <|>
  (if o = 0x40 then some .idnCmd else none) <|>
  (if o = 0x44 then some .idnStat else none) <|>
  ((indexAt2 o 0x10000 0x100 2112 0x4 64).map (fun x => .idnEntry x.1 x.2))

/-- The register at an offset of the TMX block. -/
def Reg.ofTmx (o : Nat) : Option Reg :=
  ((indexAt o 0x0 0x4 8).map .tmxSel) <|>
  (if o = 0x40 then some .tmxScrub else none) <|>
  (if o = 0x44 then some .tmxStat else none) <|>
  (if o = 0x48 then some .tmxScrst else none)

/-- The register at an offset of the CAP block. -/
def Reg.ofCap (o : Nat) : Option Reg :=
  (if o = 0x0 then some .capUnits else none) <|>
  (if o = 0x4 then some .capSize else none)

/-- The register a physical address names; none where no row of the block tables covers it. -/
def Reg.ofAddr (a : Nat) : Option Reg :=
  if a / 0x1000000 = 0xFF00 then
    match (a / 0x100000) % 16 with
    | 0 => Reg.ofRst (a % 0x100000)
    | 1 => Reg.ofPwr (a % 0x100000)
    | 2 => Reg.ofCfg (a % 0x100000)
    | 3 => Reg.ofPar (a % 0x100000)
    | 4 => Reg.ofTrl (a % 0x100000)
    | 5 => Reg.ofEvr (a % 0x100000)
    | 6 => Reg.ofPtr (a % 0x100000)
    | 7 => Reg.ofTim (a % 0x100000)
    | 8 => Reg.ofCel (a % 0x100000)
    | 9 => Reg.ofFld (a % 0x100000)
    | 10 => Reg.ofLnk (a % 0x100000)
    | 11 => Reg.ofSto (a % 0x100000)
    | 12 => Reg.ofHst (a % 0x100000)
    | 13 => Reg.ofIdn (a % 0x100000)
    | 14 => Reg.ofTmx (a % 0x100000)
    | 15 => Reg.ofCap (a % 0x100000)
    | _ => none
  else none

end Sys2Proof.Machine
end

