-- ==== Sys2Proof/Machine/Layout.lean ====
section
/-! DEFINITION. What an image's partition layout section declares (R461 KIND 2), as data. The spec gives the section's
meaning rule by rule and no byte format; `Config.parseLayout` reads it (log entry 8). -/

namespace Sys2Proof.Machine

/-- The modes of a partition (R25, R409). -/
inductive Mode | held | free | paced | decant | recovery
  deriving DecidableEq, Repr

/-- A frame descriptor of a lane's map header (R416); only a zero one is unused. -/
structure Descriptor where
  used : Bool := false
  take : Nat := 0
  inbound : Bool := false
  ev : Bool := false
  send : Nat := 0
  outbound : Bool := false
  station : BitVec 16 := 0
  pdin : Nat := 0
  pdout : Nat := 0
  idtag : Word := 0
  dmac : List Byte := []
  tci : BitVec 16 := 0
  reserved : Bool := false
  deriving DecidableEq, Repr

/-- A frame map entry (R258); `reserved` says that a bit that must be 0 is not. -/
structure MapEntry where
  point : Nat
  aux : Bool
  offset : Nat
  width : BitVec 2
  sgn : Bool
  valid : Bool := true
  frame : Nat
  reserved : Bool := false
  deriving DecidableEq, Repr

/-- A copy of code from a cluster's flash window into its code SRAM (R478 stage 6). -/
structure CodeCopy where
  cluster : Nat
  fromOff : Nat
  toOff : Nat
  len : Nat
  deriving DecidableEq, Repr

/-- The partition layout of an image. -/
structure Layout where
  /-- Register fields whose Reset column reads "image" and the tables of stage 7. -/
  tables : List (Reg × Word) := []
  /-- The entry address of partition p in a mode (R29, R33). -/
  entries : Assoc (Nat × Mode) Word := []
  /-- Code SRAM of a cluster in bytes (R135). -/
  codeSram : Assoc Nat Nat := []
  codeCopies : List CodeCopy := []
  /-- Partitions all of whose code lies in code SRAM (R28). -/
  codeInSram : List Nat := []
  /-- Tokens per window of an engine (R225, R338). -/
  grants : Assoc Nat Nat := []
  /-- Clusters with a bmv reserve of 16 (R339). -/
  bmvReserve : List Nat := []
  /-- Share slots: router, partition, period of the window (R248). -/
  shareSlots : List (Nat × Nat × Nat) := []
  /-- The map header of a lane: 32 bytes a frame index (R416). -/
  mapHeader : Assoc Nat (List Byte) := []
  /-- The inbound and the outbound entries of a lane's map: 8 bytes each (R258). -/
  mapIn : Assoc Nat (List Byte) := []
  mapOut : Assoc Nat (List Byte) := []
  /-- Partitions that declare recording (R344). -/
  recording : List Nat := []
  /-- Shadow partition and the recorded one (R377). -/
  shadows : List (Nat × Nat) := []
  deriving DecidableEq, Repr

end Sys2Proof.Machine
end

