-- ==== Sys2Proof/Config.lean ====
section
/-! DEFINITION. What the spec leaves to the implementation, and the free values. Every constant here is opaque: nothing can be proved of its
value. -/

namespace Sys2Proof

/-- The k-th free value: a word on which the spec promises nothing (R128, R180, R448; log entry 5). -/
opaque Config.freeWord : Nat → BitVec 32
/-- The k-th free choice that the DRAM cache makes for a partition: which way a line joins and which line it replaces (R178; log entry 5). -/
opaque Config.cachePick : Nat → Nat → BitVec 32
/-- The partition layout a KIND 2 section declares; none where its bytes declare none (R461; log entry 8). -/
opaque Config.parseLayout : List Byte → Option Machine.Layout
/-- The settings fields a KIND 3 defaults section gives (R470, R473; log entry 8). -/
opaque Config.parseDefaults : List Byte → List (Nat × Word)
/-- The k-th key that NEWKEY generates (R375; log entry 9). -/
opaque Config.freshKey : Nat → List Word
/-- The bytes of the k-th checkpoint's data, whose format the spec does not give (R354, R365; log entry 12). -/
opaque Config.checkpointData : Nat → List Byte

end Sys2Proof
end

