-- ==== Sys2Proof/Machine/State.lean ====
section
/-! DEFINITION. The state of the module: everything the spec names, as plain data, and the state right after reset.
Sparse tables are association lists; a number that is not listed stands at the default of its type, which is its reset. -/

namespace Sys2Proof.Machine

/-! ### Engines -/

/-- A result port: its value and whether it can be read (R58 to R61). -/
structure Result where
  value : Word := 0
  readable : Bool := false
  deriving DecidableEq, Repr

/-- A short operation in flight (R55, R105): the ports and flags it writes at its completion step. `ctx` is the context
that triggered it (R520); `drains` is false for ev operations, which no handler entry drains. -/
structure ShortOp where
  due : Nat
  writes : List (ResPort × Word)
  flags : BitVec 9
  ctx : Nat
  drains : Bool
  deriving DecidableEq, Repr

/-- A division or a long fpu operation in flight (R55, R121, R126, R151). -/
structure LongOp where
  due : Nat
  trig : Nat
  writes : List (ResPort × Word)
  flags : BitVec 9
  dzFault : Bool
  issue : Word
  ctx : Nat
  deriving DecidableEq, Repr

/-- The spacing classes of R174. -/
inductive Spacing | none | near | io
  deriving DecidableEq, Repr

/-- An lsu operation outstanding (R56, R164, R169), with the ring that triggered it. `base` is its trigger step plus its cost, the
least cost in Free mode, and `worst` that of R177's worst column; `due` is the completion step that R56 and R175 give it. -/
structure LsuRun where
  op : LsuOp
  addr : Nat
  datum : Word
  trig : Nat
  base : Nat
  worst : Nat
  due : Nat
  cls : Spacing
  issue : Word
  ctx : Nat
  posted : Nat
  granted : Bool
  ring : BitVec 2
  deriving DecidableEq, Repr

/-- A pt read or subscribe outstanding (R242, R245): its trigger step and period, the period of its arrival once that is
fixed, and what it read at the end of that period. -/
structure PtRun where
  sub : Bool
  idx : Word
  datum : Word
  trig : Nat
  posted : Nat
  due : Nat
  arrive : Option Nat
  value : Option (Word × Word)
  ctx : Nat
  deriving DecidableEq, Repr

/-- A ch operation outstanding (R271, R279, R282); `out` is what a receive got from its queue. -/
structure ChRun where
  recv : Bool
  last : Bool
  dst : Word
  datum : Word
  words : List Word
  trig : Nat
  due : Nat
  start : Nat
  landed : Option (BitVec 4)
  abn : Bool
  blocking : Bool
  out : Option (Word × Word)
  ctx : Nat
  deriving DecidableEq, Repr

/-- The wait an engine stands in (R294, R298, R306). -/
inductive WaitKind | lines (lo hi : Nat) | task (lo hi : Nat) | cu | bad
  deriving DecidableEq, Repr

/-- A wait in progress: its trigger step and pace period, its limit in pace periods, FLT, and its instruction (R287). -/
structure Wait where
  kind : WaitKind
  trig : Nat
  start : Nat
  limit : Nat
  flt : Bool
  issue : Word
  ctx : Nat
  deriving DecidableEq, Repr

/-- A line of code held or requested (R138, R143): the bytes are those at the request (R137); `bad` lists its 8-byte words
with an uncorrectable error, `cor` those whose single-bit error the read corrected and no issue has counted yet (R140, R184); `used` says
that an issue has taken a byte of it. -/
structure CodeLine where
  addr : Nat
  bytes : List Byte
  bad : List Nat
  cor : List Nat := []
  req : Nat
  delivered : Bool
  used : Bool := false
  deriving DecidableEq, Repr

/-- A pending fault that the spec takes later: deferred (R152) or completion (R168); a deferred one with the steps of its
retirement and of its trigger (R153). -/
structure LateFault where
  at_ : Nat
  trig : Nat
  code : Nat
  detail : Nat
  sfa : Word
  ctx : Nat
  completion : Bool
  deriving DecidableEq, Repr

/-- The status register (R224), DFP apart, which is computed. -/
structure Status where
  ring : BitVec 2 := 0
  lvl : BitVec 2 := 0
  gie : Bool := false
  mlv : BitVec 2 := 1
  grd : Bool := true
  deriving DecidableEq, Repr

/-- A save set (R207, R230), its result shadow (R66), the hidden context it holds (R520) and whether a barrier held it (R154). -/
structure SaveSet where
  spc : Word := 0
  sst : Word := 0
  src : Word := 0
  sbk : Word := 0
  sfa : Word := 0
  sfc : Word := 0
  shadow : Assoc ResPort Result := []
  acc : BitVec 64 := 0
  ctx : Option Nat := none
  bar : Bool := false
  deriving DecidableEq, Repr

/-- The raises and the clear of one line in a pace period (R292). -/
inductive Clear | none | ack | entry | consume
  deriving DecidableEq, Repr

/-- An event line: its latches at the start of the period of its last change, and what that period brought (R291, R292). -/
structure Line where
  raised : Bool := false
  ovr : Bool := false
  period : Nat := 0
  count : Nat := 0
  clear : Clear := .none
  deriving DecidableEq, Repr

/-- A repeat in progress (R155): its instruction and length, and the iterations left. -/
structure RepRun where
  move : Move
  len : Nat
  left : Nat
  interruptible : Bool
  deriving DecidableEq, Repr

/-- A ready or cancel on its way (R305, R521): its slot, the pace period at whose end it lands, its context. -/
structure TaskRun where
  ready : Bool
  slot : Nat
  lands : Nat
  ctx : Nat
  deriving DecidableEq, Repr

/-- Does the engine run (R24, R217, R486, R509)? -/
inductive RunState | held | running | stopped
  deriving DecidableEq, Repr

/-- An engine (R39 to R66, R135 to R160, R193 to R230); `flagsNew` are the flags that operations set at step `flagsAt` (R110),
`recvFaults` the contexts whose expired receive faults the next read of `ch.rw`, and `waitFaults` the expired waits that raise at their context's next
pair, with the address of the wait (R288). `heirs` names, for a context that has ended, the one restored at its return, which takes its completion
faults (R520). -/
structure Engine where
  d : Assoc (BitVec 6) Word := []
  g : Assoc (BitVec 3) Bool := []
  bnk : BitVec 20 := 0
  rc : BitVec 16 := 0
  opnd : Assoc Opnd Word := []
  acc : BitVec 64 := 0
  res : Assoc ResPort Result := []
  short : List ShortOp := []
  div : Option LongOp := none
  fpuLong : Option LongOp := none
  lsu : List LsuRun := []
  lsuLast : Nat := 0
  lsuNear : Option Nat := none
  lsuIo : Option Nat := none
  pt : List PtRun := []
  ch : List ChRun := []
  chLast : Nat := 0
  msgDst : Word := 0
  msg : List Word := []
  recvFaults : List Nat := []
  st : Status := {}
  acst : BitVec 9 := 0
  flagsAt : Nat := 0
  flagsNew : BitVec 9 := 0
  actl : BitVec 3 := 0
  gtb : BitVec 26 := 0
  htb : BitVec 29 := 0
  gsp : Assoc (BitVec 2) (BitVec 14) := []
  sep : Assoc (BitVec 2) Word := []
  srp : Word := 0
  srs : BitVec 16 := 0
  pwa : Assoc (BitVec 2) (BitVec 28) := []
  pwc : Assoc (BitVec 2) (BitVec 13) := []
  save : Assoc (BitVec 2) SaveSet := []
  ctx : Nat := 0
  nextCtx : Nat := 1
  heirs : Assoc Nat Nat := []
  pc : Word := 0
  step : Nat := 0
  period : Nat := 0
  readyAt : Nat := 0
  redirect : Option (Nat × Word) := none
  lines : List CodeLine := []
  btb : Assoc Nat Word := []
  rep : Option RepRun := none
  resumeRep : Nat := 0
  bar : Bool := false
  lastRetire : Nat := 0
  wait : Option Wait := none
  waitFaults : List (Nat × Word) := []
  pendingFaults : List LateFault := []
  run : RunState := .held
  tokens : Nat := 0
  nsh : Option Word := none
  events : Assoc Nat Line := []
  tasks : List TaskRun := []
  deriving DecidableEq, Repr

/-! ### Clusters -/

/-- What a shared unit is asked (R50, R129, R133, R519). -/
inductive SharedOp | kin (op : KinOp) | ipl (op : IplOp) | bmv (op : BmvOp)
  deriving DecidableEq, Repr

/-- A request to a shared unit (R51, R52). `dead` marks one whose engine was reset: it runs and does nothing.
`trig` and `step` are its trigger's pace period and step, `earliest` the period before which it is not served (R159), `src`, `dst` and `left` a bmv transfer's
addresses and blocks left; `stored` the words stored to meanwhile, and `old` what those of a transfer's source in service held before (R128). -/
structure Request where
  engine : Nat
  op : SharedOp
  a : Word
  b : Word
  t : Word
  src : Nat
  dst : Nat
  left : Nat
  issue : Word
  ctx : Nat
  trig : Nat
  step : Nat
  earliest : Nat := 0
  dead : Bool
  stored : List Nat
  old : Assoc Nat Word := []
  deriving DecidableEq, Repr

/-- The request in service: its start and completion periods, a bmv transfer's periods per block, the input words read at the
start (R52, R128), and a suspension: the level entered and the blocks done by then (R54); `charged` are a transfer's blocks charged so far (R339). -/
structure Service where
  req : Request
  start : Nat
  due : Nat
  per : Nat
  inputs : List Word
  bad : Bool
  suspendAt : Option Nat
  stopAt : Nat
  charged : Nat := 0
  deriving DecidableEq, Repr

/-- A shared unit (R51, R52). -/
structure Unit3 where
  queue : List Request := []
  service : Option Service := none
  lastDone : Nat := 0
  deriving DecidableEq, Repr

/-- A bmv transfer parked at a handler entry (R54), with the level entered and its owner. -/
structure Parked where
  req : Request
  level : BitVec 2
  returned : Bool
  deriving DecidableEq, Repr

/-- A cluster (R50, R304); `bmvTokens` are the tokens charged to its bmv reserve in this window (R339). -/
structure Cluster where
  kin : Unit3 := {}
  ipl : Unit3 := {}
  bmv : Unit3 := {}
  parked : List Parked := []
  task : Assoc Nat (BitVec 8) := []
  bmvTokens : Nat := 0
  deriving DecidableEq, Repr

/-! ### Points -/

/-- What a point held at the start of a pace period in which an update was applied to it (R21). -/
structure Before where
  period : Nat
  value : Word
  aux : Word
  valid : Bool
  by_ : Option (Nat × Nat)
  deriving DecidableEq, Repr

/-- A point descriptor (R236); `by_` is the pace period of its last applied engine update and that engine (R382), `before` what it
held at the start of the period of its last applied update. -/
structure Point where
  value : Word := 0
  aux : Word := 0
  squal : BitVec 16 := 0
  owner : BitVec 4 := 0
  stamp : BitVec 48 := 0
  seq : Word := 0
  by_ : Option (Nat × Nat) := none
  before : Option Before := none
  deriving DecidableEq, Repr

/-- Who posted an update (R240, R248, R250, R436). -/
inductive Origin
  | engine (e : Nat)
  | scatter (lane frame entry : Nat) (stamp : BitVec 48) (first : Bool)
  | link (m : Nat) (aux : Word) (quality : BitVec 16) (stamp : BitVec 48)
  | force
  deriving DecidableEq, Repr

/-- A point update (R242, R248, R250): the partition that owns the point, the period posted, its fixed arrival if Paced; once in a pending
ring, `posted` is the period of its arrival and `issued` that of its posting (R264). -/
structure Update where
  point : Nat
  aux : Bool
  value : Word
  part : Nat
  origin : Origin
  trig : Nat
  posted : Nat
  issued : Nat := posted
  arrive : Option Nat
  coalesced : Bool
  deriving DecidableEq, Repr

/-- A subscription entry (R253, R254): engine, line, delivery slot, table index. -/
structure Subscription where
  point : Nat
  engine : Nat
  line : Nat
  dlv : Option Nat
  index : Nat
  deriving DecidableEq, Repr

/-- A notification posted and not yet made (R252): router, engine, line, record offset and bytes, the periods by which
the record and the line come. -/
structure Notice where
  router : Nat
  engine : Nat
  line : Nat
  point : Nat
  part : Nat
  dlv : Option Nat
  record : List Byte
  applied : Nat
  recordAt : Nat
  lineAt : Nat
  deriving DecidableEq, Repr

/-- Who waits for a grant of a Trellis target: an lsu operation, a line fetch, a bmv transfer or a channel post of an engine, or a master
whose access waits for none (R386). -/
inductive ReqOwner
  | lsu (e : Nat)
  | fetch (e line : Nat)
  | bmv (e : Nat)
  | post (e : Nat)
  | passing
  deriving DecidableEq, Repr

/-- A request waiting at a Trellis target (R386 to R391): master, partition, QoS, when it came, whose it is, and whether it owns its engine's
reserved slots (R317). -/
structure TrellisReq where
  master : Nat
  part : Option Nat
  qos : Nat
  since : Nat
  owner : ReqOwner
  slotted : Bool := false
  deriving DecidableEq, Repr

/-- A target port (R387, R389): waiting requests, the grants of the round. -/
structure Target where
  waiting : List TrellisReq := []
  count : Nat := 0
  grants : Assoc Nat Nat := []
  recorder : Nat := 0
  deriving DecidableEq, Repr

/-- A router (R246 to R250): updates of shares, the pending ring, the slots used in a period, the updates its accept stage took in a period,
and the count of its Free slots by partition (R249). -/
structure Router where
  share : List Update := []
  ring : List Update := []
  usedPeriod : Nat := 0
  used : List (Option Nat) := []
  takenPeriod : Nat := 0
  taken : Nat := 0
  round : Target := {}
  notices : List Notice := []
  deriving DecidableEq, Repr

/-! ### Lanes, links, ports -/

/-- An accepted frame that waits for its take step (R419). -/
structure Frame where
  bytes : List Byte
  stamp : BitVec 48
  deriving DecidableEq, Repr

/-- A field lane (R410 to R425): `txSent` are the indices whose FIRST frame has gone (R421), `rxFirst` says that the next scatter is
the first after a re-entry (R403), `lateAt` is the time of the last late take of an index (R20). -/
structure Lane where
  waiting : Assoc Nat Frame := []
  lastCycle : Assoc Nat Word := []
  devflt : Assoc Nat Bool := []
  txCount : Assoc Nat Word := []
  txSent : List Nat := []
  rxFirst : Bool := false
  lateAt : Assoc Nat Nat := []
  lastTake : Assoc Nat Nat := []
  lastSend : Assoc Nat Nat := []
  rxStopped : Bool := false
  txStopped : Bool := false
  identPending : List Nat := []
  identDue : Bool := false
  sent : List Byte := []
  reentry : Bool := false
  quiet : Bool := false
  deriving DecidableEq, Repr

/-- A link lane (R435 to R439): the next sequence number expected of the peer and the last acknowledgement sent, what waits to be sent, the next number
of a block sent, and the blocks sent and not acknowledged. -/
structure LinkLane where
  nextSeq : Nat := 0
  ackSent : Nat := 0
  outbox : List LinkPayload := []
  txSeq : Nat := 0
  unacked : List (Nat × LinkPayload) := []
  deriving DecidableEq, Repr

/-- The header of a Cellar namespace, which it holds twice (R370): owner, number and cask slots. -/
structure NamespaceHeader where
  part : Nat
  number : Nat
  slots : Nat
  deriving DecidableEq, Repr

/-- A Cellar namespace accepted (R370, R432); `fua` says that its Writes carry FUA, since its controller's write cache could not be disabled (R433). -/
structure Namespace where
  port : Nat
  sub : Nat
  nsid : Nat
  lbas : Nat
  failed : Bool
  fua : Bool := false
  header : Option NamespaceHeader := none
  deriving DecidableEq, Repr

/-- The states of an identity entry (R453). -/
inductive IdState | empty | ok | absent | badCrc | badFormat | timeout
  deriving DecidableEq, Repr

/-- An identity entry (R453). -/
structure IdEntry where
  state : IdState := .empty
  record : List Byte := []
  deriving DecidableEq, Repr

/-- The host port (R441 to R448). -/
structure HostPort where
  busyLow : Bool := true
  data : BitVec 16 := 0
  collided : Bool := false
  deriving DecidableEq, Repr

/-! ### Recording -/

/-- A record (R350). -/
structure Record where
  type : Nat
  src : Nat
  vstep : Nat
  payload : List Byte
  deriving DecidableEq, Repr

/-- A cask (R354): its vintage and number, its records or its checkpoint data with the checkpoint step, the payload bytes in use, whether it
is the last and whether a Write of it has failed once. -/
structure Cask where
  vintage : BitVec 64
  seq : Nat
  ckpt : Bool
  last : Bool
  records : List Record
  data : List Byte := []
  step : Nat := 0
  bytes : Nat
  retried : Bool
  deriving DecidableEq, Repr

/-- What of a partition's shape a Decant compares (R36, R361, R377): its clusters with code SRAM, bmv reserve and grants, its DRAM pages, the home
router of each point block, its share of slots and its subscription quota on each router. -/
structure Shape where
  clusters : List (Nat × Nat × Bool × List Nat) := []
  pages : Nat := 0
  blocks : List Nat := []
  shares : List Nat := []
  quotas : List Nat := []
  deriving DecidableEq, Repr

/-- A checkpoint (R359 to R362): the state it holds, the 4 KiB pages that its memories cover, the first and the number of its casks, and the
mode its partition was changing to. -/
structure Snapshot where
  index : Nat
  taken : Nat
  full : Bool
  vstep : Nat
  engines : Assoc Nat Engine
  clusters : Assoc Nat Cluster
  pages : List Nat := []
  mem : List Host.Cell
  points : Assoc Nat Point
  stale : List (Nat × Nat) := []
  subs : List Subscription
  updates : List Update
  forces : List (Nat × Word)
  fdrop : Word
  lanes : Assoc Nat Lane
  cycle : Option Nat
  cycles : List Nat := []
  ents : List ((Nat × Nat) × Word)
  timers : List (Word × Word × Option (Nat × Nat))
  routes : List Word
  instar : Word := 0
  digest : List Byte := []
  shape : Shape := {}
  changing : Option Mode := none
  firstSeq : Nat := 0
  casks : Nat := 0
  deriving DecidableEq, Repr

/-- An index entry of a namespace (R371). -/
structure IndexEntry where
  vintage : BitVec 64
  first : Nat × Nat
  last : Nat × Nat
  lastV : Nat
  topen : Nat
  paced : Bool
  isSealed : Bool
  pace : Bool
  trunc : Bool
  gapBefore : Bool
  reason : Nat
  ckpts : Nat
  deriving DecidableEq, Repr

/-- A vintage (R356 to R358, R371): TIM, S and the slots of its casks beside what its records say; `home` is the namespace and the place of its index entry
there (R370), `entry` that entry as last written. -/
structure Vintage where
  number : BitVec 64
  part : Nat
  paced : Bool
  opened : Nat
  topen : Nat := 0
  stretch : Nat := 1
  follows : BitVec 64
  records : List Record
  checkpoints : List Snapshot
  cycles : List Nat := []
  nextSeq : Nat
  reason : Nat
  isSealed : Bool
  trunc : Bool
  pace : Bool
  committed : Nat
  lastCkpt : Nat
  lastV : Nat := 0
  ckpts : Nat := 0
  slots : List (Nat × Nat) := []
  home : Option (Nat × Nat) := none
  entry : Option IndexEntry := none
  deriving DecidableEq, Repr

/-- A Decant in progress (R376 to R383); `found` is the divergence of least KIND met so far: KIND, engine, lane and frame, and `foundAt` its
VSTEP. `left` are the records read in and not consumed, `unread` those that the casks still to be read in hold (R383). `tick` and `stretch` are the TIM
and the S of the recording (R380, R383), `draining` the change that its checkpoint stands in (R31), `rxFirst` the lanes whose next frame is the first after
a loss, as the checkpoint holds them (R361). -/
structure DecantRun where
  vintage : Vintage
  source : Nat
  base : Nat
  startAt : Option Nat
  left : List Record
  unread : List Record := []
  endStep : Nat
  loaded : Bool
  found : Option (Nat × Option Nat × Option (Nat × Nat))
  foundAt : Nat := 0
  tick : Nat := 0
  stretch : Nat := 1
  draining : Bool := false
  rxFirst : List Nat := []
  deriving DecidableEq, Repr

/-- The recorder of a partition (R344 to R373): `captures` are the checkpoints being copied, `before` the state of its partition at the
end of the step before an admission epoch (R360), `nextSlot` the next place in the log of cask slots. -/
structure Recorder where
  open_ : Option Vintage := none
  closed : List Vintage := []
  wantOpen : Bool := false
  cask : List Record := []
  casks : List Cask := []
  captures : List Snapshot := []
  before : Option Snapshot := none
  nextSlot : Nat := 0
  bytes : Nat := 0
  epoch : BitVec 24 := 0
  vintages : Nat := 0
  pausedPeriods : Nat := 0
  pauseFrom : Option Nat := none
  gapFrom : BitVec 64 := 0
  key : Option (List Word) := none
  deriving DecidableEq, Repr

/-! ### Partitions -/

/-- A partition (R23 to R36, R395, R408, R488, R509); `scrubEntry` says that its engines, stopped by a scrub, begin at the Recovery entry; `forcesDue` is how many forces it had accepted before the change of mode in progress (R264). -/
structure Part where
  mode : Mode := .held
  pending : Option Mode := none
  reason : Nat := 0
  changing : Option Mode := none
  changeAt : Nat := 0
  fence : Bool := false
  epoch : BitVec 8 := 0
  inCocoon : Bool := false
  heldCluster : Bool := false
  heldStack : Bool := false
  widest : Nat := 6
  escalated : Bool := false
  wdCount : Nat := 0
  wdPre : Bool := false
  scrubbing : Bool := false
  cycleAt : Option Nat := none
  nextTick : Option Nat := none
  cycleFree : Bool := true
  scrubEntry : Bool := false
  forceQueue : List (Nat × Word) := []
  forces : List (Nat × Word) := []
  forcesDue : Nat := 0
  decant : Option DecantRun := none
  recorder : Recorder := {}
  deriving DecidableEq, Repr

/-! ### Configuration, reset, power, test -/

/-- An asserted reset source (R482 to R487): its cause bit, reach, target, and whether its condition still holds. -/
structure Source where
  cause : Nat
  reach : Nat
  target : Nat
  cond : Bool
  deriving DecidableEq, Repr

/-- The phase of the module (R28, R37, R467, R502, R505). -/
inductive Phase | off | configure | running | noimage | cocoonDrain | cocoon | waking | ejectDrain | ejected | sealing
  deriving DecidableEq, Repr

/-- The running image (R460 to R471). -/
structure Image where
  slotB : Bool
  trial : Bool
  instar : Word
  isSigned : Bool
  pubkey : List Byte
  layout : Layout
  deriving DecidableEq, Repr

/-- The commands of CFG.QCMD (R490). -/
inductive QCmd | read | program | erase4k | erase64k | armTrial | anchor
  deriving DecidableEq, Repr

/-- The states of a unit that returns to service (R406). -/
inductive SvcState | power | fill | test | waitEpoch
  deriving DecidableEq, Repr

/-- A unit returning to service (R402). -/
structure Returning where
  cls : UnitClass
  unit : Nat
  state : SvcState
  deriving DecidableEq, Repr

/-- The state of a power domain (R514). -/
inductive DomState | off | ramp | on | retain | fault
  deriving DecidableEq, Repr

/-- The instruction the test access port holds (R511). -/
inductive TapIr | extest | samplePreload | idcode | clamp | highz | mstat | bypass
  deriving DecidableEq, Repr

/-- The test access port (R511, R512). -/
structure Tap where
  ir : TapIr := .idcode
  cells : List Bool := []
  out : Word := 0
  refused : Bool := false
  deriving DecidableEq, Repr

/-- The pins and the supplies, as levels, and whether the hold-up bank is charged (R482, R500 to R503). -/
structure Pins where
  seatLow : Bool := false
  ejectLow : Bool := false
  resetLow : Bool := false
  lineRstLow : Bool := false
  removeOk : Bool := false
  auxGood : Bool := true
  mainGood : Bool := false
  bankFull : Bool := false
  deriving DecidableEq, Repr

/-- The pace generator and TIM (R309 to R334). `raw` counts the reference ticks that TIM.CMD does not move; `detected2` and `detected4` are the
periods of the first detections that no grant window has acted on (R322). `pcnt` counts pace periods without end; PCNT is what it counts above `base`, a
multiple of 65,536, where a reset of Module or Cold reach last set PCNT to 0 (R310). -/
structure Pace where
  s : Nat := 1
  supply : BitVec 2 := 0
  temp : BitVec 2 := 0
  margin : BitVec 2 := 0
  refLost : Bool := false
  lastCond2 : Nat := 0
  lastCond4 : Nat := 0
  detected2 : Option Nat := none
  detected4 : Option Nat := none
  pcnt : Nat := 0
  base : Nat := 0
  tick : Nat := 0
  raw : Nat := 0
  windowNext : Nat := 0
  epochNext : Nat := 0
  adj : Word := 0
  adjNext : List Word := []
  winStretched : Nat := 0
  deriving DecidableEq, Repr

/-- An access to a check word of a memory of two ports, whose partner in a meeting may be still to come (R179, R180): its pace period, its port,
whether it writes, the eight bytes before it, and how it met the other port. -/
structure PortAccess where
  word : Nat
  period : Nat
  portB : Bool
  writes : Bool
  before : List Byte
  met : Collision
  deriving DecidableEq, Repr

/-- The key store and the anchor of the AUX domain (R374, R462). -/
structure KeyStore where
  cabinet : Option (List Word) := none
  anchor : Option (List Byte) := none
  deriving DecidableEq, Repr

/-- A line of the DRAM cache (R178): its line address, way and partition; for a dirty line, what the stack still holds of it. The memory
holds the newest bytes. -/
structure CacheLine where
  line : Nat
  way : Nat
  part : Nat
  stack : Option (List Byte)
  deriving DecidableEq, Repr

/-- Everything of the block but the queue. `store` is what the cask slots of the namespaces hold, `blocks` their header and index by namespace and LBA
(R370), `flashDig` is the IMGDIG that code flash recorded at its last programming, `flashKept`
the sections it holds that are no code window, `selfTest` what the next self-test of Configure finds (R466, R72), `fusedSpares` the engine that
a cluster's spare is fused to, and `fusedColumns` the spare columns in use in a cluster, as vendor test left them (R72, R186; log entry 3).
`cachePicks` counts the choices of the DRAM cache by partition (R178), `accesses` are the accesses to memories of two ports that another port may still meet
(R180). `stage` is the stage of Configure that runs where it has not released the partitions yet (R478), `qAddr` and `qPage` what the command of CFG.QCMD
that runs took from CFG.QADDR and CFG.QBUF (R490). -/
structure Device where
  grade : Grade := .x1024P
  phase : Phase := .off
  fresh : Nat := 0
  pace : Pace := {}
  regs : Assoc Reg Word := []
  mem : List Host.Cell := []
  marks : Assoc Nat Upset := []
  unfilled : List Nat := []
  cache : List CacheLine := []
  cachePicks : Assoc Nat Nat := []
  accesses : List PortAccess := []
  fusedSpares : Assoc Nat (BitVec 4) := []
  fusedColumns : Assoc Nat Word := []
  nor : List Host.Cell := []
  norPresent : Bool := true
  flashDig : List Byte := []
  flashKept : List (Nat × List Byte) := []
  selfTest : List (Nat × Nat) := []
  engines : Assoc Nat Engine := []
  clusters : Assoc Nat Cluster := []
  points : Assoc Nat Point := []
  staleRanges : List (Nat × Nat) := []
  subs : List Subscription := []
  inFlight : List Update := []
  routers : Assoc Nat Router := []
  raises : List (Nat × Nat × Word) := []
  heldRaises : List Nat := []
  lineDue : List (Nat × Nat × Nat) := []
  timers : Assoc Nat (Nat × Nat) := []
  lanes : Assoc Nat Lane := []
  links : Assoc Nat LinkLane := []
  namespaces : List Namespace := []
  store : Assoc (Nat × Nat) (List Byte) := []
  blocks : Assoc (Nat × Nat) (List Byte) := []
  ids : Assoc Nat IdEntry := []
  scanning : List (Nat × Nat) := []
  host : HostPort := {}
  parts : Assoc Nat Part := []
  sources : List Source := []
  image : Option Image := none
  stage : Option Nat := none
  qcmd : Option QCmd := none
  qAddr : Nat := 0
  qPage : List Byte := []
  returning : List Returning := []
  failedSlots : List (Nat × Nat) := []
  enginesReset : Assoc Nat Nat := []
  domains : Assoc Nat DomState := []
  mwdCount : Nat := 0
  mwdPre : Bool := false
  ejectReset : Bool := false
  ejectStopped : Bool := false
  pins : Pins := {}
  tap : Tap := {}
  targets : Assoc Nat Target := []
  keys : KeyStore := {}
  answer : Word := 0
  deriving DecidableEq, Repr

/-- The machine: the block and the commands that wait, first in first out. -/
structure State where
  dev : Device := {}
  pending : List Instr := []
  deriving DecidableEq, Repr

/-- No command ends in a fault: the faults of the spec are engine faults, and taking one is an effect on the state.
Nobody raises a value of this type, which has none. -/
inductive Fault : Type
  deriving DecidableEq, Repr

/-- Refusals: none is left in this model. -/
inductive Refusal
  /-- Raised by an arm of `exec` whose command has no meaning yet. Safe: the run stops. -/
  | notModelled (mnemonic : String)
  deriving DecidableEq, Repr

/-- The machine right after reset: every register at its Reset column, nothing listed in memory, every partition held,
no reset source asserted, no image loaded, the queue empty (log entries 3, 10). The grade is a DESIGN CHOICE: the spec names four and no part is
one of them by reset (R1, log entry 65). -/
def State.reset : State := {}

end Sys2Proof.Machine
end

