-- ==== Sys2Proof/Machine/Ops.lean ====
section
/-! DEFINITION. The named operations over the state that every family uses: bit fields, memory cells, registers, the tables
of ownership, event sources, free values and the steps of an engine. -/

namespace Sys2Proof.Machine

/-! ### Bit fields -/

/-- Field [lo + len - 1 : lo] of a word, as a number. -/
def fld (w : Word) (lo len : Nat) : Nat := (w.toNat >>> lo) % 2 ^ len

/-- A word with field [lo + len - 1 : lo] replaced. -/
def setFld (w : Word) (lo len v : Nat) : Word :=
  BitVec.ofNat 32 (w.toNat - (fld w lo len) <<< lo + (v % 2 ^ len) <<< lo)

/-- Bit i of a word. -/
def bit (w : Word) (i : Nat) : Bool := w.getLsbD i

/-- A word with bit i set to b. -/
def setBit (w : Word) (i : Nat) (b : Bool) : Word :=
  if b then w ||| (1#32 <<< i) else w &&& ~~~ (1#32 <<< i)

/-- 1 for true, 0 for false. -/
def boolWord (b : Bool) : Word := if b then 1 else 0

/-- A number as a word. -/
def word (n : Nat) : Word := BitVec.ofNat 32 n

/-! ### Memory cells in canonical form -/

/-- The byte at an address; an unlisted one reads blank. -/
def Cells.read (blank : Nat → Byte) : List Host.Cell → Nat → Byte
  | [], a => blank a
  | (k, v) :: rest, a => if k = a then v else Cells.read blank rest a

/-- The cells without an address. -/
def Cells.erase : List Host.Cell → Nat → List Host.Cell
  | [], _ => []
  | (k, v) :: rest, a => if k = a then rest else (k, v) :: Cells.erase rest a

/-- The cells with an address set, kept in rising order. -/
def Cells.insert : List Host.Cell → Nat → Byte → List Host.Cell
  | [], a, x => [(a, x)]
  | (k, v) :: rest, a, x =>
    if a < k then (a, x) :: (k, v) :: rest
    else if k = a then (a, x) :: rest
    else (k, v) :: Cells.insert rest a x

/-- Write one byte: a blank byte is unlisted, every other is listed. -/
def Cells.write (blank : Nat → Byte) (cells : List Host.Cell) (a : Nat) (x : Byte) : List Host.Cell :=
  if x = blank a then Cells.erase cells a else Cells.insert cells a x

/-- Write consecutive bytes. -/
def Cells.writeList (blank : Nat → Byte) (cells : List Host.Cell) (a : Nat) : List Byte → List Host.Cell
  | [] => cells
  | x :: xs => Cells.writeList blank (Cells.write blank cells a x) (a + 1) xs

/-- Forget every listed byte of [lo, lo + len): they read blank again. -/
def Cells.blankRange (cells : List Host.Cell) (lo len : Nat) : List Host.Cell :=
  cells.filter (fun c => !(decide (lo ≤ c.1 ∧ c.1 < lo + len)))

/-- The canonical form: addresses strictly rising from `low`, no listed byte blank. -/
def Cells.wfFrom (blank : Nat → Byte) : Nat → List Host.Cell → Bool
  | _, [] => true
  | low, (k, v) :: rest => decide (low ≤ k) && decide (v ≠ blank k) && Cells.wfFrom blank (k + 1) rest

/-- The canonical form of a memory. -/
def Memory.wf (blank : Nat → Byte) (cells : List Host.Cell) : Bool := Cells.wfFrom blank 0 cells

/-- What an unlisted byte of the physical address space reads as: erased code flash 0xFF (R93), else 0 (R190). -/
def physBlank (a : Nat) : Byte := if 0x300000000 ≤ a ∧ a < 0x320000000 then 0xFF else 0

/-- What an unlisted byte of the configuration memory reads as: an erased serial NOR reads 0xFF (R459). -/
def norBlank (_ : Nat) : Byte := 0xFF

/-- The byte at a physical address. -/
def Device.byte (d : Device) (a : Nat) : Byte := Cells.read physBlank d.mem a

/-- n bytes from a physical address. -/
def Device.bytes (d : Device) (a : Nat) : Nat → List Byte
  | 0 => []
  | n + 1 => d.byte a :: d.bytes (a + 1) n

/-- A little-endian number from bytes (R169). -/
def fromBytes : List Byte → Nat
  | [] => 0
  | b :: bs => b.toNat + 256 * fromBytes bs

/-- n little-endian bytes of a number. -/
def toBytes : Nat → Nat → List Byte
  | 0, _ => []
  | n + 1, v => BitVec.ofNat 8 v :: toBytes n (v / 256)

/-- The word at a physical address. -/
def Device.loadWord (d : Device) (a : Nat) : Word := Machine.word (fromBytes (d.bytes a 4))

/-- Write bytes at a physical address. -/
def Device.writeBytes (d : Device) (a : Nat) (bs : List Byte) : Device :=
  { d with mem := Cells.writeList physBlank d.mem a bs }

/-- Zero-fill a range of the physical address space and its check bits (R188, R189). -/
def Device.zeroFill (d : Device) (lo len : Nat) : Device :=
  { d with mem := Cells.blankRange d.mem lo len
           marks := d.marks.filter (fun m => !(decide (lo ≤ m.1 ∧ m.1 < lo + len))) }

/-- n bytes of the configuration memory. -/
def Device.norBytes (d : Device) (a : Nat) : Nat → List Byte
  | 0 => []
  | n + 1 => Cells.read norBlank d.nor a :: d.norBytes (a + 1) n

/-- A little-endian word of the configuration memory. -/
def Device.norWord (d : Device) (a : Nat) : Nat := fromBytes (d.norBytes a 4)

/-- Program bytes of a serial NOR: a program clears bits and sets none (R457). -/
def Device.norProgram (d : Device) (a : Nat) : List Byte → Device
  | [] => d
  | x :: xs =>
    Device.norProgram
      { d with nor := Cells.write norBlank d.nor a (Cells.read norBlank d.nor a &&& x) } (a + 1) xs

/-- Erase a range of the configuration memory. -/
def Device.norErase (d : Device) (a len : Nat) : Device := { d with nor := Cells.blankRange d.nor a len }

/-! ### Components -/

/-- Engine e; one that is not listed stands at its reset. -/
def Device.eng (d : Device) (e : Nat) : Engine := Assoc.get {} d.engines e
def Device.setEng (d : Device) (e : Nat) (x : Engine) : Device := { d with engines := Assoc.put d.engines e x }
/-- Change engine e. -/
def Device.onEng (d : Device) (e : Nat) (f : Engine → Engine) : Device := d.setEng e (f (d.eng e))
def Device.cluster (d : Device) (c : Nat) : Cluster := Assoc.get {} d.clusters c
def Device.onCluster (d : Device) (c : Nat) (f : Cluster → Cluster) : Device :=
  { d with clusters := Assoc.put d.clusters c (f (d.cluster c)) }
def Device.part (d : Device) (p : Nat) : Part := Assoc.get {} d.parts p
def Device.onPart (d : Device) (p : Nat) (f : Part → Part) : Device :=
  { d with parts := Assoc.put d.parts p (f (d.part p)) }
def Device.lane (d : Device) (n : Nat) : Lane := Assoc.get {} d.lanes n
def Device.onLane (d : Device) (n : Nat) (f : Lane → Lane) : Device :=
  { d with lanes := Assoc.put d.lanes n (f (d.lane n)) }
def Device.router (d : Device) (r : Nat) : Router := Assoc.get {} d.routers r
def Device.onRouter (d : Device) (r : Nat) (f : Router → Router) : Device :=
  { d with routers := Assoc.put d.routers r (f (d.router r)) }
/-- Point p; one that is not listed is never written, and STALE where a reset or a Recovery entry marked its range (R239). -/
def Device.point (d : Device) (p : Nat) : Point :=
  Assoc.get { squal := if d.staleRanges.any (fun r => decide (r.1 ≤ p ∧ p ≤ r.2)) then 2 else 0 } d.points p
def Device.onPoint (d : Device) (p : Nat) (f : Point → Point) : Device :=
  { d with points := Assoc.put d.points p (f (d.point p)) }
def Device.link (d : Device) (m : Nat) : LinkLane := Assoc.get {} d.links m
def Device.onLink (d : Device) (m : Nat) (f : LinkLane → LinkLane) : Device :=
  { d with links := Assoc.put d.links m (f (d.link m)) }
def Device.target (d : Device) (t : Nat) : Target := Assoc.get {} d.targets t
def Device.onTarget (d : Device) (t : Nat) (f : Target → Target) : Device :=
  { d with targets := Assoc.put d.targets t (f (d.target t)) }

/-- The stored word of a register; one that is not listed stands at 0. -/
def Device.reg (d : Device) (r : Reg) : Word := Assoc.get 0 d.regs r
/-- Store a register's word. -/
def Device.setReg (d : Device) (r : Reg) (w : Word) : Device := { d with regs := Assoc.put d.regs r w }
/-- Store a field of a register. -/
def Device.setRegFld (d : Device) (r : Reg) (lo len v : Nat) : Device := d.setReg r (setFld (d.reg r) lo len v)
/-- Store a bit of a register. -/
def Device.setRegBit (d : Device) (r : Reg) (i : Nat) (b : Bool) : Device := d.setReg r (setBit (d.reg r) i b)
/-- Count one event in a counter field that saturates (R15, R187, R269, R308). -/
def Device.bump (d : Device) (r : Reg) (lo : Nat := 0) (len : Nat := 32) : Device :=
  if fld (d.reg r) lo len + 1 < 2 ^ len then d.setRegFld r lo len (fld (d.reg r) lo len + 1) else d

/-- The next free value (log entry 5). -/
def Device.freeWord (d : Device) : Word × Device := (Config.freeWord d.fresh, { d with fresh := d.fresh + 1 })

/-- The current pace period (R310). -/
def Device.now (d : Device) : Nat := d.pace.pcnt

end Sys2Proof.Machine

/-! ### Grades (R1, R6, R7, R17) -/

namespace Sys2Proof

def Grade.clusters : Grade → Nat | .x1024P => 64 | .x1024C => 64 | .x512C => 32 | .x256E => 16
def Grade.engines (g : Grade) : Nat := 16 * g.clusters
def Grade.dies (g : Grade) : Nat := g.clusters / 16
/-- DRAM stacks of 16 GiB. -/
def Grade.stacks (g : Grade) : Nat := g.clusters / 16
def Grade.fieldLanes (g : Grade) : Nat := g.clusters
def Grade.linkLanes : Grade → Nat | .x1024P => 16 | .x1024C => 16 | _ => 0
def Grade.hasFpu : Grade → Bool | .x256E => false | _ => true
def Grade.hasCellar : Grade → Bool | .x1024P => true | _ => false
/-- CAP.UNITS (R7). -/
def Grade.units : Grade → Word | .x1024P => 0xFF | .x1024C => 0xE7 | .x512C => 0xC7 | .x256E => 0xC1
/-- CAP.SIZE (R7). -/
def Grade.size : Grade → Word | .x1024P => 0x00080440 | .x1024C => 0x00080440 | .x512C => 0x00040220 | .x256E => 0x00020110

end Sys2Proof

namespace Sys2Proof.Machine

/-! ### Ownership tables (R23, R232, R262, R396) -/

/-- The partition numbers. -/
def partNumbers : List Nat := [0, 1, 2, 3, 4, 5, 6, 7, 8, 9, 10, 11, 12, 13, 14, 15]

/-- Is partition p valid (PAR.OWN.V)? -/
def Device.valid (d : Device) (p : Nat) : Bool := decide (p < 16) && bit (d.reg (.parOwn p)) 31

/-- Bit i of a pair of 32-bit ownership masks. -/
def maskBit (lo hi : Word) (i : Nat) : Bool := if i < 32 then bit lo i else if i < 64 then bit hi (i - 32) else false

/-- Does partition p own cluster c? -/
def Device.ownsCluster (d : Device) (p c : Nat) : Bool :=
  d.valid p && maskBit (d.reg (.parCll p)) (d.reg (.parClh p)) c

/-- The partition that owns a cluster. -/
def Device.clusterOwner (d : Device) (c : Nat) : Option Nat := partNumbers.find? (fun p => d.ownsCluster p c)

/-- The partition of an engine. -/
def Device.engPart (d : Device) (e : Nat) : Option Nat := d.clusterOwner (e / 16)

/-- The partition that owns a field lane. -/
def Device.laneOwner (d : Device) (n : Nat) : Option Nat :=
  partNumbers.find? (fun p => d.valid p && maskBit (d.reg (.parFll p)) (d.reg (.parFlh p)) n)

/-- The partition that owns a link lane. -/
def Device.linkOwner (d : Device) (m : Nat) : Option Nat :=
  partNumbers.find? (fun p => d.valid p && decide (m < 16) && bit (d.reg (.parOwn p)) m)

/-- The partition that holds the host port. -/
def Device.hostOwner (d : Device) : Option Nat :=
  partNumbers.find? (fun p => d.valid p && bit (d.reg (.parOwn p)) 16)

/-- Does a DRAM page (16 MiB) lie in partition p's ranges (R163)? -/
def Device.ownsPage (d : Device) (p page : Nat) : Bool :=
  d.valid p && [0, 1, 2, 3].any (fun i =>
    bit (d.reg (.parDrl p i)) 31 && decide (fld (d.reg (.parDrb p i)) 0 12 ≤ page) &&
    decide (page ≤ fld (d.reg (.parDrl p i)) 0 12))

/-- The partition whose ranges hold a DRAM page. -/
def Device.pageOwner (d : Device) (page : Nat) : Option Nat := partNumbers.find? (fun p => d.ownsPage p page)

/-- The entry of the PTR range table that holds a point: home router and owning partition (R232, R268). -/
def Device.pointRange (d : Device) (pt : Nat) : Option (Nat × Nat) :=
  ((List.range 64).find? (fun n =>
    bit (d.reg (.ptrRl n)) 31 && decide (fld (d.reg (.ptrRb n)) 0 13 ≤ pt / 4096) &&
    decide (pt / 4096 ≤ fld (d.reg (.ptrRl n)) 0 13))).map
    (fun n => (fld (d.reg (.ptrRl n)) 24 2, fld (d.reg (.ptrRl n)) 20 4))

/-- Does partition p import a point (R262)? -/
def Device.imports (d : Device) (p pt : Nat) : Bool :=
  (List.range 256).any (fun n =>
    bit (d.reg (.ptrIxb n)) 31 && decide (fld (d.reg (.ptrIxb n)) 16 4 = p) &&
    decide (fld (d.reg (.ptrIxa n)) 0 25 ≤ pt) &&
    decide (pt ≤ fld (d.reg (.ptrIxa n)) 0 25 + fld (d.reg (.ptrIxb n)) 0 16))

/-- The home routers of the ranges of partition p (R28, R248). -/
def Device.homeRouters (d : Device) (p : Nat) : List Nat :=
  ((List.range 64).filter (fun n => bit (d.reg (.ptrRl n)) 31 && decide (fld (d.reg (.ptrRl n)) 20 4 = p))).map
    (fun n => fld (d.reg (.ptrRl n)) 24 2)

/-- The engines of partition p that are listed in the state or run (every engine of its clusters). -/
def Device.partEngines (d : Device) (p : Nat) : List Nat :=
  (List.range d.grade.engines).filter (fun e => d.ownsCluster p (e / 16))

/-- The clusters of partition p. -/
def Device.partClusters (d : Device) (p : Nat) : List Nat :=
  (List.range d.grade.clusters).filter (fun c => d.ownsCluster p c)

/-- The field lanes of partition p. -/
def Device.partLanes (d : Device) (p : Nat) : List Nat :=
  (List.range d.grade.fieldLanes).filter (fun n => d.laneOwner n = some p)

/-- The i-th number of one list for a number of the other. -/
def mapList : List Nat → List Nat → Nat → Nat
  | a :: as, b :: bs, k => if a = k then b else mapList as bs k
  | _, _, k => k

/-- The DRAM pages of a partition, in the order of its ranges. -/
def Device.pageList (d : Device) (p : Nat) : List Nat :=
  ([0, 1, 2, 3].map (fun i =>
    if bit (d.reg (.parDrl p i)) 31 then
      let lo := fld (d.reg (.parDrb p i)) 0 12
      (List.range (fld (d.reg (.parDrl p i)) 0 12 + 1 - lo)).map (· + lo)
    else [])).flatten

/-- The point blocks of a partition, in the order of the range table. -/
def Device.blockList (d : Device) (p : Nat) : List Nat :=
  ((List.range 64).map (fun n =>
    if bit (d.reg (.ptrRl n)) 31 && decide (fld (d.reg (.ptrRl n)) 20 4 = p) then
      let lo := fld (d.reg (.ptrRb n)) 0 13
      (List.range (fld (d.reg (.ptrRl n)) 0 13 + 1 - lo)).map (· + lo)
    else [])).flatten

/-! ### Modes and steps (R25, R309 to R314) -/

/-- Is partition p in Paced or Decant? -/
def Device.pacedPart (d : Device) (p : Nat) : Bool :=
  match (d.part p).mode with | .paced | .decant => true | _ => false

/-- Is the partition of engine e in Paced or Decant? -/
def Device.paced (d : Device) (e : Nat) : Bool :=
  match d.engPart e with | some p => d.pacedPart p | none => false

/-- Is partition p released: in one of the four modes of R24? -/
def Device.released (d : Device) (p : Nat) : Bool := decide ((d.part p).mode ≠ .held)

/-- The mode of partition p: from its admission epoch on it is that of an accepted change, though what was outstanding still completes
with the timing of the mode before (R28, R29). -/
def Device.modeNow (d : Device) (p : Nat) : Mode := (d.part p).changing.getD (d.part p).mode

/-- Are the engines of partition p stopped by a change of mode whose operations and updates have not completed (R29), its own or, in a Decant from a
checkpoint taken in one, the recorded one (R31)? -/
def Device.inChange (d : Device) (p : Nat) : Bool :=
  (d.part p).changing.isSome || (decide ((d.part p).mode = .decant) && (d.part p).decant.any (fun r => r.draining))

/-- Does PAR.MODE show Paced or Decant for partition p (R331, R265)? -/
def Device.inPaced (d : Device) (p : Nat) : Bool :=
  match d.modeNow p with | .paced | .decant => true | _ => false

/-- Is partition p paused under BLOCK (R369, R385)? -/
def Device.pausedPart (d : Device) (p : Nat) : Bool := bit (d.reg (.celStat p)) 3

/-- Does engine e stand still in a BLOCK pause of its partition (R369)? -/
def Device.pausedEngine (d : Device) (e : Nat) : Bool := match d.engPart e with | some p => d.pausedPart p | none => false

/-- Do the shared units and the task slots of cluster c stand still in such a pause? -/
def Device.pausedCluster (d : Device) (c : Nat) : Bool := match d.clusterOwner c with | some p => d.pausedPart p | none => false

/-- The step engine e would begin now: in Paced and Decant one step is one pace period (R311), in Free mode the next; in a BLOCK pause it begins
none (R369). -/
def Device.nowStep (d : Device) (e : Nat) : Nat :=
  if d.pausedEngine e then 0
  else if d.paced e then (d.eng e).step + (d.now - (d.eng e).period) else (d.eng e).step + 1

/-! ### The target ports of the Trellis (R317, R318, R386 to R391) -/

/-- A request joins the queue of a target port. -/
def Device.ask (d : Device) (t : Nat) (r : TrellisReq) : Device := d.onTarget t (fun x => { x with waiting := x.waiting ++ [r] })

/-- The QoS of the transactions that partition p's engines and the routers on its behalf send (R386). -/
def Device.partQos (d : Device) (p : Option Nat) : Nat := match p with | some p => fld (d.reg (.parQos p)) 4 4 | none => 0

/-- A request of a master whose access waits for no grant: a router, a lane, a store port, the recorder (R386; log
entry 44). -/
def Device.askPassing (d : Device) (t master : Nat) (part : Option Nat) (qos : Nat) : Device :=
  d.ask t { master := master, part := part, qos := qos, since := d.now, owner := .passing }

/-- MASTER_ERROR_LOG (R394): the first failure since V was cleared, in the log of a partition or in the module's. -/
def Device.logStatus (d : Device) (part : Option Nat) (master status a : Nat) : Device :=
  let w := word (0x80000000 + status * 2 ^ 24 + master * 2 ^ 16 + a / 2 ^ 32 % 256)
  match part with
  | some p => if bit (d.reg (.parDtb p)) 31 then d else (d.setReg (.parDtb p) w).setReg (.parDta p) (word a)
  | none => if bit (d.reg .trlMerr) 31 then d else (d.setReg .trlMerr w).setReg .trlMera (word a)

/-- The engine a request belongs to. -/
def ReqOwner.engine : ReqOwner → Option Nat
  | .lsu e => some e | .fetch e _ => some e | .bmv e => some e | .post e => some e | .passing => none

/-- The effective QoS of a waiting request (R388). -/
def Device.effectiveQos (d : Device) (r : TrellisReq) : Nat :=
  if r.master ∈ [132, 133, 151, 152] then r.qos
  else match r.part with | some p => min r.qos (fld (d.reg (.parQos p)) 0 4) | none => r.qos

/-- The aged QoS of a waiting request (R389). -/
def Device.agedQos (d : Device) (r : TrellisReq) : Nat := min 15 (d.effectiveQos r + (d.now - r.since) / 1024)

/-- Does request a go before request b: higher aged QoS, then the longer wait, then the lower master (R389)? -/
def Device.goesBefore (d : Device) (a b : TrellisReq) : Bool :=
  let qa := d.agedQos a
  let qb := d.agedQos b
  decide (qb < qa) || (decide (qa = qb) && (decide (a.since < b.since) || (decide (a.since = b.since) && decide (a.master < b.master))))

/-- The first of the requests in that order; the earlier in the list where none goes before the other. -/
def Device.best (d : Device) : List TrellisReq → Option TrellisReq
  | [] => none
  | r :: rs => match d.best rs with
    | none => some r
    | some b => if d.goesBefore b r then some b else some r

/-- A port with its round begun anew after 64 grants (R389). -/
def Target.inRound (t : Target) : Target := if 64 ≤ t.count then { t with count := 0, grants := [], recorder := 0 } else t

/-- The request that a port chooses of some of those that wait, beside the reserved slots (R389): a partition short of its minimum share, in
ascending number; the recorder short of 4; else the highest aged QoS. -/
def Device.choose (d : Device) (t : Target) (rs : List TrellisReq) : Option TrellisReq :=
  let short := partNumbers.find? (fun p =>
    decide (Assoc.get 0 t.grants p < fld (d.reg (.parQos p)) 8 6) && rs.any (fun r => decide (r.part = some p)))
  match short with
  | some p => d.best (rs.filter (fun r => decide (r.part = some p)))
  | none =>
    if t.recorder < 4 ∧ rs.any (fun r => decide (r.master = 151)) then d.best (rs.filter (fun r => decide (r.master = 151)))
    else d.best rs

/-- One more grant of a round of 64 (R389). -/
def Target.grant (t : Target) (r : TrellisReq) : Target :=
  { t.inRound with
    waiting := t.waiting.erase r
    count := t.inRound.count + 1
    grants := match r.part with | some p => Assoc.put t.inRound.grants p (Assoc.get 0 t.inRound.grants p + 1) | none => t.inRound.grants
    recorder := if r.master = 151 then t.inRound.recorder + 1 else t.inRound.recorder }

/-! ### Event sources (R299 to R302) -/

/-- The partition a source is assigned to (R308). -/
def Device.sourceOwner (d : Device) (n : Nat) : Option Nat :=
  let r := d.reg (.evrRoute n)
  if bit r 31 then some (fld r 27 4) else none

/-- The owner of a timer (R303, R308). -/
def Device.timerOwner (d : Device) (n : Nat) : Option Nat :=
  let w := d.reg (.evrTctl n)
  if bit w 31 then some (fld w 27 4) else none

/-- The timers and the event sources a partition owns. -/
def Device.ownedTimers (d : Device) (p : Nat) : List Nat := (List.range 1024).filter (fun n => decide (d.timerOwner n = some p))
def Device.ownedSources (d : Device) (p : Nat) : List Nat := (List.range 4096).filter (fun n => decide (d.sourceOwner n = some p))

/-- The line that a route names: its engine, that engine's partition and the line; none where a raise is discarded (R300). -/
def Device.routeLine (d : Device) (route : Word) : Option (Nat × Nat × Nat) :=
  let e := fld route 0 10
  let line := fld route 18 8
  if !bit route 26 ∨ 191 < line ∨ d.grade.engines ≤ e then none else (d.engPart e).map (fun p => (e, p, line))

/-- Does the route of an external source name a partition in Decant, for which it raises nothing (R300)? -/
def Device.routeMuted (d : Device) (n : Nat) (route : Word) : Bool :=
  match d.routeLine route with | some (_, p, _) => decide (n < 0x100 ∧ d.modeNow p = .decant) | none => false

/-- Raise a source (R299): a source whose owner is held, or paused under BLOCK, keeps one raise (R301, R369); an external source
routed to a partition in Decant raises nothing (R300); else it reaches its line 18 pace periods later (R300). In a reset of Module
reach nothing raises. -/
def Device.raise (d : Device) (n : Nat) : Device :=
  let go : Device :=
    if d.routeMuted n (d.reg (.evrRoute n)) then d else { d with raises := d.raises ++ [(d.now + 18, n, d.reg (.evrRoute n))] }
  if d.phase = .off then d else
  match d.sourceOwner n with
  | none => go
  | some p =>
    if !d.released p || d.pausedPart p then
      if n ∈ d.heldRaises then d else { d with heldRaises := d.heldRaises ++ [n] }
    else go

/-! ### Event lines (R291 to R293) -/

/-- A line's latches after the changes of its period (R292). -/
def Line.fold (l : Line) : Bool × Bool :=
  match l.clear with
  | .none => if l.count = 0 then (l.raised, l.ovr) else (true, l.ovr || l.raised || decide (2 ≤ l.count))
  | .ack => (decide (1 ≤ l.count), false)
  | .entry => if l.count = 0 then (false, l.ovr) else (true, false)
  | .consume => (decide (2 ≤ l.count), false)

/-- The line with earlier periods folded in, so that period k is the one it collects. -/
def Line.at (l : Line) (k : Nat) : Line :=
  if l.period = k then l else { raised := l.fold.1, ovr := l.fold.2, period := k }

/-- One raise of line n of engine e in this pace period. -/
def Device.raiseLine (d : Device) (e n : Nat) : Device :=
  d.onEng e (fun x =>
    let l := (Assoc.get {} x.events n).at d.now
    { x with events := Assoc.put x.events n { l with count := l.count + 1 } })

/-- A clear of line n of engine e in this pace period (R292). -/
def Device.clearLine (d : Device) (e n : Nat) (c : Clear) : Device :=
  d.onEng e (fun x =>
    let l := (Assoc.get {} x.events n).at d.now
    { x with events := Assoc.put x.events n { l with clear := c } })

/-- The latches of line n of engine e as they stand. -/
def Device.lineNow (d : Device) (e n : Nat) : Bool × Bool := (Assoc.get {} (d.eng e).events n).fold

/-- Is line n of engine e RAISED at the start of this pace period, and not cleared in it since (R292)? -/
def Device.lineLatched (d : Device) (e n : Nat) : Bool :=
  let l := (Assoc.get {} (d.eng e).events n).at d.now
  l.raised && decide (l.clear = .none)

/-- Is line n of engine e enabled for entry (EVR.ENT, R293)? -/
def Device.lineEnabled (d : Device) (e n : Nat) : Bool := bit (d.reg (.evrEnt e (n / 32))) (n % 32)

/-! ### Time (R328, R332) -/

/-- NS = floor(TICK × 32 ÷ 25), 64 bits (R328). -/
def Device.timeNs (d : Device) : Nat := (d.pace.tick * 32 / 25) % 2 ^ 64

/-- TIM bits [47:0] (R240). -/
def Device.stamp (d : Device) : BitVec 48 := BitVec.ofNat 48 d.timeNs

/-! ### State -/

/-- Change the block and leave the queue. -/
def State.onDev (s : State) (f : Device → Device) : State := { s with dev := f s.dev }

/-- Fold an operation over a list, from the left. -/
def foldDev {α : Type} (f : Device → α → Device) : Device → List α → Device
  | d, [] => d
  | d, x :: xs => foldDev f (f d x) xs

end Sys2Proof.Machine
end

