-- ==== Sys2Proof/Machine/Crc.lean ====
section
/-! DEFINITION. The two checks the spec defines by their parameters: CRC-64/ECMA-182 (R349) and CRC-32 (R452). -/

namespace Sys2Proof.Machine

/-- Eight shifts of CRC-64/ECMA-182, most significant bit first (R349). -/
def crc64Bits : Nat → BitVec 64 → BitVec 64
  | 0, c => c
  | k + 1, c => crc64Bits k (if c.msb then (c <<< 1) ^^^ 0x42F0E1EBA9EA3693 else c <<< 1)

/-- The CRC-64/ECMA-182 of bytes, continued from c. -/
def crc64From (c : BitVec 64) : List Byte → BitVec 64
  | [] => c
  | b :: bs => crc64From (crc64Bits 8 (c ^^^ (b.setWidth 64 <<< 56))) bs

/-- The digest of R348. -/
def crc64 (bs : List Byte) : BitVec 64 := crc64From 0 bs

/-- Eight shifts of CRC-32, reflected (R452). -/
def crc32Bits : Nat → BitVec 32 → BitVec 32
  | 0, c => c
  | k + 1, c => crc32Bits k (if c.getLsbD 0 then (c >>> 1) ^^^ 0xEDB88320 else c >>> 1)

/-- CRC-32 continued from c. -/
def crc32From (c : BitVec 32) : List Byte → BitVec 32
  | [] => c
  | b :: bs => crc32From (crc32Bits 8 (c ^^^ b.setWidth 32)) bs

/-- CRC-32 of IEEE 802.3 (R452). -/
def crc32 (bs : List Byte) : Word := ~~~ (crc32From 0xFFFFFFFF bs)

end Sys2Proof.Machine
end

