-- ==== Sys2Proof/Machine/Recorder.lean ====
section
/-! DEFINITION. The Cellar recorder as the other blocks use it: records, casks and their place in the namespaces (R344 to R355,
R364 to R373). Vintages and checkpoints are in Vintages.lean. -/

namespace Sys2Proof.Machine

/-- Record types (R353). -/
def recOPEN := 0x01
def recCHECKPOINT := 0x02
def recFRAME_IN := 0x03
def recFRAME_LATE := 0x04
def recETH_IN := 0x05
def recLOAD := 0x06
def recIMPORT_RD := 0x07
def recIMPORT_DLV := 0x08
def recEVENT := 0x09
def recPTP := 0x0A
def recCYCLE := 0x0B
def recDIGEST := 0x0C
def recPACE := 0x0D
def recHWSTAT := 0x0E
def recCLOSE := 0x0F
def recFORCE := 0x10

/-- SRC of the module and of a lane (R350). -/
def srcModule := 0x500
def srcLane (n : Nat) := 0x400 + n

/-- The bytes of words, low word first. -/
def wordsBytes : List Word → List Byte
  | [] => []
  | w :: ws => toBytes 4 w.toNat ++ wordsBytes ws

/-- A record's length in bytes: header, payload, zero padding to a multiple of 8 (R350). -/
def Record.size (r : Record) : Nat := 16 + (r.payload.length + 7) / 8 * 8

/-- A record's bytes (R350). -/
def Record.encode (r : Record) : List Byte :=
  toBytes 4 (r.type % 256 + (r.size / 8 % 4096) * 256) ++ toBytes 4 (r.src % 65536) ++ toBytes 8 r.vstep ++
  r.payload ++ List.replicate (r.size - 16 - r.payload.length) 0

/-- Insert a record in the order of R351: ascending VSTEP, then SRC, then order of consumption. -/
def insertRecord (r : Record) : List Record → List Record
  | [] => [r]
  | x :: xs =>
    if r.vstep < x.vstep ∨ (r.vstep = x.vstep ∧ r.src < x.src) then r :: x :: xs else x :: insertRecord r xs

/-- Does the image of partition p declare recording (R344)? -/
def Device.declaresRecording (d : Device) (p : Nat) : Bool :=
  match d.image with | some i => decide (p ∈ i.layout.recording) | none => false

/-- The vintage step now (R345): periods since the opening, those of BLOCK pauses left out; it stands still in one (R369). -/
def Device.vstep (d : Device) (p : Nat) : Nat :=
  let r := (d.part p).recorder
  match r.open_ with
  | some v => min d.now (r.pauseFrom.getD d.now) - v.opened - r.pausedPeriods
  | none => 0

/-- Change the recorder of partition p. -/
def Device.onRec (d : Device) (p : Nat) (f : Recorder → Recorder) : Device :=
  d.onPart p (fun x => { x with recorder := f x.recorder })

/-- CEL.USE shows the occupancy (R364, R385). -/
def Device.showUse (d : Device) (p : Nat) : Device :=
  d.setRegFld (.celUse p) 0 14 ((d.part p).recorder.bytes / 2 ^ 20)

/-- The staging quota of partition p in bytes (R364, R385). -/
def Device.quota (d : Device) (p : Nat) : Nat := fld (d.reg (.celQuota p)) 0 8 * 2 ^ 26

/-! ### Casks (R352, R354, R355) -/

/-- The bytes of a cask's payload. -/
def caskPayload : Nat := 65456

/-- The payload bytes of a cask. -/
def Cask.body (c : Cask) : List Byte := if c.ckpt then c.data else (c.records.map Record.encode).flatten

/-- The bytes of a cask's header (R354). -/
def Cask.header (c : Cask) (p ns : Nat) : List Byte :=
  let first := if c.ckpt then c.step else (c.records.head?.map (·.vstep)).getD 0
  let last := if c.ckpt then c.step else (c.records.getLast?.map (·.vstep)).getD 0
  toBytes 4 0x4B534143 ++
  toBytes 4 (1 + (p % 16) * 256 + (if c.ckpt then 4096 else 0) + (if c.last then 8192 else 0)) ++
  toBytes 8 c.vintage.toNat ++ toBytes 4 c.seq ++ toBytes 4 c.bytes ++ toBytes 8 first ++ toBytes 8 last ++
  toBytes 4 (ns % 512) ++ List.replicate 20 0

/-- The bytes of a key, low word first. -/
def keyBytesOf (key : List Word) : List Byte := wordsBytes key

/-- The 65,536 bytes of a cask (R354, R355): the header, the encrypted payload, the tag. -/
def Cask.encode (c : Cask) (p ns : Nat) (key : List Word) : List Byte :=
  let h := c.header p ns
  let body := c.body
  let x := gcmSeal (keyBytesOf key) (toBytes 8 c.vintage.toNat ++ toBytes 4 c.seq) h (body ++ List.replicate (caskPayload - body.length) 0)
  h ++ x.1 ++ x.2

/-- The records that fit into so many bytes, and the rest (R352). -/
def takeFit : Nat → List Record → List Record × List Record
  | _, [] => ([], [])
  | room, r :: rs => if r.size ≤ room then let x := takeFit (room - r.size) rs; (r :: x.1, x.2) else ([], r :: rs)

/-- The next cask of records of the open vintage. -/
def Recorder.seal (r : Recorder) (rs : List Record) (last : Bool) : Recorder :=
  match r.open_ with
  | none => r
  | some v => { r with
      casks := r.casks ++ [{ vintage := v.number, seq := v.nextSeq, ckpt := false, last := last, records := rs
                             bytes := (rs.map Record.size).sum, retried := false }]
      open_ := some { v with nextSeq := v.nextSeq + 1 } }

/-- Cut the casks that are full, up to the first record of VSTEP v: those of that step may still gain others before them (R351). -/
def Recorder.settle (v : Nat) : Nat → Recorder → Recorder
  | 0, r => r
  | n + 1, r =>
    let x := takeFit caskPayload r.cask
    match x.2 with
    | y :: _ => if y.vstep < v then Recorder.settle v n { (r.seal x.1 false) with cask := x.2 } else r
    | [] => r

/-- Cut every record into casks, the last of them marked (R354, R358). -/
def Recorder.flush (r : Recorder) : Nat → Recorder
  | 0 => r
  | n + 1 =>
    let x := takeFit caskPayload r.cask
    let r := { (r.seal x.1 x.2.isEmpty) with cask := x.2 }
    if x.2.isEmpty then r else r.flush n

/-- The target port of a place in the staging ring, which lies in the highest stack (R364, R387); a partition's part of it begins at a multiple of
2,048 bytes. -/
def ringTarget (off : Nat) : Nat := 24 + off / 256 % 8

/-- The address of a place in the staging ring (R364). -/
def ringAddr (off : Nat) : Nat := 0x1DBE000000 + off

/-- Is the stack of the staging ring out of service (R364, R401)? -/
def Device.ringOut (d : Device) : Bool := bit (d.reg .trlOffx) (d.grade.stacks - 1)

/-- A request of the recorder or of a store port for a place in the staging ring; where its stack is out of service the default target gets it, whose
status is logged (R386, R393, R394). -/
def Device.askRing (d : Device) (off master : Nat) : Device :=
  if d.ringOut then (d.askPassing 122 master none 8).logStatus none master 3 (ringAddr off) else d.askPassing (ringTarget off) master none 8

/-- Append a record to the open vintage of partition p, through the port of its place in the staging ring (R386), whose default target discards it
(R393); a CYCLE record adds the length it names (R334, R361). -/
def Device.append (d : Device) (p : Nat) (type src : Nat) (payload : List Byte) : Device :=
  let rec_ : Record := { type := type, src := src, vstep := d.vstep p, payload := payload }
  let d := d.askRing (d.part p).recorder.bytes 151
  if d.ringOut then d else
  (d.onRec p (fun r =>
    match r.open_ with
    | none => r
    | some v => { r with open_ := some { v with records := insertRecord rec_ v.records
                                                cycles := if type = recCYCLE then v.cycles ++ [fromBytes (payload.take 8)] else v.cycles }
                         cask := insertRecord rec_ r.cask
                         bytes := r.bytes + rec_.size })).showUse p

/-- Does a record of so many bytes leave the 1 MiB kept back for the CLOSE and checkpoint records (R366)? -/
def Device.hasRoom (d : Device) (p size : Nat) : Bool := decide ((d.part p).recorder.bytes + size + 2 ^ 20 ≤ d.quota p)

/-- Does partition p lose records: its vintage was closed by GAP or STOP, and none is open (R367, R368, R385)? -/
def Device.losing (d : Device) (p : Nat) : Bool :=
  bit (d.reg (.celCtl p)) 0 && (bit (d.reg (.celStat p)) 1 || bit (d.reg (.celStat p)) 2 || decide ((d.part p).recorder.gapFrom ≠ 0))

/-- RECORD_INPUT (R346): a record of partition p, or one more lost record while the vintage is closed by GAP or STOP, or where only the bytes
kept back are left (R366, R367; log entry 12). -/
def Device.record (d : Device) (p : Nat) (type src : Nat) (payload : List Byte) : Device :=
  match (d.part p).recorder.open_ with
  | some _ => if d.hasRoom p (16 + (payload.length + 7) / 8 * 8) then d.append p type src payload else d.bump (.celLostrec p)
  | none => if d.losing p then d.bump (.celLostrec p) else d

/-- Record in every partition with an open vintage, and in every one that loses records (R325, R332). -/
def Device.recordAll (d : Device) (type src : Nat) (payload : List Word) : Device :=
  foldDev (fun d p => d.record p type src (wordsBytes payload)) d partNumbers

/-! ### The namespaces (R370 to R372) -/

/-- The numbers of the accepted namespaces that partition p owns and that still record (R432, PAR.NSn). -/
def Device.ownNamespaces (d : Device) (p : Nat) : List Nat :=
  (List.range d.namespaces.length).filter (fun n =>
    let w := d.reg (.parNs (n / 4))
    bit w (8 * (n % 4) + 7) && decide (fld w (8 * (n % 4)) 4 = p) && ((d.namespaces[n]?).map (fun x => !x.failed)).getD false)

/-- The cask slots of a namespace (R370). -/
def Namespace.slots (x : Namespace) : Nat := (x.lbas - 1026) / 16

/-- The cask slots of partition p (R370). -/
def Device.caskSlots (d : Device) (p : Nat) : Nat :=
  ((d.ownNamespaces p).map (fun n => ((d.namespaces[n]?).map (·.slots)).getD 0)).sum

/-- The k-th cask slot of a partition's log: its namespaces in ascending number (R370). -/
def slotAt (spaces : List Namespace) : List Nat → Nat → Option (Nat × Nat)
  | [], _ => none
  | n :: ns, k =>
    let c := ((spaces[n]?).map (·.slots)).getD 0
    if k < c then some (n, k) else slotAt spaces ns (k - c)

/-- The slots that hold a partition's casks. -/
def Recorder.taken (r : Recorder) : List (Nat × Nat) := ((r.closed ++ r.open_.toList).map (·.slots)).flatten

/-- The index entry of a vintage as it stands (R371). -/
def Vintage.index (v : Vintage) : IndexEntry :=
  { vintage := v.number, first := v.slots.headD (0, 0), last := v.slots.getLastD (0, 0), lastV := v.lastV, topen := v.topen, paced := v.paced
    isSealed := v.isSealed, pace := v.pace, trunc := v.trunc, gapBefore := decide (v.follows ≠ 0), reason := v.reason, ckpts := v.ckpts }

/-- The index entry of a vintage is written (R372). -/
def Vintage.written (v : Vintage) : Vintage := { v with entry := some v.index }

/-- The 64 bytes of an index entry (R371; the places of its fields where the rule leaves a corner: log entry 74). -/
def IndexEntry.encode (x : IndexEntry) : List Byte :=
  let place := fun (s : Nat × Nat) => toBytes 4 (s.1 % 512) ++ toBytes 4 s.2
  let flags := (if x.paced then 1 else 0) + (if x.isSealed then 2 else 0) + (if x.pace then 4 else 0) + (if x.trunc then 8 else 0) +
    (if x.gapBefore then 16 else 0) + 256 * (x.reason % 16)
  toBytes 8 x.vintage.toNat ++ place x.first ++ place x.last ++ toBytes 8 x.lastV ++ toBytes 8 x.topen ++ toBytes 4 flags ++
  toBytes 4 x.ckpts ++ List.replicate 16 0

/-- The 4,096 bytes of a namespace's header block: its fields as little-endian words in the order of the rule, the rest 0 (R370; log entry 83). -/
def NamespaceHeader.encode (x : NamespaceHeader) : List Byte :=
  let body := toBytes 4 0x50534143 ++ toBytes 4 x.part ++ toBytes 4 x.number ++ toBytes 4 x.slots
  body ++ List.replicate (4096 - body.length) 0

/-- Replace bytes of a list from an offset. -/
def splice : List Byte → Nat → List Byte → List Byte
  | pd, off, bs => pd.take off ++ bs ++ pd.drop (off + bs.length)

/-- The header of a namespace stands in its two copies (R370). -/
def Device.writeHeader (d : Device) (n : Nat) (x : NamespaceHeader) : Device :=
  { d with blocks := Assoc.put (Assoc.put d.blocks (n, 0) x.encode) (n, 1) x.encode }

/-- The 64 bytes of an index entry stand in their place: 64 entries a block, from LBA 2 on (R370). -/
def Device.writeEntry (d : Device) (at_ : Nat × Nat) (bs : List Byte) : Device :=
  let k := (at_.1, 2 + at_.2 / 64)
  { d with blocks := Assoc.put d.blocks k (splice (Assoc.get (List.replicate 4096 0) d.blocks k) (64 * (at_.2 % 64)) bs) }

/-- The index entry of a vintage stands in its block as last written (R371, R372). -/
def Device.writeIndex (d : Device) (v : Vintage) : Device :=
  match v.home, v.entry with
  | some at_, some x => d.writeEntry at_ x.encode
  | _, _ => d

/-- The places of the index that a partition's vintages take. -/
def Recorder.homes (r : Recorder) : List (Nat × Nat) := (r.closed ++ r.open_.toList).filterMap (·.home)

/-- The first free place of the 65,536 that the index of each of some namespaces has (R370, R371). -/
def Recorder.freeHome (r : Recorder) (spaces : List Nat) : Option (Nat × Nat) :=
  spaces.findSome? (fun n => ((List.range (min 65536 (r.homes.length + 1))).find? (fun i => decide ((n, i) ∉ r.homes))).map (fun i => (n, i)))

/-- The vintages of partition p that some Decant replays. -/
def Device.inDecant (d : Device) (p : Nat) : List (BitVec 64) :=
  partNumbers.filterMap (fun q => match (d.part q).decant with | some r => if r.source = p then some r.vintage.number else none | none => none)

/-- Free the oldest sealed vintage, but for one in Decant (R372). -/
def freeOldest (busy : List (BitVec 64)) : List Vintage → List Vintage
  | [] => []
  | v :: vs => if v.isSealed ∧ v.number ∉ busy then vs else v :: freeOldest busy vs

/-- Free the oldest sealed vintages, one after the other, until what is looked for is found or none is left to free (R372). -/
def Recorder.makeRoom {α : Type} (busy : List (BitVec 64)) (find : Recorder → Option α) : Nat → Recorder → Option α × Recorder
  | 0, r => (find r, r)
  | n + 1, r =>
    match find r with
    | some x => (some x, r)
    | none =>
      let left := freeOldest busy r.closed
      if left.length = r.closed.length then (none, r) else Recorder.makeRoom busy find n { r with closed := left }

/-- Partition p's recorder after some of its vintages were freed whole: their index entries are free (R371, R372). -/
def Device.freed (d : Device) (p : Nat) (r : Recorder) : Device :=
  let gone := (d.part p).recorder.homes.filter (fun h => decide (h ∉ r.homes))
  (foldDev (fun d h => d.writeEntry h (List.replicate 64 0)) d gone).onRec p (fun _ => r)

/-! ### Overload (R366 to R369) -/

/-- The overload policy of CEL.CTL.POLICY (R367 to R369, R385). -/
def Device.policy (d : Device) (p : Nat) : Nat := fld (d.reg (.celCtl p)) 2 2

/-- Does the occupancy of partition p pass the high-water mark, the quota less one eighth (R366)? -/
def Device.aboveHigh (d : Device) (p : Nat) : Bool := decide ((d.part p).recorder.bytes > d.quota p - d.quota p / 8)

end Sys2Proof.Machine
end

