-- ==== Sys2Proof/Machine/Vintages.lean ====
section
/-! DEFINITION. Grant windows with the stretch factor, whose records stand before a CLOSE of their step, and the vintages of the recorder:
opening, checkpoints, closing, loss, and the records a Decant consumes (R320 to R329, R338, R356 to R373, R380). -/

namespace Sys2Proof.Machine

/-! ### Grant windows and the stretch factor (R320 to R329, R338) -/

/-- The stretch factor the conditions call for (R320). -/
def Pace.wanted (x : Pace) : Nat :=
  if x.supply = 2 ∨ x.temp = 2 ∨ x.margin = 2 then 4
  else if x.supply ≠ 0 ∨ x.temp ≠ 0 ∨ x.margin ≠ 0 ∨ x.refLost then 2 else 1

/-- The conditions change: the reference tick at which each level was last present (which no TIM.CMD moves), and the period of the first detection
of a level that S does not reach yet and no window boundary has acted on (R322). -/
def Pace.change (x y : Pace) : Pace :=
  let first := fun (k : Nat) (seen : Option Nat) => if seen.isNone ∧ x.s < k ∧ k ≤ y.wanted then some y.pcnt else seen
  { y with
    lastCond4 := if x.wanted = 4 then x.raw else x.lastCond4
    lastCond2 := if 2 ≤ x.wanted then x.raw else x.lastCond2
    detected2 := first 2 x.detected2
    detected4 := first 4 x.detected4 }

/-- PWR.PACE shows the conditions and S (R326). -/
def Device.showPace (d : Device) : Device :=
  let x := d.pace
  let w := d.reg .pwrPace &&& 0x100
  let s := match x.s with | 1 => 0 | 2 => 3 | _ => 5
  d.setReg .pwrPace (w ||| word ((if x.refLost then 128 else 0) + (if x.margin ≠ 0 then 64 else 0) + (if x.temp ≠ 0 then 32 else 0) +
    (if x.supply ≠ 0 then 16 else 0) + s))

/-- The factor of the conditions detected before this period and not acted on yet, whether they are still present or not (R322). -/
def Pace.detectedBefore (x : Pace) : Nat :=
  let due := fun (seen : Option Nat) => match seen with | some k => decide (k < x.pcnt) | none => false
  if due x.detected4 then 4 else if due x.detected2 then 2 else 1

/-- The stretch factor from this window boundary on (R322): up to the factor of conditions detected before this period; down
one level after 1 ms, 781,250 ticks, without a condition of that level. -/
def Pace.boundary (x : Pace) : Nat :=
  let w := x.wanted
  if x.s < x.detectedBefore then x.detectedBefore
  else if w < x.s then
    if x.s = 4 then (if x.lastCond4 + 781250 ≤ x.raw then 2 else 4)
    else (if x.lastCond2 + 781250 ≤ x.raw then 1 else x.s)
  else x.s

/-- The detections that a boundary with factor s has acted on are forgotten. -/
def Pace.acted (x : Pace) (s : Nat) : Pace :=
  { x with detected2 := if 2 ≤ s then none else x.detected2, detected4 := if 4 ≤ s then none else x.detected4 }

/-- A change of S is reported (R325 to R327). -/
def Device.stretch (d : Device) (s : Nat) : Device :=
  if s = d.pace.s then d else
  let was := d.pace.s
  let d := ({ d with pace := { d.pace with s := s } }).showPace
  let d := if was = 1 then ((d.raise 0xC0).setRegBit .pwrPace 8 true).bump .pwrPacecnt 16 16 else d
  let d := if s = 1 then d.raise 0xC1 else d
  let d := d.recordAll recPACE srcModule [word s, d.reg .pwrPace]
  foldDev (fun d p => if (d.part p).recorder.open_.isSome then
    (d.setRegBit (.celStat p) 4 true).onRec p (fun r => { r with open_ := r.open_.map (fun v => { v with pace := true }) }) else d) d partNumbers

/-- GRANT_WINDOW (R322, R327, R329, R338, R339): token counts return to 0, S and ADJ take effect. -/
def Device.grantWindow (d : Device) : Device :=
  if d.now < d.pace.windowNext * 64 then d else
  let news := d.pace.adjNext
  let d := { d with
    pace := { d.pace with windowNext := d.now / 64 + 1, adj := news.getLast?.getD d.pace.adj, adjNext := [] }
    engines := d.engines.map (fun x => (x.1, { x.2 with tokens := 0 }))
    clusters := d.clusters.map (fun x => (x.1, { x.2 with bmvTokens := 0 })) }
  let d := foldDev (fun d (a : Word) => d.recordAll recPTP srcModule [1, a, d.reg .timSetl, d.reg .timSeth]) d news
  let s := d.pace.boundary
  let d := d.stretch s
  let d : Device := { d with pace := d.pace.acted s }
  if 1 < d.pace.s then
    let n := d.pace.winStretched + 1
    if n = 1024 then ({ d with pace := { d.pace with winStretched := 0 } }).bump .pwrPacecnt 0 16
    else { d with pace := { d.pace with winStretched := n } }
  else d

/-! ### Checkpoints (R359 to R363) -/

/-- The shape of partition p (R36, R361, R377). -/
def Device.shapeOf (d : Device) (p : Nat) : Shape :=
  let l := match d.image with | some i => i.layout | none => {}
  { clusters := (d.partClusters p).map (fun c =>
      (c, Assoc.get 0 l.codeSram c, decide (c ∈ l.bmvReserve), (List.range 16).map (fun k => Assoc.get 0 l.grants (16 * c + k))))
    pages := (d.pageList p).length
    blocks := (d.blockList p).map (fun b => ((d.pointRange (b * 4096)).map (·.1)).getD 0)
    shares := [0, 1, 2, 3].map (fun r => (l.shareSlots.filter (fun s => decide (s.1 = r ∧ s.2.1 = p))).length)
    quotas := [0, 1, 2, 3].map (fun r => (d.reg (.ptrSubq p r)).toNat) }

/-- The state of partition p that a full checkpoint holds (R361). -/
def Device.snapshot (d : Device) (p : Nat) : Snapshot :=
  let es := d.partEngines p
  let cs := d.partClusters p
  let inMem := fun (a : Nat) =>
    (decide (0x100000000 ≤ a ∧ a < 0x104000000) && decide ((a - 0x100000000) / 0x100000 ∈ cs)) ||
    (decide (0x200000000 ≤ a ∧ a < 0x210000000) && decide ((a - 0x200000000) / 0x400000 ∈ cs)) ||
    (decide (0x280000000 ≤ a ∧ a < 0x280400000) && decide ((a - 0x280000000) / 0x10000 ∈ cs)) ||
    (decide (0x1000000000 ≤ a ∧ a < 0x2000000000) && d.ownsPage p ((a - 0x1000000000) / 0x1000000))
  { index := 0, taken := d.now, full := true, vstep := d.vstep p
    engines := d.engines.filter (fun x => decide (x.1 ∈ es))
    clusters := d.clusters.filter (fun x => decide (x.1 ∈ cs))
    mem := d.mem.filter (fun c => inMem c.1)
    points := d.points.filter (fun x => decide ((d.pointRange x.1).map (·.2) = some p))
    stale := d.staleRanges.filter (fun x => decide ((d.pointRange x.1).map (·.2) = some p))
    subs := d.subs.filter (fun s => decide (s.engine ∈ es))
    updates := d.inFlight.filter (fun u => decide (u.part = p)) ++
      ((d.routers.map (fun r => r.2.share ++ r.2.ring)).flatten.filter (fun u => decide (u.part = p)))
    forces := (d.part p).forces
    fdrop := d.reg (.ptrFdrop p)
    lanes := d.lanes.filter (fun x => decide (d.laneOwner x.1 = some p))
    cycle := (d.part p).cycleAt.map (fun k => d.now - k)
    ents := (es.map (fun e => [0, 1, 2, 3, 4, 5].map (fun w => ((e, w), d.reg (.evrEnt e w))))).flatten
    timers := ((List.range 1024).filter (fun n => bit (d.reg (.evrTctl n)) 31 && decide (fld (d.reg (.evrTctl n)) 27 4 = p))).map
      (fun n => (d.reg (.evrTctl n), d.reg (.evrTper n), (d.timers.find? (fun t => decide (t.1 = n))).map (·.2)))
    routes := ((List.range 4096).filter (fun n => decide (d.sourceOwner n = some p))).map (fun n => d.reg (.evrRoute n))
    cycles := ((d.part p).recorder.open_.map (·.cycles)).getD []
    instar := (d.image.map (·.instar)).getD 0
    digest := d.flashDig
    shape := d.shapeOf p
    changing := (d.part p).changing }

/-- The memories that a full checkpoint and the incremental ones after it hold together, in order (R362). -/
def memoryAfter (ss : List Snapshot) : List Host.Cell :=
  ss.foldl (fun m s => if s.full then s.mem else m.filter (fun c => decide (c.1 / 4096 ∉ s.pages)) ++ s.mem) []

/-- What an incremental checkpoint keeps of the memories: each 4 KiB page written since the previous checkpoint (R362). -/
def Snapshot.since (s : Snapshot) (old : List Host.Cell) : Snapshot :=
  let pages := ((s.mem.filter (fun c => !old.contains c) ++ old.filter (fun c => !s.mem.contains c)).map (·.1 / 4096)).dedup
  { s with full := false, pages := pages, mem := s.mem.filter (fun c => decide (c.1 / 4096 ∈ pages)) }

/-- Number the casks of a vintage that wait, from k on, in their order. -/
def renumber (v : BitVec 64) : Nat → List Cask → List Cask
  | _, [] => []
  | k, c :: cs => if c.vintage = v then { c with seq := k } :: renumber v (k + 1) cs else c :: renumber v k cs

/-- The checkpoints being copied are discarded with their casks, at a close or a reset (R363). -/
def Recorder.dropCaptures (r : Recorder) : Recorder :=
  match r.open_ with
  | none => { r with captures := [] }
  | some v =>
    if r.captures.isEmpty then r else
    let casks := renumber v.number v.committed (r.casks.filter (fun c => !(c.ckpt && decide (c.vintage = v.number))))
    { r with captures := [], casks := casks
             open_ := some { v with nextSeq := v.committed + (casks.filter (fun c => decide (c.vintage = v.number))).length } }

/-! ### Closing (R358, R363, R366 to R368) -/

/-- Close the open vintage of partition p with a reason (R358), after the PACE record of its step (R363). Under GAP a new one opens below low
water (R367), and so it does where another reason falls in the step in which the occupancy passes the high-water mark (R363); under STOP
none opens until REARM (R368). -/
def Device.closeVintage (d : Device) (p reason : Nat) : Device :=
  match (d.part p).recorder.open_ with
  | none => d
  | some _ =>
    let d := d.grantWindow
    let waits := d.aboveHigh p && decide (d.policy p ≠ 1 ∧ d.policy p ≠ 2)
    let d := d.append p recCLOSE srcModule (wordsBytes [word reason, 0])
    let d := d.onRec p (fun r =>
      let r := r.dropCaptures.flush (r.cask.length + 1)
      match r.open_ with
      | none => r
      | some v => { r with open_ := none, closed := r.closed ++ [{ v with reason := reason }]
                           wantOpen := decide (reason = 4), gapFrom := if reason = 4 then v.number else 0 })
    let d := ((d.setRegBit (.celStat p) 0 false).setRegBit (.celStat p) 1 (decide (reason = 4) || waits)).setRegBit
      (.celStat p) 2 (decide (reason = 5))
    if reason = 4 then d.bump (.celGaps p) else d

/-- Are the cask numbers of the open vintage of partition p used up but for the 65,536 that a pace period and a close could take (R355, log
entry 12)? -/
def Vintage.spent (v : Vintage) (more : Nat) : Bool := decide (0xFFFFFFFF ≤ v.nextSeq + more + 65536)

/-- HIGH_WATER: at every step, after its records, full casks are cut, the cask numbers are compared with their limit (R355) and the occupancy with
the high-water mark (R366). GAP and STOP close the vintage in that step (R367, R368); BLOCK pauses at the next admission epoch (R369). -/
def Device.highWater (d : Device) (p : Nat) : Device :=
  match (d.part p).recorder.open_ with
  | none => d
  | some _ =>
    let d := d.onRec p (fun r => Recorder.settle (d.vstep p) r.cask.length r)
    if (d.part p).recorder.open_.any (fun v => v.spent 0) then d.closeVintage p 9
    else if d.aboveHigh p then
      match d.policy p with
      | 1 => d.closeVintage p 5
      | 2 => d
      | _ => d.closeVintage p 4
    else d

/-- A checkpoint of partition p stands now: the state at the end of the step before (R359 to R362). Its casks are numbered at once and written
while the partition runs; the spec gives checkpoint data no byte format, so their bytes are a free value (log entry 12). -/
def Device.checkpoint (d : Device) (p : Nat) (full : Bool) : Device :=
  let r := (d.part p).recorder
  match r.open_ with
  | none => d
  | some v =>
    let data := Config.checkpointData d.fresh
    let d := { d with fresh := d.fresh + 1 }
    let chunks := match pieces caskPayload data.length data with | [] => [[]] | cs => cs
    if v.spent chunks.length then d.closeVintage p 9 else
    let now := d.snapshot p
    let base := match r.before with | some s => if s.taken = d.now then s else now | none => now
    let held := v.checkpoints ++ r.captures
    let snap := { base with index := held.length, vstep := d.vstep p, changing := now.changing, cycles := v.cycles, firstSeq := v.nextSeq
                            casks := chunks.length }
    let snap := if full then snap else snap.since (memoryAfter held)
    let new := (chunks.zipIdx).map (fun (x : List Byte × Nat) =>
      { vintage := v.number, seq := v.nextSeq + x.2, ckpt := true, last := false, records := [], data := x.1, step := snap.vstep
        bytes := x.1.length, retried := false : Cask })
    d.onRec p (fun r => { r with
      captures := r.captures ++ [snap], casks := r.casks ++ new, before := none
      open_ := some { v with lastCkpt := snap.vstep, nextSeq := v.nextSeq + chunks.length } })

/-- The last cask of the oldest checkpoint being copied is committed: its CHECKPOINT record is written, and a Decant may begin from it (R353,
R363, R372). -/
def Device.checkpointDone (d : Device) (p : Nat) : Device :=
  match (d.part p).recorder.captures with
  | [] => d
  | s :: ss =>
    let d := d.append p recCHECKPOINT srcModule (wordsBytes [word s.index, boolWord s.full, word s.firstSeq, word s.casks])
    let d := d.onRec p (fun r => { r with
      captures := ss, open_ := r.open_.map (fun v => ({ v with checkpoints := v.checkpoints ++ [s], ckpts := v.ckpts + 1 }).written) })
    match (d.part p).recorder.open_ with | some v => d.writeIndex v | none => d

/-! ### Opening (R31, R344, R356, R357, R367, R368) -/

/-- May partition p open a vintage now (R344, R356, R357, R367, R368)? An accepted change of mode counts from its admission epoch (R31); a drain for
Cocoon or for an ejection opens none (R37, R502). -/
def Device.mayOpen (d : Device) (p : Nat) : Bool :=
  let r := (d.part p).recorder
  d.grade.hasCellar && d.declaresRecording p && bit (d.reg (.celCtl p)) 0 && r.wantOpen && r.open_.isNone &&
  decide (d.phase = .running) && !(bit (d.reg (.celStat p)) 5) && !(bit (d.reg (.celStat p)) 2) &&
  (match d.modeNow p with | .free | .paced => true | _ => false) &&
  (!(bit (d.reg (.celStat p)) 1) || decide (r.bytes < d.quota p / 2))

/-- The place of a new vintage's index entry, freeing the oldest sealed vintages while the index is full (R370, R372). -/
def Device.nextHome (d : Device) (p : Nat) : Option (Nat × Nat) × Recorder :=
  let r := (d.part p).recorder
  r.makeRoom (d.inDecant p) (fun r => r.freeHome (d.ownNamespaces p)) r.closed.length

/-- A vintage opens with an OPEN record, its index entry and a full checkpoint (R356, R357, R372); none opens while the index of partition p's
namespaces has no place for it (R370). Its number counts the vintages opened before it in the recording epoch, from 0 (log entry 84). -/
def Device.openVintage (d : Device) (p : Nat) : Device :=
  if !d.mayOpen p then d else
  let (home, r) := d.nextHome p
  let d := d.freed p r
  if home.isNone && !(d.ownNamespaces p).isEmpty then d else
  let num : BitVec 64 := r.epoch ++ BitVec.ofNat 40 r.vintages
  let isPaced := decide (d.modeNow p = .paced)
  let ns := d.timeNs
  let v : Vintage := { number := num, part := p, paced := isPaced, opened := d.now, topen := ns, stretch := d.pace.s, follows := r.gapFrom
                       records := [], checkpoints := [], nextSeq := 0, reason := 0, isSealed := false, trunc := false, pace := false
                       committed := 0, lastCkpt := 0, home := home }
  let d := (d.onRec p (fun r => { r with open_ := some v.written, wantOpen := false, vintages := r.vintages + 1
                                         pausedPeriods := 0, gapFrom := 0 })).writeIndex v.written
  let d := (d.setReg (.celVinl p) (num.setWidth 32)).setReg (.celVinh p) (num.extractLsb' 32 32)
  let d := d.setReg (.celStat p) (boolWord true ||| (d.reg (.celStat p) &&& 0x20))
  let d := d.append p recOPEN srcModule (wordsBytes
    [boolWord isPaced, num.setWidth 32, num.extractLsb' 32 32, word ns, word (ns / 2 ^ 32),
     r.gapFrom.setWidth 32, r.gapFrom.extractLsb' 32 32])
  d.checkpoint p true

/-- Partition p wants a new vintage at the next admission epoch (R357). -/
def Device.wantVintage (d : Device) (p : Nat) : Device := d.onRec p (fun r => { r with wantOpen := true })

/-! ### Loss (R358, R372, R373) -/

/-- What the namespaces still hold when the staging ring is lost: vintages whose last cask was not committed are truncated, and
the records and checkpoints not committed are gone (R371 to R373). -/
def Recorder.lost (r : Recorder) : Recorder :=
  let gone := (r.casks.map (·.records)).flatten ++ r.cask
  { nextSlot := r.nextSlot
    closed := (r.closed ++ r.open_.toList).map (fun v =>
      if v.isSealed then v else ({ v with trunc := true, records := v.records.filter (fun x => !gone.contains x) }).written) }

/-- The index entries of partition p's vintages stand in their blocks (R371). -/
def Device.writeIndexes (d : Device) (p : Nat) : Device := foldDev (fun d v => d.writeIndex v) d (d.part p).recorder.closed

/-- Partition p's part of the staging ring is lost: the index entries of the vintages that this truncates are written (R373). -/
def Device.loseStaging (d : Device) (p : Nat) : Device :=
  (d.onRec p (fun r => { r.lost with key := r.key, epoch := r.epoch, vintages := r.vintages })).writeIndexes p

/-- On a surprise removal every open vintage ends truncated, with no CLOSE record (R358, R373). -/
def Device.truncateVintage (d : Device) (p : Nat) : Device := (d.loseStaging p).setRegBit (.celStat p) 0 false

/-! ### The records of a Decant (R380) -/

/-- The VSTEP of a Decant now. -/
def DecantRun.vstep (r : DecantRun) (now : Nat) : Nat :=
  match r.startAt with | some k => r.base + (now - k) | none => r.base

/-- In a Decant, the record of a type and source that stands at this VSTEP (R380). -/
def DecantRun.find (r : DecantRun) (now : Nat) (type src : Nat) : Option Record :=
  match r.startAt with
  | none => none
  | some k => r.left.find? (fun x => decide (x.type = type ∧ x.src = src ∧ x.vstep = r.base + (now - k)))

/-- Casks read in, at most so many, while the staging quota has room for them (R383). -/
def DecantRun.readCasks : Nat → Nat → DecantRun → DecantRun
  | 0, _, r => r
  | n + 1, room, r =>
    let x := takeFit caskPayload r.unread
    let size := (x.1.map Record.size).sum
    if x.1.isEmpty ∨ room < size then r else DecantRun.readCasks n (room - size) { r with left := r.left ++ x.1, unread := x.2 }

/-- Is a record of this step, or of one before it, not read in (R382)? -/
def DecantRun.starved (r : DecantRun) (now : Nat) : Bool := r.unread.any (fun x => decide (x.vstep ≤ r.vstep now))

/-- Forget the first record equal to one consumed. -/
def dropRecord (x : Record) : List Record → List Record
  | [] => []
  | y :: ys => if y = x then ys else y :: dropRecord x ys

/-- The partition's Decant, where it runs one. -/
def Device.decantOf (d : Device) (p : Nat) : Option DecantRun :=
  if (d.part p).mode = .decant then (d.part p).decant else none

/-- Consume a record of partition p's Decant (R380); none where it has none of this type, source and step. -/
def Device.consume (d : Device) (p type src : Nat) : Option (Record × Device) :=
  match d.decantOf p with
  | none => none
  | some r =>
    match r.find d.now type src with
    | none => none
    | some x => some (x, d.onPart p (fun q => { q with decant := some { r with left := dropRecord x r.left } }))

/-- Word i of a record's payload. -/
def Record.w (r : Record) (i : Nat) : Word := word (fromBytes ((r.payload.drop (4 * i)).take 4))

end Sys2Proof.Machine
end

