-- ==== Sys2Proof/Machine/Access.lean ====
section
/-! DEFINITION. The physical address map, who may reach what, alignment and access costs (R161 to R177, R196 to R198). -/

namespace Sys2Proof.Machine

/-- The regions of R161, each with the unit of the address. -/
inductive Region
  | scratch (e : Nat) | csram (c : Nat) | xram (c : Nat) | flash (c : Nat) | dram (stack : Nat)
  | points | mailbox | device (b : Nat)
  deriving DecidableEq, Repr

/-- An engine's own-scratchpad row names the bytes of its row in the scratchpad range (R161). -/
def canon (e a : Nat) : Nat := if a < 0x10000 then 0x100000000 + e * 0x10000 + a else a

/-- The region of a canonical physical address; none where no row of R161 covers it. -/
def regionOf (a : Nat) : Option Region :=
  if 0x100000000 ≤ a ∧ a < 0x104000000 then some (.scratch ((a - 0x100000000) / 0x10000))
  else if 0x200000000 ≤ a ∧ a < 0x210000000 then some (.csram ((a - 0x200000000) / 0x400000))
  else if 0x280000000 ≤ a ∧ a < 0x280400000 then some (.xram ((a - 0x280000000) / 0x10000))
  else if 0x300000000 ≤ a ∧ a < 0x320000000 then some (.flash ((a - 0x300000000) / 0x800000))
  else if 0x1000000000 ≤ a ∧ a < 0x2000000000 then some (.dram ((a - 0x1000000000) / 0x400000000))
  else if 0x4000000000 ≤ a ∧ a < 0x4040000000 then some .points
  else if 0xFE00000000 ≤ a ∧ a < 0xFE00010000 then some .mailbox
  else if 0xFF00000000 ≤ a ∧ a < 0xFF01000000 then some (.device ((a - 0xFF00000000) / 0x100000))
  else none

/-- Does a register belong to a unit the grade does not carry (R10, R75, R186, R267, R342, R343, R427, R495)? -/
def Reg.absent (g : Grade) (r : Reg) : Bool :=
  match r with
  | .cfgSpare c => decide (g.clusters ≤ c)
  | .cfgMrep c => decide (g.clusters ≤ c)
  | .pwrCgrant c => decide (g.clusters ≤ c)
  | .pwrTemp k => decide (k < 4) && decide (g.dies ≤ k)
  | .trlMqos m =>
    (decide (68 ≤ m ∧ m < 132) && decide (g.fieldLanes ≤ m - 68)) || (decide (134 ≤ m ∧ m < 150) && decide (g.linkLanes ≤ m - 134))
  | .idnEntry i _ => decide (64 ≤ i) && decide (g.fieldLanes ≤ (i - 64) / 32)
  | .pwrDom n =>
    (decide (n < 64) && decide (g.clusters ≤ n)) || (decide (64 ≤ n ∧ n < 68) && decide (g.dies ≤ n - 64)) ||
    (decide (68 ≤ n ∧ n < 72) && decide (g.stacks ≤ n - 68)) ||
    (decide (72 ≤ n ∧ n < 80) && decide (g.fieldLanes ≤ 8 * (n - 72))) ||
    (decide (80 ≤ n ∧ n < 82) && !g.hasCellar) || (decide (n = 82) && decide (g.linkLanes = 0))
  | .ptrShare r _ => decide (g.dies ≤ r)
  | .ptrRcoal r => decide (g.dies ≤ r)
  | .ptrRpend r => decide (g.dies ≤ r)
  | .ptrSubq _ r => decide (g.dies ≤ r)
  | .ptrSubuse _ r => decide (g.dies ≤ r)
  | .evrEnt e _ => decide (g.engines ≤ e)
  | .fldLctl n => decide (g.fieldLanes ≤ n)
  | .fldLstat n => decide (g.fieldLanes ≤ n)
  | .fldMacl n => decide (g.fieldLanes ≤ n)
  | .fldMach n => decide (g.fieldLanes ≤ n)
  | .fldWake n => decide (g.fieldLanes ≤ n)
  | .fldRxb n => decide (g.fieldLanes ≤ n)
  | .fldRxh n => decide (g.fieldLanes ≤ n)
  | .fldTxb n => decide (g.fieldLanes ≤ n)
  | .fldTxh n => decide (g.fieldLanes ≤ n)
  | .fldCnt n _ => decide (g.fieldLanes ≤ n)
  | _ => false

/-- Is a register block absent (R10, R343)? Blocks 8 and 11 are CEL and STO, 10 is LNK. -/
def blockAbsent (g : Grade) (b : Nat) : Bool :=
  ((b = 8 || b = 11) && !g.hasCellar) || (b = 10 && decide (g.linkLanes = 0))

/-- Does an offset of block 9 or 13 lie in the 0x400 bytes of an absent lane (R427), or in an identity entry of one (R455)? -/
def absentLane (g : Grade) (b off : Nat) : Bool :=
  (decide (b = 9 ∧ off < 0x10000) && decide (g.fieldLanes ≤ off / 0x400)) ||
  (decide (b = 13 ∧ 0x14000 ≤ off ∧ off < 0x94000) && decide (g.fieldLanes ≤ (off - 0x14000) / 0x2000))

/-- Does a canonical address refer to an absent unit (R162, R10)? An address inside a register refers to that register's unit. -/
def absentUnit (g : Grade) (a : Nat) : Bool :=
  match regionOf a with
  | some (.scratch e) => decide (g.engines ≤ e)
  | some (.csram c) => decide (g.clusters ≤ c)
  | some (.xram c) => decide (g.clusters ≤ c)
  | some (.flash c) => decide (g.clusters ≤ c)
  | some (.dram s) => decide (g.stacks ≤ s)
  | some (.device b) =>
    blockAbsent g b || absentLane g b (a % 0x100000) || ((Reg.ofAddr (a / 4 * 4)).map (fun r => r.absent g)).getD false
  | _ => false

/-- Who may reach a register (R196, R307, R384, R407): every ring within the block's limits; ring 0 alone; ring 0 to
write and ring 1 to read; the partition that owns it. -/
inductive RegScope | block | ringZero | readOne | ofPart (p : Nat)
  deriving DecidableEq, Repr

/-- The scope of an owned register of the Event Router (R307). -/
def ownScope (w : Word) : RegScope := if bit w 31 then .ofPart (fld w 27 4) else .ringZero

/-- The scope of a register, or ring 0 alone. -/
def scopeOf (p : Option Nat) : RegScope := match p with | some p => .ofPart p | none => .ringZero

/-- The scope of each register (R196). -/
def Device.regScope (d : Device) (r : Reg) : RegScope :=
  match r with
  | .parLock | .parNs _ => .readOne
  | .parCll p | .parClh p | .parFll p | .parFlh p | .parOwn p | .parQos p | .parWays p | .parStart p
  | .parDrb p _ | .parDrl p _ | .parMode p | .parStat p | .parCause p | .parWdctl p | .parWdkick p
  | .parDta p | .parDtb p => .ofPart p
  | .evrRoute n => ownScope (d.reg (.evrRoute n))
  | .evrTctl n | .evrTper n => ownScope (d.reg (.evrTctl n))
  | .evrEnt e _ => scopeOf (d.engPart e)
  | .evrEwlim p | .evrRaise p | .evrDrop p => .ofPart p
  | .evrMdrop => .ringZero
  | .ptrRb _ | .ptrRl _ | .ptrIxa _ | .ptrIxb _ | .ptrShare _ _ | .ptrRcoal _ | .ptrRpend _ => .ringZero
  | .ptrPcoal p | .ptrFpnt p | .ptrFval p | .ptrFctl p | .ptrFstat p | .ptrFdrop p | .ptrSubq p _ | .ptrSubuse p _ =>
    .ofPart p
  | .celKctl | .celKstat | .celKin _ => .ringZero
  | .celCtl p | .celStat p | .celVinl p | .celVinh p | .celQuota p | .celUse p | .celGaps p | .celLostrec p
  | .celDvl p | .celDvh p | .celDsrc p | .celDendl p | .celDendh p | .celDstat p | .celDvsl p | .celDvsh p | .celDloc p =>
    .ofPart p
  | .fldLctl n | .fldLstat n | .fldMacl n | .fldMach n | .fldWake n | .fldRxb n | .fldRxh n | .fldTxb n | .fldTxh n
  | .fldCnt n _ => scopeOf (d.laneOwner n)
  | .hstCtl | .hstInt | .hstIntset | .hstDbsrc | .hstStat => scopeOf d.hostOwner
  | .idnEntry i _ =>
    if i < 64 then .ofPart (fld (d.reg (.idnSeg (i / 8))) 4 4) else scopeOf (d.laneOwner ((i - 64) / 32))
  | _ => .block

/-- The ring limits of a block: highest ring that reads, highest ring that writes (R196); CAP takes a store from any ring
and ignores it. -/
def blockLimit (b : Nat) (write : Bool) : Nat :=
  match b with
  | 11 | 14 => 0
  | 0 | 1 | 2 | 4 | 10 => if write then 0 else 1
  | 3 | 5 | 6 | 8 | 9 | 12 => 1
  | 13 => if write then 1 else 2
  | 7 => if write then 0 else 3
  | _ => 3

/-- The recorded partition of a partition's Decant, where it is another one. -/
def Device.recorded (d : Device) (p : Nat) : Option Nat :=
  match d.decantOf p with
  | some r => if r.source = p then none else some r.source
  | none => none

/-- Does what a partition owns stand open to another: to itself, or to the shadow that decants its recording, for which what has no counterpart of its own
keeps its place (R377, R378; log entry 75)? -/
def Device.standsFor (d : Device) (part : Option Nat) (owner : Nat) : Bool :=
  decide (part = some owner) || (match part with | some p => decide (d.recorded p = some owner) | none => false)

/-- The detail of a register access that the ring rules do not permit; 0 for none, the lower where both the ring and the owner forbid it
(R196, R221). -/
def Device.regDetail (d : Device) (b : Nat) (r : Option Reg) (ring : Nat) (part : Option Nat) (write : Bool) : Nat :=
  let limit := if blockLimit b write < ring then 5 else 0
  if ring = 0 then 0
  else worse limit (match r with
    | none => 0
    | some r => match d.regScope r with
      | .block => 0
      | .ringZero => 5
      | .readOne => if write then 5 else 0
      | .ofPart p => if d.standsFor part p then 0 else 4)

/-- Does an enabled protected window of the engine deny the access (R197, R229)? -/
def Engine.windowDenies (x : Engine) (ring : Nat) (store : Bool) (a : Nat) : Bool :=
  [0#2, 1#2, 2#2, 3#2].any (fun j =>
    let c := (Assoc.get 0 x.pwc j).setWidth 32
    let size := min 36 (max 12 (fld c 8 5))
    bit c 0 && decide (a / 2 ^ size = (Assoc.get 0 x.pwa j).toNat * 4096 / 2 ^ size) &&
    decide ((if store then fld c 3 2 else fld c 1 2) < ring))

/-- The ring of engine e. -/
def Engine.ring (x : Engine) : Nat := x.st.ring.toNat

/-- The kinds of an lsu access (R166). -/
inductive Kind | load | store | atomic
  deriving DecidableEq, Repr

/-- What an operation does and how many bytes it takes (R169). -/
def LsuOp.kind : LsuOp → Kind
  | .ldw | .ldh | .ldhu | .ldb | .ldbu => .load
  | .stw | .sth | .stb => .store
  | _ => .atomic
def LsuOp.size : LsuOp → Nat
  | .ldh | .ldhu | .sth => 2
  | .ldb | .ldbu | .stb => 1
  | _ => 4

/-- The BUS_ERROR detail of an access of engine e to an address, windows apart; 0 for none, the lowest where several apply (R166, R167,
R196, R221). A mailbox or register access that ownership forbids is foreign. -/
def Device.busDetail (d : Device) (e a : Nat) (k : Kind) (size : Nat) : Nat :=
  let x := d.eng e
  let ca := canon e a
  let part := d.engPart e
  let own := fun (c : Nat) => decide (part = d.clusterOwner c ∧ part ≠ none)
  let foreign := fun (b : Bool) => if b then 0 else 4
  let ro := if k = .load then 0 else 6
  match regionOf ca with
  | none => 1
  | some reg =>
    if absentUnit d.grade ca then 2 else
    match reg with
    | .scratch o => foreign (decide (o = e) || own (o / 16))
    | .csram c => foreign (own c)
    | .xram c =>
      let off := ca % 0x10000
      let dir := decide (off < 0x800) || (decide (off < 0x1000) && decide (8 < off % 16 + size))
      worse (foreign (own c)) (if dir then ro else 0)
    | .flash c => worse (foreign (own c)) ro
    | .dram _ =>
      foreign (match part with | some p => d.ownsPage p ((ca - 0x1000000000) / 0x1000000) | none => false)
    | .points =>
      worse (foreign (decide ((d.pointRange ((ca - 0x4000000000) / 32)).map (·.2) = part ∧ part ≠ none))) ro
    | .mailbox => foreign (match d.hostOwner with | some p => d.standsFor part p | none => false)
    | .device b =>
      let form := if k = .atomic ∨ size ≠ 4 ∨ ca % 4 ≠ 0 then 7 else 0
      worse (d.regDetail b (Reg.ofAddr (ca / 4 * 4)) x.ring part (decide (k ≠ .load))) form

/-- The MISALIGNED detail of an lsu access; 0 for none (R172, R221). The offset wraps within its page, so a crossing of the
page end is the larger offset's. -/
def alignDetail (a size : Nat) (atomic : Bool) : Nat :=
  if 0x100000 < a % 0x100000 + size then 2
  else if a % 64 + size > 64 then 1
  else if atomic ∧ a % 4 ≠ 0 then 3
  else 0

/-- The extra steps of an access that is not aligned, and of an atomic (R172, R173). -/
def extraSteps (a size : Nat) (atomic : Bool) : Nat :=
  (if a % size = 0 then 0 else if a % 8 + size ≤ 8 then 1 else 2) + (if atomic then 2 else 0)

/-- The Paced base cost of a region and its spacing class (R174). -/
def pacedCost (e ca : Nat) : Nat × Spacing :=
  let far := fun (c base : Nat) =>
    if c = e / 16 then (base, Spacing.none)
    else if c / 16 = e / 256 then (base + 13, .near)
    else (base + 29, .near)
  match regionOf ca with
  | some (.scratch o) => if o = e then (2, .none) else far (o / 16) 9
  | some (.csram c) => far c 7
  | some (.xram c) => far c 8
  | some (.dram _) => (72, .io)
  | some .points => (72, .io)
  | _ => (48, .io)

/-- The worst base cost of a region in Free mode and Recovery (R177); `hit` says that the DRAM cache holds the line. -/
def freeWorst (e ca : Nat) (hit : Bool) : Nat :=
  let far := fun (c base : Nat) => if c = e / 16 then base else if c / 16 = e / 256 then base + 40 else base + 120
  match regionOf ca with
  | some (.scratch o) => if o = e then 2 else far (o / 16) 14
  | some (.csram c) => far c 14
  | some (.xram c) => far c 16
  | some (.flash _) => 120
  | some (.dram _) => if hit then 60 else 1200
  | some .points => 1200
  | _ => 400

/-- Is the unit of an address out of service or not admitted (R74, R168, R401)? -/
def Device.offline (d : Device) (ca : Nat) : Bool :=
  let cl := fun (c : Nat) =>
    maskBit (d.reg .trlOffcl) (d.reg .trlOffch) c || bit (d.reg (.cfgSpare c)) 11
  match regionOf ca with
  | some (.scratch o) => cl (o / 16)
  | some (.csram c) => cl c
  | some (.xram c) => cl c
  | some (.dram s) => bit (d.reg .trlOffx) s
  | some .points => bit (d.reg .trlOffx) (d.grade.stacks - 1)
  | _ => false

/-- The physical address of a code address of cluster c; none where it holds nothing (R135). -/
def Device.codeAddr (d : Device) (c : Nat) (a : Word) : Option Nat :=
  let sram := match d.image with | some i => Assoc.get 0 i.layout.codeSram c | none => 0
  if a.toNat < sram then some (0x200000000 + c * 0x400000 + a.toNat)
  else if 0x800000 ≤ a.toNat ∧ a.toNat < 0x1000000 then some (0x300000000 + c * 0x800000 + (a.toNat - 0x800000))
  else none

/-- Is a code address in the code-flash window (R144)? -/
def inFlash (a : Word) : Bool := decide (0x800000 ≤ a.toNat ∧ a.toNat < 0x1000000)

/-- Has an uncorrectable error struck a check word of [a, a + n) (R185)? -/
def Device.uncorrectable (d : Device) (a n : Nat) : Bool :=
  d.marks.any (fun m => decide (m.2 = .uncorrectable) && decide (m.1 / 8 * 8 < a + n ∧ a < m.1 / 8 * 8 + 8))

/-- The partition whose memory an address lies in. -/
def Device.addrPart (d : Device) (a : Nat) : Option Nat :=
  match regionOf a with
  | some (.scratch e) => d.clusterOwner (e / 16)
  | some (.csram c) => d.clusterOwner c
  | some (.xram c) => d.clusterOwner c
  | some (.flash c) => d.clusterOwner c
  | some (.dram _) => d.pageOwner ((a - 0x1000000000) / 0x1000000)
  | some .points => (d.pointRange ((a - 0x4000000000) / 32)).map (·.2)
  | some .mailbox => d.hostOwner
  | _ => none

/-- An uncorrectable error is met at an address: it is counted (R185, R187) and the source 0x0F0 + p is raised (R299). -/
def Device.eccError (d : Device) (a : Nat) : Device :=
  let d := d.bump .cfgEcccnt 16 16
  match d.addrPart a with | some p => d.raise (0xF0 + p) | none => d

/-- Single-bit errors in the check words of a read are corrected, written back and counted (R184). -/
def Device.correct (d : Device) (a n : Nat) : Bool × Device :=
  let hit := d.marks.filter (fun m => decide (m.2 = .single ∧ m.1 / 8 * 8 < a + n ∧ a < m.1 / 8 * 8 + 8))
  (!hit.isEmpty, foldDev (fun d _ => d.bump .cfgEcccnt 0 16) { d with marks := d.marks.filter (fun m => !hit.contains m) } hit)

/-- A read of n bytes corrects what it meets (R184). -/
def Device.readOver (d : Device) (a n : Nat) : Device := (d.correct a n).2

/-- What has struck the check words of [lo, lo + len) is gone: they are written whole. -/
def Device.dropMarks (d : Device) (lo len : Nat) : Device :=
  { d with marks := d.marks.filter (fun m => !(decide (lo ≤ m.1 / 8 * 8 ∧ m.1 / 8 * 8 < lo + len))) }

/-- Has an error struck a check word of [a, a + n)? -/
def Device.marked (d : Device) (a n : Nat) : Bool := d.marks.any (fun m => decide (m.1 / 8 * 8 < a + n ∧ a < m.1 / 8 * 8 + 8))

/-- A store of a master that is no engine: a check word with an uncorrectable error is left unchanged and counted (R185). One with a single-bit error
is corrected and counted where the store reads it to merge its bytes (R184), and gets valid check bits where the store covers it. -/
def Device.storeBytes (d : Device) (a : Nat) (bs : List Byte) : Device :=
  if !d.marked a bs.length then d.writeBytes a bs
  else foldDev (fun d k =>
    let w := 8 * (a / 8 + k)
    let lo := max a w
    let part := (bs.drop (lo - a)).take (w + 8 - lo)
    if d.uncorrectable w 8 then d.eccError w
    else (if part.length = 8 then d.dropMarks w 8 else d.readOver w 8).writeBytes lo part) d
    (List.range ((a % 8 + bs.length + 7) / 8))

/-- A word stored by a master that is no engine. -/
def Device.storeWord (d : Device) (a : Nat) (w : Word) : Device := d.storeBytes a (toBytes 4 w.toNat)

/-- The same of an access that was not performed; an uncorrectable error is counted too (R185). -/
def Device.logError (d : Device) (part : Option Nat) (master status a : Nat) : Device :=
  (if status = 9 then d.eccError a else d).logStatus part master status a

/-- A store of a master on behalf of a partition (R185, R394): one into a check word with an uncorrectable error is not performed, is counted,
and its status ECC is logged. -/
def Device.storeFor (d : Device) (part : Option Nat) (master a : Nat) (bs : List Byte) : Device :=
  let s := d.storeBytes a bs
  match (List.range ((a % 8 + bs.length + 7) / 8)).find? (fun k => d.uncorrectable (8 * (a / 8 + k)) 8) with
  | some k => s.logStatus part master 9 (8 * (a / 8 + k))
  | none => s

/-! ### The point store window (R236) -/

/-- The index of a point's first subscription plus one, or 0 (R236). -/
def Device.subref (d : Device) (pt : Nat) : Nat :=
  match d.subs.find? (fun s => decide (s.point = pt)) with | some s => s.index + 1 | none => 0

/-- A word of a descriptor in the point store window (R236). -/
def Device.pointWord (d : Device) (pt off : Nat) : Word :=
  let p := d.point pt
  match off / 4 with
  | 0 => p.value
  | 1 => p.aux
  | 2 => p.squal.setWidth 32 ||| (p.owner.setWidth 32 <<< 16)
  | 3 => p.stamp.setWidth 32
  | 4 => word (p.stamp.toNat / 2 ^ 32)
  | 5 => p.seq
  | 6 => word (d.subref pt)
  | _ => 0

/-- The bytes that an address names, in memory or in the point store window, where an access may run on into the next descriptor
(R169, R172, R236). -/
def Device.windowBytes (d : Device) (a n : Nat) : List Byte :=
  match regionOf a with
  | some .points =>
    let pt := (a - 0x4000000000) / 32
    ((wordsBytes ((List.range 16).map (fun i => d.pointWord (pt + i / 8) (4 * (i % 8))))).drop (a % 32)).take n
  | _ => d.bytes a n

/-! ### The DRAM cache (R176, R178) -/

/-- The lines that one of the 16 ways holds: 2 MiB of 64 bytes. -/
def wayLines : Nat := 32768

/-- Does the DRAM cache hold the line of an address? -/
def Device.cached (d : Device) (a : Nat) : Bool := d.cache.any (fun l => decide (l.line = a / 64))

/-- Put back a line that leaves the cache: a dirty one is written to its stack, so nothing of it stands apart from the memory. -/
def Device.evict (d : Device) (gone : CacheLine → Bool) : Device := { d with cache := d.cache.filter (fun l => !gone l) }

/-- Write a partition's dirty lines to DRAM and empty its ways (R178). -/
def Device.writeBack (d : Device) (p : Nat) : Device := d.evict (fun l => decide (l.part = p))

/-- The next free choice of the cache for partition p: it depends on no access of another partition (R178). -/
def Device.cachePick (d : Device) (p : Nat) : Word × Device :=
  let k := Assoc.get 0 d.cachePicks p
  (Config.cachePick p k, { d with cachePicks := Assoc.put d.cachePicks p (k + 1) })

/-- A line joins the cache in way w of partition p; a full way gives up one of its lines, by a free choice (R178). -/
def Device.fillLine (d : Device) (p w line : Nat) : Device :=
  let (f, d) := d.cachePick p
  let held := d.cache.filter (fun l => decide (l.way = w))
  let d := if held.length < wayLines then d else
    match held[f.toNat % held.length]? with | some v => d.evict (fun l => decide (l = v)) | none => d
  { d with cache := d.cache ++ [{ line := line, way := w, part := p, stack := none }] }

/-- An access of a Free or Recovery partition to module DRAM goes through its ways: it fills a line, and a store makes the line dirty, with what
the stack holds of it kept beside it (R178). In Paced and Decant the cache is not used (R176). -/
def Device.throughCache (d : Device) (p : Option Nat) (a : Nat) (store : Bool) : Device :=
  match p, regionOf a with
  | some p, some (.dram _) =>
    let ways := (List.range 16).filter (fun w => bit (d.reg (.parWays p)) w)
    if d.pacedPart p || ways.isEmpty then d else
    let d := if d.cached a then d else
      let (f, d) := d.cachePick p
      d.fillLine p (ways.getD (f.toNat % ways.length) 0) (a / 64)
    if store then
      { d with cache := d.cache.map (fun l =>
          if l.line = a / 64 ∧ l.stack = none then { l with stack := some (d.bytes (a / 64 * 64) 64) } else l) }
    else d
  | _, _ => d

/-- Read n bytes of a table with partition visibility and without windows; none where the read is foreign, fails or is
uncorrectable (R199 to R201, R209). -/
def Device.tableRead (d : Device) (e a n : Nat) : Option (List Byte) :=
  let ca := canon e a
  let part := d.engPart e
  let own := fun (c : Nat) => decide (part = d.clusterOwner c ∧ part ≠ none)
  let ok := match regionOf ca with
    | some (.scratch o) => decide (o = e) || own (o / 16)
    | some (.csram c) => own c
    | some (.xram c) => own c
    | some (.flash c) => own c
    | some (.dram _) => match part with | some p => d.ownsPage p ((ca - 0x1000000000) / 0x1000000) | none => false
    | some .points => decide ((d.pointRange ((ca - 0x4000000000) / 32)).map (·.2) = part ∧ part ≠ none)
    | some .mailbox => decide (d.hostOwner = part ∧ part ≠ none)
    | _ => false
  if ok && !absentUnit d.grade ca && !d.offline ca && !d.uncorrectable ca n then some (d.windowBytes ca n) else none

end Sys2Proof.Machine
end

