-- ==== Sys2Proof/Machine/ResetOps.lean ====
section
/-! DEFINITION. What asserting a reset source does (R264, R284 to R286, R395, R482 to R489, R510). The commands that
assert and release sources are in Reset.lean. -/

namespace Sys2Proof.Machine

/-! ### Channel queues (R273 to R276) -/

/-- The exchange RAM of cluster c. -/
def xramBase (c : Nat) : Nat := 0x280000000 + c * 0x10000

/-- The queue header of channel n of engine e (R273). -/
def chHeader (e n : Nat) : Nat := xramBase (e / 16) + 0x800 + 0x80 * (e % 16) + 0x10 * n

/-- The peer-reset vector of engine e (R273). -/
def peerVector (e : Nat) : Nat := xramBase (e / 16) + 0x80 * (e % 16)

/-- Count n lost messages of a channel, saturating (R274). -/
def Device.chLost (d : Device) (h n : Nat) : Device :=
  let w := d.loadWord (h + 8)
  d.storeWord (h + 8) (setFld w 0 16 (min 0xFFFF (fld w 0 16 + n)))

/-- Discard the queued messages of a channel and count them in LOST (R274, R284, R286). -/
def Device.chEmpty (d : Device) (h : Nat) : Device :=
  let n := fld (d.loadWord (h + 12)) 0 9
  (d.chLost h n).storeWord (h + 12) 0

/-- Posts in flight to engine e (triggered, not completed) are discarded and counted, those that have landed with the queue that holds them; each
of their sends completes with status DISCARDED, but for those that were refused (R276, R284). -/
def Device.discardPosts (d : Device) (e : Nat) : Device :=
  foldDev (fun d k =>
    let x := d.eng k
    let hit := fun (c : ChRun) => !c.recv && c.last && decide (fld c.dst 0 10 = e) &&
      (match c.landed with | none => true | some st => decide (st = 1 ∨ st = 2))
    if x.ch.any hit then
      let d := foldDev (fun d c => if hit c && c.landed.isNone then d.chLost (chHeader e (fld c.dst 10 3)) 1 else d) d x.ch
      d.onEng k (fun x => { x with ch := x.ch.map (fun c => if hit c then { c with landed := some 0xA } else c) })
    else d) d (d.engines.map (·.1))

/-! ### Points -/

/-- Set STALE on a range of points: those listed and those never written (R239). -/
def Device.markStale (d : Device) (lo hi : Nat) : Device :=
  { d with points := d.points.map (fun x =>
             if lo ≤ x.1 ∧ x.1 ≤ hi then (x.1, { x.2 with squal := x.2.squal ||| 2 }) else x)
           staleRanges := (lo, hi) :: d.staleRanges }

/-- Set STALE on every point of partition p's ranges (R239). -/
def Device.markRangesStale (d : Device) (p : Nat) : Device :=
  foldDev (fun d n =>
    if bit (d.reg (.ptrRl n)) 31 && decide (fld (d.reg (.ptrRl n)) 20 4 = p) then
      d.markStale (fld (d.reg (.ptrRb n)) 0 13 * 4096) (fld (d.reg (.ptrRl n)) 0 13 * 4096 + 4095)
    else d) d (List.range 64)

/-- Set STALE on every export point of partition p (R26, R239, R502). -/
def Device.markExportsStale (d : Device) (p : Nat) : Device :=
  foldDev (fun d n =>
    let lo := fld (d.reg (.ptrIxa n)) 0 25
    if bit (d.reg (.ptrIxb n)) 31 && decide ((d.pointRange lo).map (·.2) = some p) then
      d.markStale lo (lo + fld (d.reg (.ptrIxb n)) 0 16)
    else d) d (List.range 256)

/-- Remove subscriptions and lower PTR.SUBUSE (R257, R269). -/
def Device.dropSubs (d : Device) (gone : Subscription → Bool) : Device :=
  let d := foldDev (fun d s =>
    if gone s then
      match d.pointRange s.point, d.engPart s.engine with
      | some (r, _), some p => d.setRegFld (.ptrSubuse p r) 0 21 (fld (d.reg (.ptrSubuse p r)) 0 21 - 1)
      | _, _ => d
    else d) d d.subs
  { d with subs := d.subs.filter (fun s => !gone s) }

/-! ### Reaches (R483) -/

/-- Engine reach: the registers, ports, system registers, fetch state, subscriptions and queues of one engine. Messages whose
last send was triggered are still posted (R285); its shared-unit requests run on and do nothing (R52). Its event latches
and its token count are no part of the reach. -/
def Device.resetEngine (d : Device) (e : Nat) (reach : Nat) : Device :=
  let x := d.eng e
  let fresh : Engine :=
    { step := x.step, period := x.period, tokens := x.tokens, events := x.events, nextCtx := x.nextCtx + 1
      ch := (x.ch.filter (fun c => !c.recv && c.last)).map (fun c => { c with ctx := x.nextCtx })
      tasks := x.tasks.map (fun t => { t with ctx := x.nextCtx }) }
  let d := d.setEng e fresh
  let d := { d with
    enginesReset := Assoc.put d.enginesReset e (max reach (Assoc.get 0 d.enginesReset e))
    lineDue := d.lineDue.filter (fun x => decide (x.2.1 ≠ e))
    targets := d.targets.map (fun (t : Nat × Target) => (t.1, { t.2 with waiting := t.2.waiting.filter (fun r => decide (r.owner.engine ≠ some e)) })) }
  let d := d.dropSubs (fun s => decide (s.engine = e))
  let kill := fun (u : Unit3) => { u with
    queue := u.queue.map (fun r => if r.engine = e then { r with dead := true } else r)
    service := u.service.map (fun s => if s.req.engine = e then { s with req := { s.req with dead := true } } else s) }
  let d := d.onCluster (e / 16) (fun c => { c with
    kin := kill c.kin, ipl := kill c.ipl, bmv := kill c.bmv
    parked := c.parked.filter (fun k => decide (k.req.engine ≠ e)) })
  let d := foldDev (fun d n => d.chEmpty (chHeader e n)) (d.discardPosts e) [0, 1, 2, 3, 4, 5, 6, 7]
  if reach < 3 then d.storeBytes (peerVector e) (List.replicate 128 0xFF)
  else d.storeBytes (peerVector e) (List.replicate 128 0)

/-- Cluster reach: its engines, its shared units' queues and its task slots; memories and the count of its bmv reserve are kept. -/
def Device.resetCluster (d : Device) (c reach : Nat) : Device :=
  let d := foldDev (fun d i => d.resetEngine (16 * c + i) reach) d (List.range 16)
  let d := foldDev (fun d i => d.onEng (16 * c + i) (fun x => { x with tasks := [] })) d (List.range 16)
  d.onCluster c (fun k => { bmvTokens := k.bmvTokens })

/-- The probe selections that depend on a condition that ends are dropped (R510): those of the partition's clusters, and
every module probe. -/
def Device.dropProbes (d : Device) (p : Nat) : Device :=
  foldDev (fun d k =>
    let w := d.reg (.tmxSel k)
    let n := fld w 0 13
    if bit w 31 && (decide (8064 ≤ n) || decide (d.clusterOwner (n / 126) = some p)) then
      (d.setRegBit (.tmxSel k) 31 false).setRegBit .tmxStat (8 + k) true
    else d) d [0, 1, 2, 3, 4, 5, 6, 7]

/-- The value of a mode in PAR.MODE.CUR (R409). -/
def Mode.code : Mode → Nat | .held => 0 | .free => 1 | .paced => 2 | .decant => 3 | .recovery => 4

/-- Partition reach (R264, R286, R395, R483): its clusters, its pending updates and deliveries, its queues, its open
vintage, its pending mode request (R34), its watchdog (R408); the fence epoch steps on. Forces and memories are kept; a force accepted and not applied
is dropped (log entry 79). -/
def Device.resetPart (d : Device) (p reach : Nat) : Device :=
  let d := d.closeVintage p 3
  let d := d.dropProbes p
  let d := foldDev (fun d c => d.resetCluster c (max reach 3)) d (d.partClusters p)
  let d := d.markRangesStale p
  let keepU := fun (u : Update) => decide (u.part ≠ p)
  let d := { d with
    inFlight := d.inFlight.filter keepU
    routers := d.routers.map (fun (r : Nat × Router) => (r.1, { r.2 with
      share := r.2.share.filter keepU, ring := r.2.ring.filter keepU
      notices := r.2.notices.filter (fun n => decide (n.part ≠ p)) }))
    targets := d.targets.map (fun (t : Nat × Target) => (t.1, { t.2 with waiting := t.2.waiting.filter (fun w => decide (w.part ≠ some p)) }))
    host := if d.hostOwner = some p then { d.host with busyLow := true } else d.host
    lineDue := d.lineDue.filter (fun x => decide (d.engPart x.2.1 ≠ some p)) }
  let d := (d.setRegBit (.parWdctl p) 31 false).setRegBit .tmxStat (16 + p) false
  let d := if reach ≥ 4 then d.setRegBit (.parCause p) 5 true else d
  let d := foldDev (fun d n => (d.setRegBit (.fldLstat n) 1 false).setRegBit (.fldLstat n) 2 false) d (d.partLanes p)
  d.onPart p (fun x => { x with
    mode := .held, changing := none, fence := true, epoch := x.epoch + 1
    reason := if x.pending.isSome then 8 else x.reason, pending := none
    escalated := if reach ≥ 4 then false else x.escalated
    widest := max reach x.widest, wdCount := 0, wdPre := false, scrubbing := false, scrubEntry := false, cycleAt := none, nextTick := none
    forceQueue := [], forcesDue := 0, decant := none })

/-- The registers a reach of Core or wider returns to their Reset column (R483, R489, R408). -/
def Reg.resetBy (reach : Nat) (r : Reg) : Bool :=
  match r with
  | .parCause _ => decide (6 ≤ reach)
  | .pwrTemp _ | .pwrVin | .pwrPin => false
  | _ => match r.block with
    | .rst => decide (5 ≤ reach) && decide (r ≠ .rstCause) && decide (r ≠ .rstStat)
    | .par | .trl | .evr | .ptr => true
    | _ => decide (5 ≤ reach)

/-- Core reach: every partition, the tables, routers, Trellis, Event Router and timers; forces are kept (R266). -/
def Device.resetCore (d : Device) (reach : Nat) : Device :=
  let d := foldDev (fun d p => if d.valid p then d.resetPart p reach else d) d partNumbers
  { d with
    phase := match d.phase with | .off => .off | .ejectDrain => .ejectDrain | .ejected => .ejected | .sealing => .sealing | .noimage => .noimage | _ => .configure
    stage := none
    regs := d.regs.filter (fun r => !r.1.resetBy reach)
    routers := [], targets := [], raises := [], heldRaises := [], lineDue := [], timers := [], inFlight := [], subs := []
    parts := d.parts.map (fun x => (x.1, { forces := x.2.forces, recorder := x.2.recorder, reason := x.2.reason, widest := max reach x.2.widest, epoch := x.2.epoch, fence := x.2.fence }))
    engines := d.engines.map (fun x => (x.1, { step := x.2.step, period := x.2.period, nextCtx := x.2.nextCtx }))
    clusters := [], returning := [] }

/-- The pace generator after a reset of Module reach: PCNT is 0 (R310). -/
def Pace.restart (x : Pace) : Pace :=
  let b := (x.pcnt + 65535) / 65536 * 65536
  { pcnt := b, base := b, windowNext := b / 64, epochNext := b / 65536 }

/-- Do EXTEST, CLAMP and HIGHZ take effect (R511)? -/
def Device.scanOpen (d : Device) : Bool := decide (d.phase = .noimage) || d.pins.resetLow

/-- An EXTEST, CLAMP or HIGHZ that may no longer take effect acts as BYPASS, and MSTAT.REFUSED is set (R511). -/
def Device.closeScan (d : Device) : Device :=
  if d.scanOpen then d else
  match d.tap.ir with
  | .extest | .clamp | .highz => { d with tap := { d.tap with ir := .bypass, refused := true } }
  | _ => d

/-- Module reach: all but the AUX domain: TICK, PCNT, forces, lanes, links, ports, the loaded image (R483, R328). The fence epochs step on as in every
reach that covers a partition (R395). A seal runs on (R506). -/
def Device.resetModule (d : Device) (reach : Nat) : Device :=
  let d := d.resetCore reach
  let d := Device.closeScan { d with
    pace := d.pace.restart, phase := if d.phase = .sealing then .sealing else .off
    pins := { d.pins with removeOk := false }, image := none, lanes := [], links := [], namespaces := [], ids := [], scanning := []
    host := {}, qcmd := none, mwdCount := 0, mwdPre := false, ejectStopped := decide (d.phase = .sealing), points := [], staleRanges := []
    engines := [], enginesReset := []
    parts := d.parts.map (fun x => (x.1, {
      reason := x.2.reason, widest := max reach x.2.widest, recorder := x.2.recorder.lost, epoch := x.2.epoch, fence := x.2.fence })) }
  foldDev (fun d p => d.writeIndexes p) d partNumbers

/-- Cold reach: also the AUX domain and the spares mapped by self-test; key store and anchor are kept (R483). -/
def Device.resetCold (d : Device) : Device :=
  let d := d.resetModule 6
  { d with failedSlots := [], tap := {} }

/-- A reset covers an engine of cluster c: the vintage of its partition closes (R358). -/
def Device.closeForReset (d : Device) (c : Nat) : Device := match d.clusterOwner c with | some p => d.closeVintage p 3 | none => d

/-- What a reach with its target covers is reset (R483). -/
def Device.applyReach (d : Device) (reach target : Nat) : Device :=
  match reach with
  | 1 => (d.closeForReset (target / 16)).resetEngine target 1
  | 2 => (d.closeForReset target).resetCluster target 2
  | 3 => d.resetPart target 3
  | 4 => d.resetCore 4
  | 5 => d.resetModule 5
  | _ => d.resetCold

/-- Does an asserted source cover any part of partition p (R24, R487)? -/
def Device.partCovered (d : Device) (p : Nat) : Bool :=
  d.sources.any (fun s =>
    decide (4 ≤ s.reach) || (decide (s.reach = 3) && decide (s.target = p)) ||
    (decide (s.reach = 2) && d.ownsCluster p s.target) || (decide (s.reach = 1) && decide (d.engPart s.target = some p)))

/-- Is partition p held: not released, or covered in part by an asserted reset (R24)? -/
def Device.heldNow (d : Device) (p : Nat) : Bool := !d.released p || d.partCovered p

/-- Does a wider source that is asserted cover a target (R486)? -/
def Device.governed (d : Device) (reach target : Nat) : Bool :=
  d.sources.any (fun s => decide (reach < s.reach) && (decide (4 ≤ s.reach) || match reach with
    | 1 => (decide (s.reach = 2) && decide (target / 16 = s.target)) || (decide (s.reach = 3) && decide (d.engPart target = some s.target))
    | 2 => decide (s.reach = 3) && decide (d.clusterOwner target = some s.target)
    | _ => false))

/-- RESET_ASSERT (R482, R486, R489): the source is asserted, its cause bit set, what it covers is reset. A Cold reset clears
RST.CAUSE and PAR.CAUSE and then sets its own bit. A mode request of a partition that is now held is discarded (R34, R35). -/
def Device.assertSource (d : Device) (cause reach target : Nat) (cond : Bool) : Device :=
  let under := d.governed reach target
  let d := d.applyReach reach target
  let d := if reach = 6 then d.setReg .rstCause 0 else d
  let d := d.setRegBit .rstCause cause true
  let d := if under then d else d.setReg .rstStat (word (cause * 256 + 8 + reach))
  let same := fun (s : Source) => decide (s.cause = cause ∧ s.reach = reach ∧ s.target = target)
  let d := { d with sources := d.sources.filter (fun s => !same s) ++ ([{ cause := cause, reach := reach, target := target, cond := cond }] : List Source) }
  { d with parts := d.parts.map (fun (x : Nat × Part) =>
      if x.2.pending.isSome && d.partCovered x.1 then (x.1, { x.2 with pending := none, reason := 8 }) else x) }

/-- Does an asserted source cover engine e (R486)? -/
def Device.engineCovered (d : Device) (e : Nat) : Bool :=
  d.sources.any (fun s =>
    decide (4 ≤ s.reach) || (decide (s.reach = 3) && decide (d.engPart e = some s.target)) ||
    (decide (s.reach = 2) && decide (e / 16 = s.target)) || (decide (s.reach = 1) && decide (e = s.target)))

end Sys2Proof.Machine
end

