-- ==== Sys2Proof/Machine/Entry.lean ====
section
/-! DEFINITION. Results and contexts of an engine, transfers of control, and taking an event, a fault, a trap or an escalation
(R58 to R67, R145 to R150, R207 to R220, R520). Every entry goes through `Device.takeCause` or `Device.enterLevel`. -/

namespace Sys2Proof.Machine

/-! ### Results (R58 to R66, R520) -/

/-- Put results into a table of result ports, readable. -/
def putResults : Assoc ResPort Result → List (ResPort × Word) → Assoc ResPort Result
  | t, [] => t
  | t, (p, v) :: ws => putResults (Assoc.put t p { value := v, readable := true }) ws

/-- The save set that holds a context, if one does (R520). -/
def Engine.setOf (x : Engine) (ctx : Nat) : Option (BitVec 2) :=
  [1#2, 2#2, 3#2].find? (fun n => decide ((Assoc.get {} x.save n).ctx = some ctx))

/-- Results of a context go to the ports while it runs, to its shadow while it is interrupted, and are lost once it ended. -/
def Engine.commit (x : Engine) (ctx : Nat) (ws : List (ResPort × Word)) : Engine :=
  if ctx = x.ctx then { x with res := putResults x.res ws }
  else match x.setOf ctx with
    | none => x
    | some n =>
      let s := Assoc.get {} x.save n
      { x with save := Assoc.put x.save n { s with shadow := putResults s.shadow ws } }

/-- Set sticky flags at a step (R109, R110). -/
def Engine.setFlags (x : Engine) (s : Nat) (f : BitVec 9) : Engine :=
  { x with acst := x.acst ||| f, flagsAt := s, flagsNew := if x.flagsAt = s then x.flagsNew ||| f else f }

/-- Complete a list of short operations. -/
def Engine.finishShort (x : Engine) : List ShortOp → Engine
  | [] => x
  | o :: os => Engine.finishShort ((x.commit o.ctx o.writes).setFlags o.due o.flags) os

/-- Make a result port unreadable (R59). -/
def Engine.close (x : Engine) (p : ResPort) : Engine :=
  { x with res := Assoc.put x.res p { (Assoc.get {} x.res p) with readable := false } }

/-- A result port of a context becomes unreadable: its window is that of a port that a newer result has been written to, or the operation completed
without a result (R58, R129, R168). -/
def Engine.closeIn (x : Engine) (ctx : Nat) (p : ResPort) : Engine :=
  if ctx = x.ctx then x.close p
  else match x.setOf ctx with
    | none => x
    | some n =>
      let s := Assoc.get {} x.save n
      { x with save := Assoc.put x.save n { s with shadow := Assoc.put s.shadow p { (Assoc.get {} s.shadow p) with readable := false } } }

/-- The context that answers for an operation of a context: its own, or, where that has ended at a return, the restored one (R520). -/
def Engine.heir (x : Engine) (ctx : Nat) : Nat := Assoc.get ctx x.heirs ctx

/-- A context ends at the return to another: what it left outstanding, and its pending completion faults, are answered for by that one (R520). -/
def Engine.inherit (x : Engine) (gone to_ : Nat) : Engine :=
  if gone = to_ then x else
  let heirs := Assoc.put (x.heirs.map (fun h => if h.2 = gone then (h.1, to_) else h)) gone to_
  { x with
    heirs := heirs.filter (fun h => x.lsu.any (fun l => decide (l.ctx = h.1)))
    pendingFaults := x.pendingFaults.map (fun f => if f.completion && decide (f.ctx = gone) then { f with ctx := to_ } else f) }

/-! ### The recorded space of a Decant (R378) -/

/-- A point number from the space of one partition to that of another. -/
def Device.mapPoint (d : Device) (from_ to_ pt : Nat) : Nat :=
  mapList (d.blockList from_) (d.blockList to_) (pt / 4096) * 4096 + pt % 4096

/-- An engine number from the space of one partition to that of another. -/
def Device.mapEngine (d : Device) (from_ to_ e : Nat) : Nat :=
  mapList (d.partClusters from_) (d.partClusters to_) (e / 16) * 16 + e % 16

/-- A canonical address from the space of one partition to that of another. -/
def Device.mapAddr (d : Device) (from_ to_ a : Nat) : Nat :=
  let cl := mapList (d.partClusters from_) (d.partClusters to_)
  match regionOf a with
  | some (.scratch o) => 0x100000000 + (cl (o / 16) * 16 + o % 16) * 0x10000 + a % 0x10000
  | some (.csram c) => 0x200000000 + cl c * 0x400000 + a % 0x400000
  | some (.xram c) => 0x280000000 + cl c * 0x10000 + a % 0x10000
  | some (.flash c) => 0x300000000 + cl c * 0x800000 + a % 0x800000
  | some (.dram _) =>
    0x1000000000 + mapList (d.pageList from_) (d.pageList to_) ((a - 0x1000000000) / 0x1000000) * 0x1000000 + a % 0x1000000
  | some .points => 0x4000000000 + 32 * d.mapPoint from_ to_ ((a - 0x4000000000) / 32) + a % 32
  | some (.device b) =>
    let off := a % 0x100000
    let moved := fun (r : Reg) => (r.addr) + a % 4
    let lane := mapList (d.partLanes from_) (d.partLanes to_)
    if b = 5 ∧ off < 0x8000 then
      let timers := mapList (d.ownedTimers from_) (d.ownedTimers to_)
      match Reg.ofAddr (a / 4 * 4) with
      | some (.evrRoute n) => moved (.evrRoute (mapList (d.ownedSources from_) (d.ownedSources to_) n))
      | some (.evrTctl n) => moved (.evrTctl (timers n))
      | some (.evrTper n) => moved (.evrTper (timers n))
      | _ => a
    else if b = 9 ∧ off < 0x10000 then a - off + 0x400 * lane (off / 0x400) + off % 0x400
    else if b = 13 ∧ 0x14000 ≤ off ∧ off < 0x94000 then
      a - off + 0x14000 + 0x2000 * lane ((off - 0x14000) / 0x2000) + (off - 0x14000) % 0x2000
    else if (b = 3 ∨ b = 5 ∨ b = 6 ∨ b = 8) ∧ 0x10000 ≤ off ∧ off < 0x11000 ∧ (off - 0x10000) / 0x100 = from_ then
      a - 0x100 * from_ + 0x100 * to_
    else if b = 5 ∧ 0x8000 ≤ off ∧ off < 0x10000 then
      a - off + 0x8000 + 0x20 * d.mapEngine from_ to_ ((off - 0x8000) / 0x20) + off % 0x20
    else a
  | _ => a

/-- The canonical address that an address of engine e names (R161, R378). -/
def Device.place (d : Device) (e a : Nat) : Nat :=
  let ca := canon e a
  if a < 0x10000 then ca else
  match d.engPart e with
  | none => ca
  | some p => match d.recorded p with | some q => d.mapAddr q p ca | none => ca

/-- The point a point number of engine e names (R378). -/
def Device.placePoint (d : Device) (e pt : Nat) : Nat :=
  match d.engPart e with
  | none => pt
  | some p => match d.recorded p with | some q => d.mapPoint q p pt | none => pt

/-- The engine an engine number of engine e names (R378). -/
def Device.placeEngine (d : Device) (e k : Nat) : Nat :=
  match d.engPart e with
  | none => k
  | some p => match d.recorded p with | some q => d.mapEngine q p k | none => k

/-- The number engine e sees of an engine of its own partition (R378). -/
def Device.seenEngine (d : Device) (e k : Nat) : Nat :=
  match d.engPart e with
  | none => k
  | some p => match d.recorded p with | some q => d.mapEngine p q k | none => k

/-- The number engine e sees of its own partition (R378). -/
def Device.seenPart (d : Device) (p : Nat) : Nat := (d.recorded p).getD p

/-! ### Trellis requests (R317, R386, R387, R393) -/

/-- The Trellis target port of a canonical address (R387): 0 to 31 DRAM groups, 32 to 95 cluster ports, 96 the point store,
97 to 104 code flash, 105 the mailbox, 106 to 121 register blocks, 122 the default target. -/
def targetOf (ca : Nat) : Nat :=
  match regionOf ca with
  | some (.dram s) => 8 * s + ca / 256 % 8
  | some (.scratch e) => 32 + e / 16
  | some (.csram c) => 32 + c
  | some (.xram c) => 32 + c
  | some .points => 96
  | some (.flash c) => 97 + c / 8
  | some .mailbox => 105
  | some (.device b) => 106 + b
  | none => 122

/-- Does an access of engine e stay in its own cluster? -/
def ownCluster (e ca : Nat) : Bool :=
  match regionOf ca with
  | some (.scratch o) => decide (o / 16 = e / 16)
  | some (.csram c) => decide (c = e / 16)
  | some (.xram c) => decide (c = e / 16)
  | _ => false

/-- The target an access of an engine goes to: that of its address, or the default one where a unit is out of service (R387, R393). -/
def Device.targetFor (d : Device) (ca : Nat) : Nat := if d.offline ca then 122 else targetOf ca

/-- The QoS that a master's transactions request (R386). -/
def Device.masterQos (d : Device) (part : Option Nat) (master : Nat) : Nat :=
  if master < 68 then d.partQos part else if master ∈ [132, 133, 151] then 8 else if master = 152 then 15 else fld (d.reg (.trlMqos master)) 0 4

/-- An access of a master that is no engine, for which it waits for no grant, joins the queue of its target port (R386, R387). -/
def Device.askMaster (d : Device) (part : Option Nat) (master a : Nat) : Device :=
  d.askPassing (d.targetFor a) master part (d.masterQos part master)

/-- An access of engine e beyond its own cluster joins the queue of its target port, with its cluster's master number; in Paced and Decant it owns
the engine's reserved slots (R317, R386, R389). -/
def Device.askTarget (d : Device) (e ca : Nat) (owner : ReqOwner) : Device :=
  if ownCluster e ca then d else
  d.ask (d.targetFor ca)
    { master := e / 16, part := d.engPart e, qos := d.partQos (d.engPart e), since := d.now, owner := owner, slotted := d.paced e }

/-- An access with reserved slots that is done leaves its target port (R318). -/
def Device.dropRequest (d : Device) (t : Nat) (owner : ReqOwner) : Device :=
  match (d.target t).waiting.find? (fun r => r.slotted && decide (r.owner = owner)) with
  | some r => d.onTarget t (fun x => { x with waiting := x.waiting.erase r })
  | none => d

/-- The outstanding line requests of an engine are discarded (R160). -/
def Device.dropFetches (d : Device) (e : Nat) : Device :=
  let mine := fun (r : TrellisReq) => match r.owner with | .fetch k _ => decide (k = e) | _ => false
  { d with targets := d.targets.map (fun (t : Nat × Target) => (t.1, { t.2 with waiting := t.2.waiting.filter (fun r => !mine r) })) }

/-- Does a request of an owner wait at a target port? -/
def Device.waits (d : Device) (t : Nat) (owner : ReqOwner) : Bool := (d.target t).waiting.any (fun r => decide (r.owner = owner))

/-! ### Code lines (R137 to R143, R517) -/

/-- The 32-byte line of a code address. -/
def lineOf (a : Word) : Nat := a.toNat / 32 * 32

/-- Is a line held or requested? -/
def Engine.hasLine (x : Engine) (l : Nat) : Bool := x.lines.any (fun k => decide (k.addr = l))

/-- The line whose request step is earliest among those no byte is needed of; the first of them in request order (R143). -/
def oldestLine (needed : List Nat) : List CodeLine → Option Nat
  | [] => none
  | k :: ks =>
    match oldestLine needed ks with
    | none => if k.addr ∈ needed then none else some k.addr
    | some a =>
      if k.addr ∈ needed then some a
      else if (ks.find? (fun j => decide (j.addr = a))).any (fun j => decide (j.req < k.req)) then some a else some k.addr

/-- Forget a line. -/
def dropLine (a : Nat) (ls : List CodeLine) : List CodeLine := ls.filter (fun k => decide (k.addr ≠ a))

/-- FETCH_LINE_REQUEST (R138, R142, R143, R517): request a line unless it is held or lies outside the rows of R135; where
four are held one is replaced: the oldest that is not needed in Paced, one of the free choice in Free mode (R138). The
bytes are those of the code memory now (R137); a fetch from code flash asks its target port (R386). A single-bit error is corrected in the memory; what the line has met counts only once an
instruction of it issues (R140). -/
def Device.requestLine (d : Device) (e : Nat) (step : Nat) (needed : List Nat) (l : Nat) : Device :=
  let x := d.eng e
  if x.hasLine l then d else
  match d.codeAddr (e / 16) (word l) with
  | none => d
  | some pa =>
    if d.paced e && inFlash (word l) then d else
    let struck := fun (u : Upset) => ([0, 1, 2, 3] : List Nat).filter (fun k => d.marks.any (fun m => decide (m.2 = u ∧ m.1 / 8 = pa / 8 + k)))
    let new : CodeLine := { addr := l, bytes := d.bytes pa 32, bad := struck .uncorrectable, cor := struck .single, req := step, delivered := false }
    let d := { d with marks := d.marks.filter (fun m => !decide (m.2 = Upset.single ∧ pa ≤ m.1 ∧ m.1 < pa + 32)) }
    let d := d.askTarget e pa (.fetch e l)
    if x.lines.length < 4 then d.setEng e { x with lines := x.lines ++ [new] }
    else if d.paced e then
      match oldestLine needed x.lines with
      | some a => d.setEng e { x with lines := dropLine a x.lines ++ [new] }
      | none => d
    else
      let (w, d) := d.freeWord
      let cands := x.lines.filter (fun k => decide (k.addr ∉ needed))
      match cands[w.toNat % (max 1 cands.length)]? with
      | some k => d.setEng e { x with lines := dropLine k.addr x.lines ++ [new] }
      | none => d

/-- Request lines in order. -/
def Device.requestLines (d : Device) (e step : Nat) (needed : List Nat) (ls : List Nat) : Device :=
  foldDev (fun d l => d.requestLine e step needed l) d ls

/-! ### Transfers (R145 to R149) -/

/-- The least steps of a transfer to an address in Free mode, beyond the table's cost: line held, from code SRAM, from flash
(R149). -/
def freeTransfer (held : Bool) (t : Word) : Nat :=
  (if held then 2 else if inFlash t then 25 else 4) + (if t.toNat % 16 = 0 then 0 else 1)

/-- A taken transfer issued at step s with the extra count `extra` (R147, R149): the target issues at a fixed step in Paced, at
or after the least count in Free mode; its lines are requested one step after s + extra. -/
def Device.transfer (d : Device) (e s extra : Nat) (t : Word) : Device :=
  let x := d.eng e
  let ready := if d.paced e then s + extra + (if t.toNat % 16 = 0 then 4 else 5)
    else s + extra + freeTransfer (x.hasLine (lineOf t)) t
  d.setEng e { x with pc := t, readyAt := ready, redirect := some (s + 1 + extra, t), rep := none, bar := false }

/-- The extra count C of a table at an address (R147, R149): its Paced lsu cost; in Free mode a free choice from 2 steps to the worst cost of
its region (R177). -/
def Device.tableCost (d : Device) (e a : Nat) : Nat × Device :=
  let ca := canon e a
  let worst := freeWorst e ca (d.cached ca)
  if d.paced e then ((pacedCost e ca).1, d)
  else if worst = 2 then (2, d)
  else let (w, d) := d.freeWord; (2 + w.toNat % (worst - 1), d)

/-! ### The branch-target buffer (R139, R149) -/

/-- The index of an entry (R139). -/
def btbIndex (a : Nat) : Nat := a / 2 % 512

/-- The target an entry records for an instruction, if it has one. -/
def Engine.btbTarget (x : Engine) (a : Nat) : Option Word := (x.btb.find? (fun t => decide (t.1 = a))).map (·.2)

/-- Write, rewrite or remove the entry of an instruction. -/
def Engine.btbSet (x : Engine) (a : Nat) (t : Option Word) : Engine :=
  let rest := x.btb.filter (fun k => decide (btbIndex k.1 ≠ btbIndex a))
  match t with
  | some t => { x with btb := rest ++ [(a, t)] }
  | none => { x with btb := x.btb.filter (fun k => decide (k.1 ≠ a)) }

/-- The fetcher meets the instruction at address a: where it has an entry, it fetches on from the recorded target at once (R139). -/
def Device.meet (d : Device) (e s a : Nat) (needed : List Nat) : Device :=
  if d.paced e then d else
  match (d.eng e).btbTarget a with | some t => d.requestLine e s needed (lineOf t) | none => d

/-- A taken transfer of the cu trigger at address a (R139, R147, R149). -/
def Device.taken (d : Device) (e s extra a : Nat) (t : Word) : Device :=
  if d.paced e then d.transfer e s extra t
  else if (d.eng e).btbTarget a = some t then
    (d.meet e s a []).onEng e (fun x => { x with pc := t, readyAt := s + 1 + extra, redirect := none, rep := none, bar := false })
  else (d.transfer e s extra t).onEng e (fun x => x.btbSet a (some t))

/-- A cu trigger at address a that does not transfer: with an entry of R139, as a taken transfer with no correct entry. -/
def Device.notTaken (d : Device) (e s a : Nat) (next : Word) : Device :=
  if d.paced e then d
  else if ((d.eng e).btbTarget a).isSome then (d.transfer e s 0 next).onEng e (fun x => x.btbSet a none)
  else d

/-! ### Entries (R207 to R217) -/

/-- A cause of an entry: code, detail, fault address, whether it is physical, the handler index, and for a trap the address of its cu
trigger, whose transfer the entry is (R139). -/
structure Cause where
  code : Nat
  detail : Nat
  fa : Nat
  pa : Bool
  index : Nat
  site : Option Nat := none
  deriving DecidableEq, Repr

/-- Where the interrupted context resumes (R150, R156, R220): address, slot M1, the length of M0, the repeat count left. -/
structure Resume where
  pc : Word
  slot1 : Bool
  m0len : Nat
  rep : Nat
  deriving DecidableEq, Repr

/-- The interrupted status and guards as SYS.SSTn holds them (R230). -/
def Engine.sstWord (x : Engine) (m0len : Nat) : Word :=
  let g := fun (k : Nat) => if Assoc.get false x.g (BitVec.ofNat 3 k) then 2 ^ (15 + k) else 0
  word (x.st.ring.toNat + 4 * x.st.lvl.toNat + (if x.st.gie then 16 else 0) + 32 * x.st.mlv.toNat +
    4096 * (m0len % 16) + g 1 + g 2 + g 3 + g 4 + g 5 + g 6 + g 7)

/-- A bmv transfer of this engine in service is suspended at the next 64-byte boundary (R54). By the Paced count that is one
block after those done; in Free mode, where the count is at most that, it is a free choice from there on. -/
def Device.suspendBmv (d : Device) (e : Nat) (level : BitVec 2) : Device :=
  match (d.cluster (e / 16)).bmv.service with
  | none => d
  | some s =>
    if s.req.engine ≠ e ∨ s.req.dead ∨ s.suspendAt.isSome then d else
    let done := (d.now - (s.start + 8)) / max 1 s.per
    let (w, d') := d.freeWord
    let stop := if d.paced e then done + 1 else done + 1 + w.toNat % max 1 (s.req.left - done)
    let d := if d.paced e then d else d'
    if s.req.left ≤ stop then d else
    d.onCluster (e / 16) (fun c =>
      { c with bmv := { c.bmv with service := some { s with suspendAt := some level.toNat, stopAt := stop } } })

/-- LEVEL_ENTRY (R209): enter level L through its handler entry, translated in a shadow's Decant (R378); none is an entry failure,
with nothing written. -/
def Device.enterLevel (d : Device) (e : Nat) (level : BitVec 2) (c : Cause) (r : Resume) (s : Nat) : Option Device :=
  let x := d.eng e
  let a := d.place e (x.htb.toNat * 2048 + 8 * c.index)
  match d.tableRead e a 8 with
  | none => none
  | some bs =>
    let target := word (fromBytes (bs.take 4))
    let w1 := word (fromBytes (bs.drop 4))
    if !bit w1 2 || fld w1 3 29 ≠ 0 || fld w1 0 2 = 3 then none else
    let x := { (x.finishShort (x.short.filter (·.drains))) with short := x.short.filter (fun o => !o.drains) }
    let set : SaveSet :=
      { spc := (r.pc &&& 0xFFFFFF) ||| (if r.slot1 then 0x1000000 else 0)
        sst := x.sstWord r.m0len
        src := word r.rep
        sbk := x.bnk.setWidth 32
        sfa := word c.fa
        sfc := word (c.code + 256 * c.detail + 65536 * (if c.pa then (c.fa / 2 ^ 32) % 256 else 0) +
          (if c.pa then 2 ^ 24 else 0))
        shadow := x.res, acc := x.acc, ctx := some x.ctx, bar := x.bar }
    let ring := min (fld w1 0 2) x.st.ring.toNat
    let x := { x with
      save := Assoc.put x.save level set, res := [], ctx := x.nextCtx, nextCtx := x.nextCtx + 1
      st := { x.st with ring := BitVec.ofNat 2 ring, lvl := level, gie := false
                        mlv := if x.st.grd then level else x.st.mlv }
      wait := none, bar := false, rep := none, resumeRep := 0 }
    let (cost, d) := ((d.readOver a 8).setEng e x).suspendBmv e level |>.tableCost e a
    some (match c.site with | some site => d.taken e s cost site target | none => d.transfer e s cost target)

/-- The handler entry of an index (R208), in the space the partition's memories stand in. -/
def Device.handlerAt (d : Device) (e index : Nat) : Nat := d.place e ((d.eng e).htb.toNat * 2048 + 8 * index)

/-- A table entry that cannot be read for an uncorrectable error is counted (R187). -/
def Device.tableError (d : Device) (e a : Nat) : Device :=
  if d.uncorrectable (canon e a) 8 then d.eccError (canon e a) else d

/-- Are L2 and L3 available (R215)? -/
def Status.l2 (s : Status) : Bool := decide (s.lvl < 2#2) && (!s.grd || decide (s.mlv < 2#2))
def Status.l3 (s : Status) : Bool := decide (s.lvl < 3#2) && (!s.grd || decide (s.mlv < 3#2))

/-- ENGINE_STOP (R217): the engine stops, its pending deferred faults are gone, and a Partition-reach reset follows. -/
def Device.stopEngine (d : Device) (e : Nat) : Device :=
  let d := d.onEng e (fun x => { x with run := .stopped, pendingFaults := [], wait := none })
  match d.engPart e with
  | none => d
  | some p =>
    let d := (d.raise (0xE0 + p)).setRegBit (.parCause p) 1 true
    (d.assertSource 19 3 p false).onPart p (fun x => { x with escalated := true })

/-- ESCALATION (R216): enter L3 through index 0x0E, or stop where L3 is not available or its entry fails (R210). -/
def Device.escalate (d : Device) (e : Nat) (detail : Nat) (c : Cause) (r : Resume) (s : Nat) : Device :=
  if (d.eng e).st.l3 then
    match d.enterLevel e 3 { c with code := 0x0E, detail := detail, index := 0x0E } r s with
    | some d => d
    | none => (d.tableError e (d.handlerAt e 0x0E)).stopEngine e
  else d.stopEngine e

/-- An entry failure at level 1 or 2 escalates with detail 0xFF and the failed index as fault address (R210). -/
def Device.entryFailure (d : Device) (e : Nat) (c : Cause) (r : Resume) (s : Nat) : Device :=
  (d.tableError e (d.handlerAt e c.index)).escalate e 0xFF { c with fa := c.index, pa := false } r s

/-- A fault or a trap is taken at L2, escalates to L3, or stops the engine (R215, R216). -/
def Device.takeCause (d : Device) (e : Nat) (c : Cause) (r : Resume) (s : Nat) : Device :=
  if (d.eng e).st.l2 then
    match d.enterLevel e 2 c r s with
    | some d => d
    | none => d.entryFailure e c r s
  else d.escalate e c.code c r s

/-- The address of an expired wait that raises at the running context's next pair (R288). -/
def Engine.waitFault (x : Engine) : Option Word := (x.waitFaults.find? (fun f => decide (f.1 = x.ctx))).map (·.2)

/-- The running context's expired wait has raised. -/
def Engine.dropWaitFault (x : Engine) : Engine := { x with waitFaults := x.waitFaults.filter (fun f => decide (f.1 ≠ x.ctx)) }

/-- A fault's cause: its handler index is its code (R207). -/
def faultCause (code detail fa : Nat) (pa : Bool) : Cause :=
  { code := code, detail := detail, fa := fa, pa := pa, index := code }

/-- EVENT_ENTRY (R214, R292, R293): the lowest line that is raised, enabled for entry and permitted. Its latch is that of the start
of the pace period: a raise of the same period leaves RAISED at 1 behind an entry, so it is none the entry is taken on. -/
def Device.eventLine (d : Device) (e : Nat) : Option Nat :=
  let st := (d.eng e).st
  if st.lvl = 0 ∧ (if st.grd then st.mlv = 0 else st.gie = true) then
    (List.range 192).find? (fun n => d.lineLatched e n && d.lineEnabled e n)
  else none

/-- An event is taken at L1: its entry clears RAISED and leaves OVR (R292, R293); a failed entry escalates (R210), and has cleared
RAISED as well (log entry 72). -/
def Device.takeEvent (d : Device) (e line : Nat) (r : Resume) (s : Nat) : Device :=
  let c : Cause := { code := 0, detail := 0, fa := line, pa := false, index := 0x40 + line }
  let d := d.clearLine e line .entry
  match d.enterLevel e 1 c r s with
  | some d => d
  | none => d.entryFailure e c r s

/-- The completion fault the running context takes: its own, or one of a handler that returned to it (R168, R520). -/
def Engine.lateCompletion (x : Engine) : Option LateFault :=
  x.pendingFaults.find? (fun f => f.completion && decide (f.ctx = x.ctx))

/-- The deferred fault the running context takes at step s: the pair of the retirement step has issued (R152, R153). -/
def Engine.lateDeferred (x : Engine) (s : Nat) : Option LateFault :=
  x.pendingFaults.find? (fun f => !f.completion && decide (f.ctx = x.ctx ∧ f.at_ < s))

/-- Remove a late fault that is taken. -/
def Engine.dropLate (x : Engine) (f : LateFault) : Engine := { x with pendingFaults := x.pendingFaults.erase f }

/-- A late fault is taken (R152, R153, R168): a deferred fault has code DEFERRED and the underlying code as detail. -/
def Device.takeLate (d : Device) (e : Nat) (f : LateFault) (r : Resume) (s : Nat) : Device :=
  let d := d.onEng e (fun x => x.dropLate f)
  let c := if f.completion then faultCause f.code f.detail f.sfa.toNat false else faultCause 0x0B f.code f.sfa.toNat false
  d.takeCause e c r s

/-- DFP: a deferred fault of the running context is pending (R224). -/
def Engine.dfp (x : Engine) : Bool := x.pendingFaults.any (fun f => !f.completion && decide (f.ctx = x.ctx))

/-- SYS.ST as it reads (R224). -/
def Engine.stWord (x : Engine) : Word :=
  word (x.st.ring.toNat + 4 * x.st.lvl.toNat + (if x.st.gie then 16 else 0) + 32 * x.st.mlv.toNat +
    (if x.st.grd then 128 else 0) + (if x.dfp then 256 else 0))

end Sys2Proof.Machine
end

