-- ==== Sys2Proof/Machine/Flags.lean ====
section
/-! DEFINITION. The arithmetic of alu0, alu1, shf, cmp, mul and div with every flag it sets (R105 to R122). -/

namespace Sys2Proof.Machine

/-- The flags of SYS.ACST (R106). -/
def flagV : BitVec 9 := 1
def flagSAT : BitVec 9 := 2
def flagDZ : BitVec 9 := 4
def flagFNV : BitVec 9 := 8
def flagFDZ : BitVec 9 := 16
def flagFOF : BitVec 9 := 32
def flagFUF : BitVec 9 := 64
def flagFNX : BitVec 9 := 128
def flagKR : BitVec 9 := 256

/-- A flag where a condition holds. -/
def flagIf (b : Bool) (f : BitVec 9) : BitVec 9 := if b then f else 0

/-- Does a signed value fit 32 bits (R114)? -/
def fits32 (x : Int) : Bool := decide (-2147483648 ≤ x ∧ x ≤ 2147483647)

/-- wrap32: x modulo 2^32 (notation of 04_operation_semantics.md). -/
def wrap32 (x : Int) : Word := BitVec.ofInt 32 x

/-- sat32s: x clamped to the signed range. -/
def sat32s (x : Int) : Word :=
  if x < -2147483648 then 0x80000000 else if 2147483647 < x then 0x7FFFFFFF else BitVec.ofInt 32 x

/-- rsh(x, n): floor((x + 2^(n-1)) / 2^n). -/
def rsh (x : Int) (n : Nat) : Int := (x + 2 ^ (n - 1)) / 2 ^ n

/-- alu results and flags (R114). -/
def aluExec (op : AluOp) (a t : Word) : Word × BitVec 9 :=
  match op with
  | .add => (wrap32 (a.toInt + t.toInt), flagIf (!fits32 (a.toInt + t.toInt)) flagV)
  | .sub => (wrap32 (a.toInt - t.toInt), flagIf (!fits32 (a.toInt - t.toInt)) flagV)
  | .rsub => (wrap32 (t.toInt - a.toInt), flagIf (!fits32 (t.toInt - a.toInt)) flagV)
  | .adds => (sat32s (a.toInt + t.toInt), flagIf (!fits32 (a.toInt + t.toInt)) flagSAT)
  | .subs => (sat32s (a.toInt - t.toInt), flagIf (!fits32 (a.toInt - t.toInt)) flagSAT)
  | .and => (a &&& t, 0)
  | .or => (a ||| t, 0)
  | .xor => (a ^^^ t, 0)
  | .andn => (a &&& ~~~ t, 0)
  | .neg => (wrap32 (-t.toInt), flagIf (decide (t = 0x80000000)) flagV)
  | .abs => (wrap32 (if t.toInt < 0 then -t.toInt else t.toInt), flagIf (decide (t = 0x80000000)) flagV)
  | .min => (if a.toInt < t.toInt then a else t, 0)
  | .max => (if a.toInt > t.toInt then a else t, 0)
  | .minu => (if a.toNat < t.toNat then a else t, 0)
  | .maxu => (if a.toNat > t.toNat then a else t, 0)

/-- shf results (R115): the count is the whole unsigned datum; no flag. -/
def shfExec (op : ShfOp) (a t : Word) : Word :=
  match op with
  | .shl => if 32 ≤ t.toNat then 0 else a <<< t.toNat
  | .shr => if 32 ≤ t.toNat then 0 else a >>> t.toNat
  | .sar => if 32 ≤ t.toNat then (if a.msb then 0xFFFFFFFF else 0) else a.sshiftRight t.toNat
  | .rol => a.rotateLeft (t.toNat % 32)
  | .ror => a.rotateRight (t.toNat % 32)

/-- The condition cc on a and t (R82). -/
def ccHolds (cc : Cc) (a t : Word) : Bool :=
  match cc with
  | .eq => decide (a = t)
  | .ne => decide (a ≠ t)
  | .lt => decide (a.toInt < t.toInt)
  | .ge => decide (a.toInt ≥ t.toInt)
  | .ltu => decide (a.toNat < t.toNat)
  | .geu => decide (a.toNat ≥ t.toNat)
  | .bs => decide (a &&& t ≠ 0)
  | .bc => decide (a &&& t = 0)

/-- The Q31 reading of a 64-bit value: sat32s(rsh(p, 31)) and whether it clamped (R118). -/
def q31 (p : Int) : Word × Bool := (sat32s (rsh p 31), !fits32 (rsh p 31))

/-- Clamp to the signed 64-bit range (R118). -/
def clamp64 (x : Int) : Int :=
  if x < -9223372036854775808 then -9223372036854775808
  else if 9223372036854775807 < x then 9223372036854775807 else x

/-- The high word of a 64-bit value. -/
def highWord (p : Int) : Word := (BitVec.ofInt 64 p).extractLsb' 32 32

/-- mul results: rl, rh, the accumulator after, the flags (R118, R119). -/
def mulExec (op : MulOp) (acc : BitVec 64) (a t : Word) : Word × Word × BitVec 64 × BitVec 9 :=
  match op with
  | .mul => (wrap32 (a.toInt * t.toInt), highWord (a.toInt * t.toInt), acc, 0)
  | .mulu => (wrap32 (a.toNat * t.toNat : Nat), highWord (a.toNat * t.toNat : Nat), acc, 0)
  | .mulq =>
    let p := a.toInt * t.toInt
    ((q31 p).1, highWord p, acc, flagIf (q31 p).2 flagSAT)
  | .macq =>
    let x := acc.toInt + a.toInt * t.toInt
    let y := clamp64 x
    ((q31 y).1, highWord y, BitVec.ofInt 64 y, flagIf (decide (x ≠ y) || (q31 y).2) flagSAT)
  | .ldacc =>
    let y := t.toInt * 2147483648
    (t, highWord y, BitVec.ofInt 64 y, 0)

/-- div results: quotient, remainder, flags (R120). -/
def divExec (op : DivOp) (a t : Word) : Word × Word × BitVec 9 :=
  match op with
  | .divs =>
    if t = 0 then (if a.toInt ≥ 0 then 0x7FFFFFFF else 0x80000000, a, flagDZ)
    else if a = 0x80000000 ∧ t = 0xFFFFFFFF then (0x80000000, 0, flagV)
    else (wrap32 (a.toInt.tdiv t.toInt), wrap32 (a.toInt - a.toInt.tdiv t.toInt * t.toInt), 0)
  | .divu =>
    if t = 0 then (0xFFFFFFFF, a, flagDZ)
    else (word (a.toNat / t.toNat), word (a.toNat % t.toNat), 0)

/-- The bit length of a number. -/
def bitLen (n : Nat) : Nat := if n = 0 then 0 else Nat.log2 n + 1

/-- The bit length of the quotient's magnitude (R121). -/
def quotientBits (op : DivOp) (a t : Word) : Nat :=
  if t = 0 then 0 else
  match op with
  | .divs => bitLen (a.toInt.tdiv t.toInt).natAbs
  | .divu => bitLen (a.toNat / t.toNat)

/-- Steps of a division (R55, R121). -/
def divSteps (paced : Bool) (op : DivOp) (a t : Word) : Nat :=
  if paced then 34 else 10 + 3 * ((quotientBits op a t + 3) / 4)

end Sys2Proof.Machine
end

