-- ==== Sys2Proof/Machine/Float.lean ====
section
/-! DEFINITION. The fpu: IEEE 754-2019 binary32 as R123 to R126 lay it down. -/

namespace Sys2Proof.Machine

/-- A binary32 value taken apart: NaN (signalling?), infinity, or a finite (-1)^neg × m × 2^e. -/
inductive Flt | nan (signalling : Bool) | inf (neg : Bool) | fin (neg : Bool) (m : Nat) (e : Int)
  deriving DecidableEq, Repr

/-- Take a word apart. -/
def Flt.ofWord (w : Word) : Flt :=
  let ex := fld w 23 8
  let fr := fld w 0 23
  if ex = 255 then (if fr = 0 then .inf w.msb else .nan (!bit w 22))
  else if ex = 0 then .fin w.msb fr (-149)
  else .fin w.msb (fr + 0x800000) ((ex : Int) - 150)

/-- The one NaN every NaN result is (R123). -/
def canonicalNaN : Word := 0x7FC00000

/-- A signed zero. -/
def fzero (neg : Bool) : Word := if neg then 0x80000000 else 0
/-- A signed infinity. -/
def finf (neg : Bool) : Word := if neg then 0xFF800000 else 0x7F800000
/-- The largest finite value of a sign. -/
def fmax (neg : Bool) : Word := if neg then 0xFF7FFFFF else 0x7F7FFFFF

/-- Does the rounding mode RM (R108) round the kept magnitude up? `cmpHalf` compares the rest with half a unit. -/
def roundsUp (rm : Nat) (neg odd inexact : Bool) (cmpHalf : Ordering) : Bool :=
  match rm with
  | 0 => match cmpHalf with | .gt => true | .eq => odd | .lt => false
  | 1 => false
  | 2 => inexact && !neg
  | _ => inexact && neg

/-- m × 2^e (with a rest below, if sticky) cut at the unit 2^q: the rounded magnitude in that unit and whether it is inexact. -/
def cutAt (rm : Nat) (neg : Bool) (m : Nat) (e q : Int) (sticky : Bool) : Nat × Bool :=
  let sh := q - e
  if sh ≤ 0 then (m * 2 ^ sh.natAbs, sticky)
  else
    let kept := m / 2 ^ sh.natAbs
    let rest := m % 2 ^ sh.natAbs
    let half := 2 ^ (sh.natAbs - 1)
    let c := if rest < half then Ordering.lt else if rest > half || sticky then .gt else .eq
    let inexact := decide (rest ≠ 0) || sticky
    (if roundsUp rm neg (kept % 2 == 1) inexact c then kept + 1 else kept, inexact)

/-- Round an exact magnitude to binary32 under RM: the word and FOF, FUF, FNX (R123). -/
def roundPack (rm : Nat) (neg : Bool) (m : Nat) (e : Int) (sticky : Bool) : Word × BitVec 9 :=
  if m = 0 ∧ !sticky then (fzero neg, 0) else
  let top : Int := e + (bitLen m : Int) - 1
  let q : Int := if top - 23 < -149 then -149 else top - 23
  let (mant, inexact) := cutAt rm neg m e q sticky
  let tiny := decide (top < -126) &&
    !(decide (top = -127) && decide ((cutAt rm neg m e (top - 23) sticky).1 = 0x1000000))
  let (mant, q) := if mant = 0x1000000 then (0x800000, q + 1) else (mant, q)
  if mant ≥ 0x800000 ∧ q + 150 > 254 then
    let r := match rm with
      | 0 => finf neg
      | 1 => fmax neg
      | 2 => if neg then fmax neg else finf neg
      | _ => if neg then finf neg else fmax neg
    (r, flagFOF ||| flagFNX)
  else
    let bits := if mant < 0x800000 then mant else (q + 150).toNat * 0x800000 + (mant - 0x800000)
    (word bits ||| fzero neg, flagIf inexact flagFNX ||| flagIf (inexact && tiny) flagFUF)

/-- The exact sum of two finite values, rounded; the zero rule of R123. -/
def addFin (rm : Nat) (n1 : Bool) (m1 : Nat) (e1 : Int) (n2 : Bool) (m2 : Nat) (e2 : Int) : Word × BitVec 9 :=
  let e := if e1 < e2 then e1 else e2
  let x : Int := (m1 * 2 ^ (e1 - e).natAbs : Nat)
  let y : Int := (m2 * 2 ^ (e2 - e).natAbs : Nat)
  let s := (if n1 then -x else x) + (if n2 then -y else y)
  if s = 0 then (fzero (if n1 = n2 then n1 else decide (rm = 3)), 0)
  else roundPack rm (decide (s < 0)) s.natAbs e false

/-- FNV for a signalling NaN among the operands (R123). -/
def snanFlag (xs : List Flt) : BitVec 9 :=
  flagIf (xs.any (fun x => match x with | .nan s => s | _ => false)) flagFNV

/-- Is a value a NaN? -/
def Flt.isNaN : Flt → Bool | .nan _ => true | _ => false

/-- a + t, where neither is a NaN. -/
def addFlt (rm : Nat) (a t : Flt) : Word × BitVec 9 :=
  match a, t with
  | .inf x, .inf y => if x = y then (finf x, 0) else (canonicalNaN, flagFNV)
  | .inf x, _ => (finf x, 0)
  | _, .inf y => (finf y, 0)
  | .fin n1 m1 e1, .fin n2 m2 e2 => addFin rm n1 m1 e1 n2 m2 e2
  | _, _ => (canonicalNaN, 0)

/-- The same value with its sign inverted. -/
def Flt.negate : Flt → Flt | .inf n => .inf (!n) | .fin n m e => .fin (!n) m e | x => x

/-- a × b for finite or infinite operands, not rounded; none for 0 × ∞ (R124). -/
def mulFlt (a b : Flt) : Option Flt :=
  match a, b with
  | .inf x, .inf y => some (.inf (x != y))
  | .inf x, .fin y m _ => if m = 0 then none else some (.inf (x != y))
  | .fin x m _, .inf y => if m = 0 then none else some (.inf (x != y))
  | .fin n1 m1 e1, .fin n2 m2 e2 => some (.fin (n1 != n2) (m1 * m2) (e1 + e2))
  | _, _ => none

/-- Round a value that is no NaN. -/
def roundFlt (rm : Nat) : Flt → Word × BitVec 9
  | .fin n m e => roundPack rm n m e false
  | .inf n => (finf n, 0)
  | .nan _ => (canonicalNaN, 0)

/-- Is a < t for values that are no NaN? -/
def ltFlt (a t : Flt) : Bool :=
  match a, t with
  | .inf x, .inf y => x && !y
  | .inf x, _ => x
  | _, .inf y => !y
  | .fin n1 m1 e1, .fin n2 m2 e2 =>
    let e := if e1 < e2 then e1 else e2
    let x : Int := (m1 * 2 ^ (e1 - e).natAbs : Nat)
    let y : Int := (m2 * 2 ^ (e2 - e).natAbs : Nat)
    decide ((if n1 then -x else x) < (if n2 then -y else y))
  | _, _ => false

/-- min or max (R124): -0 below +0; one NaN gives the other operand. -/
def minMax (wantMin : Bool) (a t : Word) : Word × BitVec 9 :=
  let x := Flt.ofWord a
  let y := Flt.ofWord t
  let fl := snanFlag [x, y]
  if x.isNaN && y.isNaN then (canonicalNaN, fl)
  else if x.isNaN then (t, fl)
  else if y.isNaN then (a, fl)
  else
    let aLess := ltFlt x y || (!ltFlt y x && a.msb)
    (if aLess = wantMin then a else t, fl)

/-- Round a finite value to an integer under RM: the integer and whether it is inexact. -/
def toInteger (rm : Nat) (neg : Bool) (m : Nat) (e : Int) : Int × Bool :=
  let (k, x) := cutAt rm neg m e 0 false
  (if neg then -(k : Int) else k, x)

/-- A float-to-integer conversion into [lo, hi] (R125). -/
def cvt (rm : Nat) (lo hi : Int) (t : Word) : Word × BitVec 9 :=
  match Flt.ofWord t with
  | .nan _ => (0, flagFNV)
  | .inf n => (wrap32 (if n then lo else hi), flagFNV)
  | .fin n m e =>
    let (k, x) := toInteger rm n m e
    if k > hi then (wrap32 hi, flagFNV)
    else if k < lo then (wrap32 lo, flagFNV)
    else (wrap32 k, flagIf x flagFNX)

/-- Integer square root: the largest r below 2^(k+1) steps with r² ≤ n, built bit by bit from bit k. -/
def isqrtFrom : Nat → Nat → Nat → Nat
  | 0, n, r => if (r + 1) * (r + 1) ≤ n then r + 1 else r
  | k + 1, n, r => isqrtFrom k n (if (r + 2 ^ (k + 1)) * (r + 2 ^ (k + 1)) ≤ n then r + 2 ^ (k + 1) else r)

/-- floor of the square root of n < 2^128. -/
def isqrt (n : Nat) : Nat := isqrtFrom 64 n 0

/-- √t rounded (R124). -/
def sqrtFlt (rm : Nat) (t : Word) : Word × BitVec 9 :=
  match Flt.ofWord t with
  | .nan s => (canonicalNaN, flagIf s flagFNV)
  | .inf n => if n then (canonicalNaN, flagFNV) else (finf false, 0)
  | .fin n m e =>
    if m = 0 then (fzero n, 0)
    else if n then (canonicalNaN, flagFNV)
    else
      let sh : Nat := if e % 2 = 0 then 60 else 61
      let x := m * 2 ^ sh
      let r := isqrt x
      roundPack rm false r ((e - sh) / 2) (decide (r * r ≠ x))

/-- a ÷ t rounded (R124). -/
def divFlt (rm : Nat) (a t : Flt) : Word × BitVec 9 :=
  match a, t with
  | .inf _, .inf _ => (canonicalNaN, flagFNV)
  | .inf x, .fin y _ _ => (finf (x != y), 0)
  | .fin x _ _, .inf y => (fzero (x != y), 0)
  | .fin n1 m1 e1, .fin n2 m2 e2 =>
    if m2 = 0 then (if m1 = 0 then (canonicalNaN, flagFNV) else (finf (n1 != n2), flagFDZ))
    else if m1 = 0 then (fzero (n1 != n2), 0)
    else
      let x := m1 * 2 ^ 60
      roundPack rm (n1 != n2) (x / m2) (e1 - e2 - 60) (decide (x % m2 ≠ 0))
  | _, _ => (canonicalNaN, 0)

/-- The fpu operations: result and flags (R123 to R125). -/
def fpuExec (op : FpuOp) (rm : Nat) (a b t : Word) : Word × BitVec 9 :=
  let x := Flt.ofWord a
  let y := Flt.ofWord b
  let z := Flt.ofWord t
  let nan2 := x.isNaN || z.isNaN
  let fl2 := snanFlag [x, z]
  match op with
  | .add => if nan2 then (canonicalNaN, fl2) else addFlt rm x z
  | .sub => if nan2 then (canonicalNaN, fl2) else addFlt rm x z.negate
  | .mul =>
    if nan2 then (canonicalNaN, fl2) else
    match mulFlt x z with | some p => roundFlt rm p | none => (canonicalNaN, flagFNV)
  | .fma =>
    let fl := snanFlag [x, y, z]
    if x.isNaN || y.isNaN then (canonicalNaN, fl) else
    match mulFlt x y with
    | none => (canonicalNaN, flagFNV)
    | some p => if z.isNaN then (canonicalNaN, fl) else addFlt rm p z
  | .min => minMax true a t
  | .max => minMax false a t
  | .neg => (if z.isNaN then canonicalNaN else t ^^^ 0x80000000, snanFlag [z])
  | .abs => (if z.isNaN then canonicalNaN else t &&& 0x7FFFFFFF, snanFlag [z])
  | .cvtfi => cvt rm (-2147483648) 2147483647 t
  | .cvtfu => cvt rm 0 4294967295 t
  | .cvtif => roundPack rm (decide (t.toInt < 0)) t.toInt.natAbs 0 false
  | .cvtuf => roundPack rm false t.toNat 0 false
  | .feq => (boolWord (!nan2 && !ltFlt x z && !ltFlt z x), fl2)
  | .flt => (boolWord (!nan2 && ltFlt x z), flagIf nan2 flagFNV)
  | .fle => (boolWord (!nan2 && !ltFlt z x), flagIf nan2 flagFNV)
  | .fun => (boolWord nan2, fl2)
  | .div => if nan2 then (canonicalNaN, fl2) else divFlt rm x z
  | .sqrt => sqrtFlt rm t

/-- Is the operation long (R55)? -/
def FpuOp.isLong : FpuOp → Bool | .div => true | .sqrt => true | _ => false

/-- Is a value zero, infinite or a NaN (R126)? -/
def Flt.special : Flt → Bool | .fin _ m _ => decide (m = 0) | _ => true

/-- Steps of an fpu operation (R55, R126). -/
def fpuSteps (paced : Bool) (op : FpuOp) (a t : Word) : Nat :=
  match op with
  | .div => if paced then 20 else if (Flt.ofWord a).special || (Flt.ofWord t).special then 12 else 20
  | .sqrt => if paced then 20 else if (Flt.ofWord t).special || t.msb then 12 else 16
  | _ => 4

end Sys2Proof.Machine
end

