-- ==== Sys2Proof/Machine/FixMath.lean ====
section
/-! DEFINITION. kin and ipl: fixed-point results rounded to nearest (R127 to R134).
Sine and cosine are summed to 2^-120 and then rounded to 2^-30; no input lies that near a half (log entry 11). -/

namespace Sys2Proof.Machine

/-- π × 2^128, rounded down. -/
def piScaled : Nat := 1069028584064966747859680373161870783300

/-- Sum the Taylor series with the term t, its divisors from k, and the square of the angle, all scaled by 2^128. -/
def series : (fuel : Nat) → (t x2 : Int) → (k : Nat) → Int
  | 0, _, _, _ => 0
  | fuel + 1, t, x2, k => t + series fuel (-(t * x2 / 2 ^ 128) / ((k + 1) * (k + 2) : Nat)) x2 (k + 2)

/-- Sine and cosine, scaled by 2^128, of n / 2^k of half a turn in the first quadrant. -/
def sinCosScaled (n k : Nat) : Int × Int :=
  let x : Int := (piScaled * n / 2 ^ k : Nat)
  let x2 := x * x / 2 ^ 128
  (series 22 x x2 1, series 22 (2 ^ 128) x2 0)

/-- A first-quadrant value scaled by 2^128, rounded to 2^-30. -/
def toQ30 (v : Int) : Int := (v + 2 ^ 97) / 2 ^ 98

/-- Sine and cosine of an angle word, Q1.30, each rounded by rna (R129). -/
def sinCos (u : Word) : Int × Int :=
  let q := u.toNat / 0x40000000
  let r := u.toNat % 0x40000000
  let sc := sinCosScaled r 31
  let s := if r = 0 then 0 else toQ30 sc.1
  let c := if r = 0 then 0x40000000 else toQ30 sc.2
  match q with
  | 0 => (s, c)
  | 1 => (c, -s)
  | 2 => (-s, -c)
  | _ => (-c, s)

/-- Is the first-quadrant angle of (2n - 1) half units at most the angle of (x, y)? -/
def angleReached (n x y : Nat) : Bool :=
  let sc := sinCosScaled (2 * n - 1) 32
  decide ((x : Int) * sc.1 ≤ (y : Int) * sc.2)

/-- The nearest first-quadrant angle to that of (x, y), found bit by bit from bit k. -/
def angleFrom : Nat → Nat → Nat → Nat → Nat
  | 0, n, x, y => if angleReached (n + 1) x y then n + 1 else n
  | k + 1, n, x, y => angleFrom k (if angleReached (n + 2 ^ (k + 1)) x y then n + 2 ^ (k + 1) else n) x y

/-- atan2(a, t) as an angle word (R129); (0, 0) is judged by the caller. -/
def atan2Word (a t : Word) : Word :=
  let y := a.toInt.natAbs
  let x := t.toInt.natAbs
  let n : Int := if x = 0 then 0x40000000 else if y = 0 then 0 else angleFrom 30 0 x y
  let m : Int := if t.toInt < 0 then 0x80000000 - n else n
  wrap32 (if a.toInt < 0 then -m else m)

/-- rna of the square root of n < 2^126. -/
def sqrtRna (n : Nat) : Nat := (isqrt (4 * n) + 1) / 2

/-- rna of v × 2^16 / √s, for v² ≤ s and s > 0, found bit by bit from bit k. -/
def ratioFrom : Nat → Nat → Nat → Nat → Nat
  | 0, n, v, s => if (2 * n + 1) * (2 * n + 1) * s ≤ 2 ^ 34 * (v * v) then n + 1 else n
  | k + 1, n, v, s =>
    let m := n + 2 ^ (k + 1)
    ratioFrom k (if (2 * m - 1) * (2 * m - 1) * s ≤ 2 ^ 34 * (v * v) then m else n) v s

/-- What a kin or ipl request leaves: the words it writes, by byte offset from the block it names, its results and flags. -/
structure SharedResult where
  writes : List (Nat × Word)
  r : Word
  r2 : Option Word
  flags : BitVec 9
  deriving DecidableEq, Repr

/-- A word of a list of input words. -/
def inputAt (ws : List Word) (i : Nat) : Word := ws.getD i 0

/-- One row of mv4: Σ M[i][j] × v[j], rounded by 16 (R129). Words 0 to 15 are M, words 16 to 19 are v. -/
def mv4Row (ws : List Word) (i : Nat) : Int :=
  rsh ((inputAt ws (4 * i)).toInt * (inputAt ws 16).toInt + (inputAt ws (4 * i + 1)).toInt * (inputAt ws 17).toInt +
    (inputAt ws (4 * i + 2)).toInt * (inputAt ws 18).toInt + (inputAt ws (4 * i + 3)).toInt * (inputAt ws 19).toInt) 16

/-- kin (R129): `ws` are the block words read at the start step. -/
def kinExec (op : KinOp) (a t : Word) (ws : List Word) : SharedResult :=
  match op with
  | .mv4 =>
    let w := fun i => sat32s (mv4Row ws i)
    { writes := [(0, w 0), (4, w 1), (8, w 2), (12, w 3)], r := w 0, r2 := some (w 1)
      flags := flagIf ([0, 1, 2, 3].any (fun i => !fits32 (mv4Row ws i))) flagSAT }
  | .sincos => { writes := [], r := wrap32 (sinCos t).1, r2 := some (wrap32 (sinCos t).2), flags := 0 }
  | .atan2 =>
    if a = 0 ∧ t = 0 then { writes := [], r := 0, r2 := none, flags := flagKR }
    else { writes := [], r := atan2Word a t, r2 := none, flags := 0 }
  | .sqrt => { writes := [], r := word (sqrtRna (t.toNat * 65536)), r2 := none, flags := 0 }
  | .norm3 =>
    let v := fun i => (inputAt ws i).toInt
    let s := (v 0 * v 0 + v 1 * v 1 + v 2 * v 2).natAbs
    if s = 0 then { writes := [], r := 0, r2 := none, flags := flagKR }
    else
      let c := fun i =>
        let n : Int := ratioFrom 16 0 (v i).natAbs s
        wrap32 (if v i < 0 then -n else n)
      { writes := [(0, c 0), (4, c 1), (8, c 2)], r := word (sqrtRna s), r2 := none, flags := 0 }

/-- Clamp and whether it clamped. -/
def satClamp (x : Int) : Int × Bool := ((sat32s x).toInt, !fits32 x)

/-- One setpoint f(i, E) of an ipl segment and whether it clamped (R133). -/
def iplAxis (op : IplOp) (ws : List Word) (e : Int) (i : Nat) : Int × Bool :=
  let k0 := (inputAt ws (4 + i)).toInt
  let k1 := (inputAt ws (12 + i)).toInt
  let k2 := (inputAt ws (20 + i)).toInt
  let k3 := (inputAt ws (28 + i)).toInt
  let lin := satClamp (k0 + rsh (k1 * e) 32)
  match op with
  | .lin => lin
  | .spl =>
    let h2 := satClamp (k2 + rsh (k3 * e) 32)
    let h1 := satClamp (k1 + rsh (h2.1 * e) 32)
    let h0 := satClamp (k0 + rsh (h1.1 * e) 32)
    (h0.1, h2.2 || h1.2 || h0.2)
  | .circ =>
    let phi := wrap32 ((inputAt ws 12).toNat + rsh ((inputAt ws 13).toInt * e) 31)
    let sc := sinCos phi
    let rad := (inputAt ws 20).toInt
    if i = 0 then satClamp ((inputAt ws 4).toInt + rsh (rad * sc.2) 30)
    else if i = 1 then satClamp ((inputAt ws 5).toInt + rsh (rad * sc.1) 30)
    else lin

/-- ipl (R131 to R133): `ws` are the 64 words of the block, `r2` the segment status. -/
def iplExec (op : IplOp) (t : Word) (ws : List Word) : SharedResult :=
  let ctl := inputAt ws 0
  let n := fld ctl 0 4
  if fld ctl 4 28 ≠ 0 ∨ n = 0 ∨ n > 8 ∨ (op = .circ ∧ n < 2) then
    { writes := [(12, 4)], r := 0, r2 := some 4, flags := flagKR }
  else
    let ended := bit (inputAt ws 3) 0
    let w := (inputAt ws 1).toNat + fld t 0 16 * (inputAt ws 2).toNat
    let fin := ended || decide (2 ^ 32 ≤ w)
    let e : Int := if fin then 2 ^ 32 else w
    let u : Word := if ended then inputAt ws 1 else if 2 ^ 32 ≤ w then 0 else word w
    let outs := (List.range n).map (fun i => iplAxis op ws e i)
    let clamped := outs.any (·.2)
    let st := boolWord fin ||| (if clamped then 2 else 0)
    { writes := (4, u) :: (12, st) ::
        ((List.range n).zip outs).map (fun x => (0x90 + 4 * x.1, wrap32 x.2.1))
      r := wrap32 (outs.getD 0 (0, false)).1, r2 := some st, flags := flagIf clamped flagSAT }

/-- Service counts of kin and ipl (R55), in pace periods. -/
def KinOp.service : KinOp → Nat | .mv4 => 40 | .sqrt => 48 | .sincos => 64 | .atan2 => 80 | .norm3 => 120
def IplOp.service : IplOp → Nat | .lin => 24 | .circ => 40 | .spl => 56

end Sys2Proof.Machine
end

