-- ==== Sys2Proof/Machine/Operands.lean ====
section
/-! DEFINITION. The operand forms of the moves: what every source port gives, what every operand and register port takes, which
unit a port belongs to, and when a waiting port waits (R39 to R66, R80 to R90, R97). -/

namespace Sys2Proof.Machine

/-- The function units (R49, R50). -/
inductive UnitName | alu0 | alu1 | shf | cmp | mul | div | fpu | lsu | pt | ch | ev | sys | kin | ipl | bmv | cu
  deriving DecidableEq, Repr

/-- The unit of a trigger port. -/
def Trig.unit : Trig → UnitName
  | .alu false _ => .alu0 | .alu true _ => .alu1 | .shf _ => .shf | .cmp _ _ => .cmp | .mul _ => .mul | .div _ => .div
  | .fpu _ => .fpu | .lsu _ => .lsu | .pt _ => .pt | .ch _ => .ch | .ev _ => .ev | .sys _ => .sys | .kin _ => .kin
  | .ipl _ => .ipl | .bmv _ => .bmv | .cu _ => .cu

/-- The unit a destination port belongs to, if any. -/
def Dst.unit : Dst → Option UnitName
  | .trig t => some t.unit
  | .opnd .alu0A => some .alu0 | .opnd .alu1A => some .alu1 | .opnd .shfA => some .shf | .opnd .cmpA => some .cmp
  | .opnd .mulA => some .mul | .opnd .divA => some .div | .opnd .fpuA => some .fpu | .opnd .fpuB => some .fpu
  | .opnd .lsuA => some .lsu | .opnd .ptIdx => some .pt | .opnd .chDst => some .ch | .opnd .sysSel => some .sys
  | .opnd .kinA => some .kin | .opnd .kinB => some .kin | .opnd .iplA => some .ipl | .opnd .bmvA => some .bmv
  | .opnd .bmvB => some .bmv
  | _ => none

/-- The unit a result port belongs to. -/
def ResPort.unit : ResPort → UnitName
  | .alu0R => .alu0 | .alu1R => .alu1 | .shfR => .shf | .cmpR => .cmp | .mulRl => .mul | .mulRh => .mul | .divQ => .div
  | .divM => .div | .fpuR => .fpu | .lsuR => .lsu | .lsuSt => .lsu | .ptR => .pt | .ptQ => .pt | .chR => .ch | .chSt => .ch
  | .evR => .ev | .sysR => .sys | .cuLnk => .cu | .kinR => .kin | .kinR2 => .kin | .iplR => .ipl | .iplSt => .ipl
  | .bmvSt => .bmv

/-- The fixed port that carries the value of a waiting port (R49). -/
def WaitPort.port : WaitPort → ResPort
  | .divQw => .divQ | .divMw => .divM | .lsuRw => .lsuR | .ptRw => .ptR | .chRw => .chR

/-- Is the unit absent on a grade (R9, R49, R50)? -/
def UnitName.absent (g : Grade) : UnitName → Bool
  | .fpu => !g.hasFpu
  | .kin => !g.hasFpu
  | _ => false

/-- Does a move into this destination name a port of an absent unit (R9)? -/
def Dst.absent (g : Grade) (t : Dst) : Bool := match t.unit with | some u => u.absent g | none => false

/-- Does a source name a port of an absent unit (R9)? -/
def Src.absent (g : Grade) : Src → Bool
  | .res r => r.unit.absent g
  | _ => false

/-- Is a unit heavy (R71)? -/
def UnitName.heavy : UnitName → Bool | .mul => true | .fpu => true | .kin => true | .ipl => true | _ => false

/-- Guard k: g0 reads true (R44). -/
def Engine.guard (x : Engine) (k : BitVec 3) : Bool := decide (k = 0) || Assoc.get false x.g k

/-- The value of a result port (R58 to R61). -/
def Engine.result (x : Engine) (p : ResPort) : Result := Assoc.get {} x.res p

/-- What a port gives, with the immediate of the instruction; none where it cannot be read (R40, R44, R49, R58 to R64, R87). -/
def Engine.readPort (x : Engine) (imm : Word) : Src → Option Word
  | .d i => some (Assoc.get 0 x.d i)
  | .g k => some (boolWord (x.guard k))
  | .bnk => some (x.bnk.setWidth 32)
  | .rc => some (x.rc.setWidth 32)
  | .imm => some imm
  | .res p => if (x.result p).readable then some (x.result p).value else none
  | .wait w => if (x.result w.port).readable then some (x.result w.port).value else none

/-- The immediate of an instruction (R87). -/
def Move.imm (m : Move) : Word := match m.pre.imm with | some v => v.value | none => 0

/-- What a move reads (R80, R92). -/
def Engine.operand (x : Engine) (m : Move) : Option Word :=
  match m.body.operand with
  | .value v => some v
  | .port s => x.readPort m.imm s

/-- Is the operation of a waiting port still outstanding (R63, R520)? lsu.rw waits for the operations of both contexts;
pt.rw and ch.rw until none of the context's reads or receives is left (log entry 69). -/
def Engine.outstanding (x : Engine) : WaitPort → Bool
  | .divQw => x.div.any (fun o => decide (o.ctx = x.ctx))
  | .divMw => x.div.any (fun o => decide (o.ctx = x.ctx))
  | .lsuRw => !x.lsu.isEmpty
  | .ptRw => x.pt.any (fun o => decide (o.ctx = x.ctx))
  | .chRw => x.ch.any (fun o => o.recv && decide (o.ctx = x.ctx))

/-- The waiting port a move reads, if it reads one. -/
def Move.waits (m : Move) : Option WaitPort :=
  match m.body.operand with | .port (.wait w) => some w | _ => none

/-- A guard prefix tests the value at the end of the previous step (R45). -/
def Engine.guardHolds (x : Engine) (m : Move) : Bool :=
  match m.pre.guard with
  | none => true
  | some (neg, k) => x.guard k != neg

/-- Write an operand port (R48). -/
def Engine.setOpnd (x : Engine) (p : Opnd) (v : Word) : Engine := { x with opnd := Assoc.put x.opnd p v }

/-- The value of an operand port. -/
def Engine.opndVal (x : Engine) (p : Opnd) : Word := Assoc.get 0 x.opnd p

/-- Write guard k; g0 takes nothing (R44). -/
def Engine.setGuard (x : Engine) (k : BitVec 3) (b : Bool) : Engine :=
  if k = 0 then x else { x with g := Assoc.put x.g k b }

/-- Write a register or operand port (R42 to R44, R48, R49); a trigger port starts its unit elsewhere. -/
def Engine.writePort (x : Engine) (t : Dst) (v : Word) : Engine :=
  match t with
  | .d i => { x with d := Assoc.put x.d i v }
  | .g k => x.setGuard k (decide (v ≠ 0))
  | .bnk => { x with bnk := v.setWidth 20 }
  | .rc => { x with rc := v.setWidth 16 }
  | .opnd p => x.setOpnd p v
  | .trig _ => x

/-- The bank of a trigger: its far prefix, or bnk (R88, R164, R519). -/
def Engine.bank (x : Engine) (m : Move) : Nat := match m.pre.far with | some b => b.toNat | none => x.bnk.toNat

/-- The count of a repeat prefix (R85, R90). -/
def Rep.count (r : Rep) (rc : BitVec 16) : Nat :=
  match r with | .rep nn => nn.toNat + 1 | .repi n => n.toNat | .repiRc => rc.toNat

/-- Tokens of a trigger (R337). -/
def Trig.tokens : Trig → Nat
  | .mul _ => 1
  | .fpu op => if op.isLong then 6 else 2
  | .ipl _ => 16
  | .kin _ => 24
  | _ => 0

/-! ### Divergences (R382) -/

/-- Note a divergence of partition p's Decant; the least KIND is kept (R382). -/
def Device.diverge (d : Device) (p kind : Nat) (engine : Option Nat) (lane : Option (Nat × Nat)) : Device :=
  match d.decantOf p with
  | none => d
  | some r =>
    let v := r.vstep d.now
    let first := match r.found with | some f => decide (v = r.foundAt ∧ kind < f.1) | none => true
    if first then d.onPart p (fun q => { q with decant := some { r with found := some (kind, engine, lane), foundAt := v } }) else d

/-- What partition p's Decant consumes has no record: a divergence (R382), but where a record of this step has not been read in, since a Decant
that starves does not diverge (R383). -/
def Device.missing (d : Device) (p kind : Nat) (engine : Option Nat) (lane : Option (Nat × Nat)) : Device :=
  match d.decantOf p with
  | some r => if r.starved d.now then d else d.diverge p kind engine lane
  | none => d

end Sys2Proof.Machine
end

