-- ==== Sys2Proof/Machine/System.lean ====
section
/-! DEFINITION. The system registers of an engine, their ring limits, reads and writes, and the transfers that change rings
and levels: gates, the fast system call, the system return and the level return (R194 to R213, R222 to R230). -/

namespace Sys2Proof.Machine

/-- The system registers (R222). -/
inductive SysReg
  | eid | st | acst | actl | pgrant | gtb | htb | gsp (k : Nat) | sep (k : Nat) | srp | srs | pwa (j : Nat) | pwc (j : Nat)
  | save (n i : Nat)
  deriving DecidableEq, Repr

/-- The register a `sys.sel` value names (R194, R222); none where it is not assigned. -/
def SysReg.ofSel (w : Word) : Option SysReg :=
  let n := w.toNat
  if n = 0 then some .eid else if n = 1 then some .st else if n = 2 then some .acst else if n = 3 then some .actl
  else if n = 4 then some .pgrant else if n = 0x10 then some .gtb else if n = 0x11 then some .htb
  else if 0x12 ≤ n ∧ n ≤ 0x14 then some (.gsp (n - 0x12))
  else if 0x18 ≤ n ∧ n ≤ 0x1A then some (.sep (n - 0x17))
  else if n = 0x1B then some .srp else if n = 0x1C then some .srs
  else if 0x20 ≤ n ∧ n ≤ 0x23 then some (.pwa (n - 0x20))
  else if 0x28 ≤ n ∧ n ≤ 0x2B then some (.pwc (n - 0x28))
  else if 0x110 ≤ n ∧ n < 0x140 ∧ n % 16 ≤ 5 then some (.save (n / 16 - 0x10) (n % 16))
  else none

/-- The highest ring that reads a register (R222). -/
def SysReg.readRing : SysReg → Nat
  | .gtb => 1 | .htb => 1 | .gsp k => k | .sep k => k - 1 | .srp => 2 | .srs => 2 | .pwa _ => 1 | .pwc _ => 1
  | .save _ _ => 2
  | _ => 3

/-- The highest ring that writes a register; none where it is read-only (R222). -/
def SysReg.writeRing : SysReg → Option Nat
  | .eid => none | .pgrant => none | .st => some 2 | .acst => some 3 | .actl => some 3 | .gtb => some 0 | .htb => some 0
  | .gsp k => some k | .sep k => some (k - 1) | .srp => some 2 | .srs => some 2
  | .pwa j => some (if j < 2 then 0 else 1) | .pwc j => some (if j < 2 then 0 else 1)
  | .save _ _ => some 2

/-- Save set n. -/
def Engine.saveSet (x : Engine) (n : Nat) : SaveSet := Assoc.get {} x.save (BitVec.ofNat 2 n)
def Engine.setSave (x : Engine) (n : Nat) (s : SaveSet) : Engine := { x with save := Assoc.put x.save (BitVec.ofNat 2 n) s }

/-- A save-set register asks besides a ring not above SYS.SSTn.RING (R222). -/
def Engine.saveRing (x : Engine) : SysReg → Bool
  | .save n _ => decide (x.ring ≤ fld (x.saveSet n).sst 0 2)
  | _ => true

/-- The PRIVILEGE detail of a sys trigger; 0 for none (R194, R221). -/
def Engine.sysDetail (x : Engine) (write : Bool) (sel : Word) : Nat :=
  match SysReg.ofSel sel with
  | none => 0
  | some r =>
    if write then
      match r.writeRing with
      | none => 0
      | some k => if k < x.ring || !x.saveRing r then 2 else 0
    else if r.readRing < x.ring || !x.saveRing r then 1 else 0

/-- Tokens per window of engine e (R225, R338). -/
def Device.grantOf (d : Device) (e : Nat) : Nat :=
  match d.image with | some i => Assoc.get 0 i.layout.grants e | none => 0

/-- A system register as it reads (R223 to R230). -/
def Device.sysRead (d : Device) (e : Nat) (sel : Word) : Word :=
  let x := d.eng e
  match SysReg.ofSel sel with
  | none => 0
  | some .eid => word (d.seenEngine e e + 65536 * ((d.engPart e).map d.seenPart).getD 0)
  | some .st => x.stWord
  | some .acst => x.acst.setWidth 32
  | some .actl => x.actl.setWidth 32
  | some .pgrant => word (d.grantOf e % 512)
  | some .gtb => x.gtb.setWidth 32
  | some .htb => x.htb.setWidth 32
  | some (.gsp k) => word (8 * (Assoc.get 0x2000 x.gsp (BitVec.ofNat 2 k)).toNat)
  | some (.sep k) => Assoc.get 0 x.sep (BitVec.ofNat 2 k)
  | some .srp => x.srp
  | some .srs => x.srs.setWidth 32
  | some (.pwa j) => (Assoc.get 0 x.pwa (BitVec.ofNat 2 j)).setWidth 32
  | some (.pwc j) => (Assoc.get 0 x.pwc (BitVec.ofNat 2 j)).setWidth 32
  | some (.save n i) =>
    let s := x.saveSet n
    match i with | 0 => s.spc | 1 => s.sst | 2 => s.src | 3 => s.sbk | 4 => s.sfa | _ => s.sfc

/-- A write of SYS.ST (R213, R224): GIE alone at ring 2; GIE and MLV at rings 0 and 1, and GRD = 0 there in Free, Paced or
Decant. -/
def Engine.writeSt (x : Engine) (ring : Nat) (normal : Bool) (v : Word) : Engine :=
  let st := { x.st with gie := bit v 4 }
  if ring = 2 then { x with st := st }
  else { x with st := { st with mlv := BitVec.ofNat 2 (fld v 5 2), grd := x.st.grd && (bit v 7 || !normal) } }

/-- A save-set register takes its RW fields (R230). -/
def SaveSet.write (s : SaveSet) (i : Nat) (v : Word) : SaveSet :=
  match i with
  | 0 => { s with spc := v &&& 0x1FFFFFF }
  | 1 => { s with sst := v &&& 0x7FF07F }
  | 2 => { s with src := v &&& 0x7FFFFFFF }
  | 3 => { s with sbk := v &&& 0xFFFFF }
  | 4 => { s with sfa := v }
  | _ => { s with sfc := v &&& 0x1FFFFFF }

/-- A system register takes a value at ring `ring` (R110, R194, R195, R222 to R230). -/
def Device.sysWrite (d : Device) (e ring : Nat) (sel v : Word) : Device :=
  let normal := match d.engPart e with
    | some p => (match (d.part p).mode with | .free | .paced | .decant => true | _ => false)
    | none => false
  d.onEng e (fun x =>
    match SysReg.ofSel sel with
    | some .st => x.writeSt ring normal v
    | some .acst =>
      let kept := if x.flagsAt = x.step then x.flagsNew else 0
      { x with acst := x.acst &&& ~~~ (v.setWidth 9 &&& ~~~ kept) }
    | some .actl => { x with actl := v.setWidth 3 }
    | some .gtb => { x with gtb := v.setWidth 26 }
    | some .htb => { x with htb := v.setWidth 29 }
    | some (.gsp k) => { x with gsp := Assoc.put x.gsp (BitVec.ofNat 2 k) (BitVec.ofNat 14 (fld v 3 14)) }
    | some (.sep k) => { x with sep := Assoc.put x.sep (BitVec.ofNat 2 k) v }
    | some .srp => { x with srp := v }
    | some .srs => { x with srs := (v &&& 0xFF07).setWidth 16 }
    | some (.pwa j) => { x with pwa := Assoc.put x.pwa (BitVec.ofNat 2 j) (v.setWidth 28) }
    | some (.pwc j) => { x with pwc := Assoc.put x.pwc (BitVec.ofNat 2 j) ((v &&& 0x1F1F).setWidth 13) }
    | some (.save n i) => x.setSave n ((x.saveSet n).write i v)
    | _ => x)

/-! ### Gates (R199 to R203) -/

/-- The outcome of a gate: a GATE detail, or the target, the ring, GIE, the stack change and the table's address. -/
inductive GateOutcome
  | bad (detail : Nat)
  | enter (ring : Nat) (target : Word) (mask : Bool)
  | leave (ring : Nat) (target : Word) (gie : Bool)
  deriving DecidableEq, Repr

/-- SYS.GSPk.OFF (R227). -/
def Engine.gspOff (x : Engine) (k : Nat) : Nat := (Assoc.get 0x2000 x.gsp (BitVec.ofNat 2 k)).toNat

/-- The address of descriptor n (R199). -/
def Engine.gateAddr (x : Engine) (n : Nat) : Nat := x.gtb.toNat * 16384 + 16 * n

/-- The address of the gate record at offset `off` in the own scratchpad. -/
def recordAddr (e off : Nat) : Nat := canon e ((8 * off) % 0x10000)

/-- The checks of R200 and R201, in their order. -/
def Device.gateCheck (d : Device) (e : Nat) (t : Word) : GateOutcome :=
  let x := d.eng e
  let k := x.ring
  if t = 0xFFFF then
    if k = 3 ∨ 0x2000 ≤ x.gspOff k then .bad 6
    else
      let a := recordAddr e (x.gspOff k)
      if d.uncorrectable a 8 then .bad 2
      else
        let w1 := d.loadWord (a + 4)
        if fld w1 3 29 ≠ 0 ∨ fld w1 0 2 < k then .bad 7 else .leave (fld w1 0 2) (d.loadWord a) (bit w1 2)
  else if 1023 < t.toNat then .bad 1
  else match d.tableRead e (d.place e (x.gateAddr t.toNat)) 16 with
    | none => .bad 2
    | some bs =>
      let w0 := word (fromBytes (bs.take 4))
      let w1 := word (fromBytes ((bs.drop 4).take 4))
      if !bit w1 31 ∨ fld w1 8 23 ≠ 0 ∨ bit w1 3 ∨ fromBytes (bs.drop 8) ≠ 0 ∨ fld w1 0 2 = 3 then .bad 3
      else if !bit w1 (4 + k) then .bad 4
      else
        let j := fld w1 0 2
        if k < j then .bad 5
        else if x.gspOff j = 0 ∨ 0x2000 < x.gspOff j then .bad 6
        else .enter j w0 (bit w1 2)

/-- Take a gate at address a whose next instruction is at `next` (R200 to R203); a failed check faults after M0. A record
pushed into a word that cannot be corrected leaves the word, and the gate goes on (log entry 72). -/
def Device.gate (d : Device) (e s a : Nat) (next t : Word) : Device :=
  let x := d.eng e
  match d.gateCheck e t with
  | .bad f =>
    let at_ := if t = 0xFFFF then recordAddr e (x.gspOff x.ring) else d.place e (x.gateAddr t.toNat)
    let d := if f = 2 ∧ d.uncorrectable at_ 8 then d.eccError at_ else d
    d.takeCause e (faultCause 0x07 f a false) { pc := next, slot1 := false, m0len := 0, rep := 0 } s
  | .enter j target mask =>
    let off := x.gspOff j - 1
    let at_ := d.place e (x.gateAddr t.toNat)
    let (cost, d) := (d.readOver (canon e at_) 16).tableCost e at_
    let d := d.storeBytes (recordAddr e off) (toBytes 4 next.toNat ++ toBytes 4 (x.ring + (if x.st.gie then 4 else 0)))
    let d := d.onEng e (fun x => { x with
      gsp := Assoc.put x.gsp (BitVec.ofNat 2 j) (BitVec.ofNat 14 off)
      st := { x.st with ring := BitVec.ofNat 2 j, gie := x.st.gie && !mask } })
    d.taken e s cost a target
  | .leave r target gie =>
    let k := x.ring
    let d := (d.readOver (recordAddr e (x.gspOff k)) 8).onEng e (fun x => { x with
      gsp := Assoc.put x.gsp (BitVec.ofNat 2 k) (BitVec.ofNat 14 (x.gspOff k + 1))
      st := { x.st with ring := BitVec.ofNat 2 r, gie := gie } })
    d.taken e s 2 a target

/-! ### System calls and returns (R204 to R206, R211) -/

/-- The PRIVILEGE detail of a cu trigger; 0 for none (R204, R206, R211, R221). `t` is the datum where it can be read. -/
def Engine.cuDetail (x : Engine) (op : CuOp) (t : Option Word) : Nat :=
  match op with
  | .sysc => if x.ring = 0 then 3 else 0
  | .sysr =>
    if x.ring = 3 then 4 else
    match t with
    | none => 0
    | some t =>
      if bit t 0 then (if fld (x.srs.setWidth 32) 0 2 < x.ring then 5 else 0)
      else if x.st.lvl = 0 then 6
      else
        let sst := (x.saveSet x.st.lvl.toNat).sst
        if fld sst 0 2 < x.ring ∨ x.st.lvl.toNat ≤ fld sst 2 2 then 5 else 0
  | _ => 0

/-- cu.t.sysc (R204). -/
def Device.sysc (d : Device) (e s a : Nat) (next t : Word) : Device :=
  let x := d.eng e
  let k := x.ring
  let d := d.onEng e (fun x => { x with
    srp := next
    srs := BitVec.ofNat 16 (k + (if x.st.gie then 4 else 0) + 256 * fld t 0 8)
    st := { x.st with ring := BitVec.ofNat 2 (k - 1) } })
  d.taken e s 0 a (Assoc.get 0 x.sep (BitVec.ofNat 2 k))

/-- The system return (R205). -/
def Device.systemReturn (d : Device) (e s a : Nat) : Device :=
  let x := d.eng e
  let d := d.onEng e (fun x => { x with
    st := { x.st with ring := BitVec.ofNat 2 (fld (x.srs.setWidth 32) 0 2), gie := bit (x.srs.setWidth 32) 2 } })
  d.taken e s 0 a x.srp

/-- A request joins the queue: after those of earlier periods, in ascending engine number within its period (R51). -/
def enqueue (r : Request) : List Request → List Request
  | [] => [r]
  | q :: qs => if r.trig = q.trig ∧ r.engine < q.engine then r :: q :: qs else q :: enqueue r qs

/-- A suspended remainder re-enters the queue as a new request of this period, and the requests its context left queued follow it in their
order (R51, R54, R159; log entry 64). -/
def Unit3.reenter (u : Unit3) (rest : Request) (now : Nat) : Unit3 :=
  let mine := fun (r : Request) => decide (r.engine = rest.engine ∧ r.ctx = rest.ctx) && !r.dead
  let again := rest :: u.queue.filter mine
  { u with queue := again.foldl (fun q r => enqueue { r with trig := now } q) (u.queue.filter (fun r => !mine r)) }

/-- BMV_RESUME (R54, R159): at the return from a level, its parked remainder re-enters first with the length SYS.SRCn.BMV
holds; 0 ends it as complete. A transfer whose suspension is not complete yet re-enters at its end. What the context left queued is served
from now on. -/
def Device.resumeBmv (d : Device) (e level : Nat) (ctx : Nat) : Device :=
  let units := fld ((d.eng e).saveSet level).src 16 15
  let d := d.onCluster (e / 16) (fun c => { c with bmv := { c.bmv with
    queue := c.bmv.queue.map (fun r => if r.engine = e ∧ r.ctx = ctx then { r with earliest := d.now } else r) } })
  let c := d.cluster (e / 16)
  match c.parked.find? (fun p => decide (p.req.engine = e ∧ p.level.toNat = level ∧ !p.req.dead ∧ !p.returned)) with
  | some p =>
    let d := d.onCluster (e / 16) (fun c => { c with parked := c.parked.erase p })
    let n := min units p.req.left
    if n = 0 then d.onEng e (fun x => x.commit ctx [(.bmvSt, 0)])
    else d.onCluster (e / 16) (fun c => { c with bmv := c.bmv.reenter { p.req with left := n } d.now })
  | none =>
    d.onCluster (e / 16) (fun c =>
      match c.bmv.service with
      | some s =>
        if s.req.engine = e ∧ s.suspendAt = some level then
          { c with parked := c.parked ++ [{ req := s.req, level := BitVec.ofNat 2 level, returned := true }] }
        else c
      | none => c)

/-- ERET (R211, R150, R520): a level return restores the interrupted context and resumes it. -/
def Device.levelReturn (d : Device) (e s a : Nat) : Device :=
  let x := d.eng e
  let n := x.st.lvl.toNat
  let set := x.saveSet n
  let ctx := match set.ctx with | some c => c | none => x.ctx
  let g := fun (k : Nat) => bit set.sst (15 + k)
  let back := (set.spc &&& 0xFFFFFF) - (if bit set.spc 24 then word (fld set.sst 12 4) else 0)
  let count := fld set.src 0 16
  let x := { x with
    st := { x.st with ring := BitVec.ofNat 2 (fld set.sst 0 2), lvl := BitVec.ofNat 2 (fld set.sst 2 2)
                      gie := bit set.sst 4, mlv := BitVec.ofNat 2 (fld set.sst 5 2) }
    g := [(1, g 1), (2, g 2), (3, g 3), (4, g 4), (5, g 5), (6, g 6), (7, g 7)]
    bnk := set.sbk.setWidth 20, res := set.shadow, acc := set.acc, ctx := ctx
    save := Assoc.put x.save (BitVec.ofNat 2 n) { set with ctx := none }
    resumeRep := count }
  let d := d.setEng e (x.inherit (d.eng e).ctx ctx)
  let d := d.resumeBmv e n ctx
  (d.taken e s 0 a back).onEng e (fun x => { x with bar := set.bar })

end Sys2Proof.Machine
end

