-- ==== Sys2Proof/Machine/Checks.lean ====
section
/-! DEFINITION. What an engine checks at each trigger, precisely: alignment, decoding, visibility, windows, limits and
privilege, with the code, detail and fault address of R219 and the rank of R97 (R53, R127, R167, R194, R198, R244, R272). -/

namespace Sys2Proof.Machine

/-- A condition of a precise fault: its rank in R97, slot, code, detail and, where SFA holds one, the physical address. -/
structure Flaw where
  rank : Nat
  slot : Nat
  code : Nat
  detail : Nat
  fa : Option Nat
  deriving DecidableEq, Repr

/-- The earlier of two conditions in the order of R97: rank, then slot; of one slot the lowest detail of a fault, and of two faults of one kind the
one that R97 names first, which is listed first (log entry 70). -/
def Flaw.before (a b : Flaw) : Bool :=
  decide (a.rank < b.rank) || (decide (a.rank = b.rank) &&
    (decide (a.slot < b.slot) || (decide (a.slot = b.slot) && (decide (a.code ≠ b.code) || decide (a.detail ≤ b.detail)))))

/-- The condition that is reported (R97). -/
def firstFlaw : List Flaw → Option Flaw
  | [] => none
  | f :: fs => match firstFlaw fs with | none => some f | some g => if f.before g then some f else some g

/-- The names of the byte at an address as engine e issues it: its own scratchpad has two (R161), by the number the engine sees (R378). -/
def Device.namesOf (d : Device) (e a : Nat) : List Nat :=
  let row := 0x100000000 + d.seenEngine e e * 0x10000
  if a < 0x10000 then [a, row + a] else if row ≤ a ∧ a < row + 0x10000 then [a, a - row] else [a]

/-- Does a window of engine e deny an access to an address as issued, by any of its names (R197, R198)? -/
def Device.denied (d : Device) (e a : Nat) (store : Bool) : Bool :=
  (d.namesOf e a).any (fun n => (d.eng e).windowDenies (d.eng e).ring store n)

/-- The BUS_ERROR detail of an access of engine e at an address as issued (R166, R167, R196 to R198, R378). An address that names nothing or
an absent unit is none a window can stand over. -/
def Device.accessDetail (d : Device) (e a : Nat) (k : Kind) (size : Nat) : Nat :=
  worse (d.busDetail e (d.place e a) k size) (if d.denied e a (decide (k ≠ .load)) then 5 else 0)

/-- The address of an lsu access (R164, R165). -/
def lsuAddr (op : LsuOp) (bank : Nat) (a t : Word) : Nat :=
  bank * 0x100000 + (if op.kind = .load then (a + t).toNat % 0x100000 else a.toNat % 0x100000)

/-- The condition an lsu trigger meets (R167, R172). -/
def Device.lsuFlaw (d : Device) (e slot bank : Nat) (op : LsuOp) (a t : Word) : Option Flaw :=
  let adr := lsuAddr op bank a t
  let isReg := match regionOf (canon e adr) with | some (.device _) => true | _ => false
  let mis := if isReg then 0 else alignDetail adr op.size (decide (op.kind = .atomic))
  if mis ≠ 0 then some { rank := 7, slot := slot, code := 0x02, detail := mis, fa := some adr } else
  let bus := d.accessDetail e adr op.kind op.size
  if bus ≠ 0 then some { rank := 8, slot := slot, code := 0x03, detail := bus, fa := some adr } else none

/-- The cluster SRAM address a kin or ipl block offset names (R127); a block that runs past the end of the SRAM goes on at its start (R131, log
entry 71). -/
def blockAddr (e : Nat) (w : Word) (k : Nat) : Nat := 0x200000000 + e / 16 * 0x400000 + (w.toNat + k) % 0x400000

/-- The cluster SRAM address that an engine sees for a block offset (R127, R378). -/
def Device.seenBlock (d : Device) (e : Nat) (w : Word) (k : Nat) : Nat := blockAddr (d.seenEngine e e) w k

/-- The blocks of a kin or ipl request: offset word, alignment, length, whether it is loaded, whether it is stored (R127,
R131); the offset is unknown where its source cannot be read. -/
def blockSpans (tr : Trig) (o : Opnd → Option Word) (t : Option Word) : List (Option Word × Nat × Nat × Bool × Bool) :=
  match tr with
  | .kin .mv4 => [(o .kinA, 64, 64, true, false), (o .kinB, 16, 16, true, false), (t, 16, 16, false, true)]
  | .kin .norm3 => [(t, 16, 12, true, true)]
  | .ipl _ => [(o .iplA, 64, 0xB0, true, true)]
  | _ => []

/-- The condition a kin or ipl trigger meets (R127, R198): alignment first, then form, then windows. -/
def Device.blockFlaw (d : Device) (e slot : Nat) (spans : List (Option Word × Nat × Nat × Bool × Bool)) : Option Flaw :=
  let mis := spans.findSome? (fun p => match p.1 with
    | some w => if w.toNat % p.2.1 ≠ 0 then
        some { rank := 7, slot := slot, code := 0x02, detail := 4, fa := some (d.seenBlock e w 0) } else none
    | none => none)
  let bad := spans.findSome? (fun p => match p.1 with
    | some w =>
      let lo := d.seenBlock e w 0
      let hi := d.seenBlock e w (p.2.2.1 - 1)
      if (p.2.2.2.1 && (d.denied e lo false || d.denied e hi false)) || (p.2.2.2.2 && (d.denied e lo true || d.denied e hi true)) then
        some { rank := 8, slot := slot, code := 0x03, detail := 5, fa := some lo : Flaw }
      else if fld w 22 10 ≠ 0 then some { rank := 8, slot := slot, code := 0x03, detail := 7, fa := none }
      else none
    | none => none)
  match mis with | some f => some f | none => bad

/-- The detail of one byte of a bmv range: device register space has none that a transfer may reach (R519). -/
def Device.byteDetail (d : Device) (e a : Nat) (k : Kind) : Nat := d.accessDetail e a k 1

/-- Does a byte's detail depend on its place inside a 64-byte block: in the channel directory, whose headers take stores to some words only (R273)? -/
def Device.splitBlock (d : Device) (e a : Nat) (k : Kind) : Bool :=
  decide (k = .store) && (match regionOf (d.place e a) with | some (.xram _) => decide (d.place e a % 0x10000 < 0x1000) | _ => false)

/-- The first byte of a bmv range whose access fails, with its detail: every byte is checked, and the bytes of a 64-byte block have one
detail but in the channel directory (R519). -/
def Device.rangeFails (d : Device) (e : Nat) (k : Kind) : Nat → Nat → Option (Nat × Nat)
  | 0, _ => none
  | n + 1, a =>
    let tried := if d.splitBlock e a k then (List.range 64).map (a + ·) else [a]
    match tried.find? (fun b => decide (d.byteDetail e b k ≠ 0)) with
    | some b => some (b, d.byteDetail e b k)
    | none => d.rangeFails e k n (a + 64)

/-- The addresses of a bmv request (R519). -/
def bmvAddr (bank : Nat) (w : Word) : Nat := bank * 0x100000 + w.toNat % 0x100000

/-- The condition a bmv trigger meets (R53, R519). -/
def Device.bmvFlaw (d : Device) (e slot bank : Nat) (op : BmvOp) (a b : Option Word) (t : Option Word) : Option Flaw :=
  let x := d.eng e
  let src := (if op = .copy then a else none).map (bmvAddr x.bnk.toNat)
  let dst := b.map (bmvAddr bank)
  let mis := [dst, src].findSome? (fun p => match p with
    | some w => if w % 64 ≠ 0 then some { rank := 7, slot := slot, code := 0x02, detail := 4, fa := some w : Flaw } else none
    | none => none)
  match mis with
  | some f => some f
  | none =>
    match t with
    | none => none
    | some t =>
      if t = 0 ∨ t.toNat % 64 ≠ 0 ∨ 1048576 < t.toNat then
        some { rank := 8, slot := slot, code := 0x03, detail := 7, fa := none }
      else
        let n := t.toNat / 64
        let fail := match src.bind (fun w => d.rangeFails e .load n w) with
          | some f => some f
          | none => dst.bind (fun w => d.rangeFails e .store n w)
        fail.map (fun f => { rank := 8, slot := slot, code := 0x03, detail := f.2, fa := some f.1 })

/-- Does a point lie in the run of a valid inbound exchange window (R436, R440)? -/
def Device.inboundPoint (d : Device) (pt : Nat) : Bool :=
  (List.range 64).any (fun j =>
    let a := d.reg (.lnkXwa j)
    bit a 31 && bit a 30 && decide (fld a 0 25 ≤ pt ∧ pt ≤ fld a 0 25 + fld (d.reg (.lnkXwb j)) 0 16))

/-- The BUS_ERROR detail of a pt trigger; 0 for none (R244). -/
def Device.ptDetail (d : Device) (e : Nat) (op : PtOp) (idx : Word) : Nat :=
  let pt := d.placePoint e (fld idx 0 25)
  match d.pointRange pt with
  | none => 1
  | some (_, owner) =>
    if fld idx 27 5 ≠ 0 then 1 else
    let part := d.engPart e
    let imported := match part with | some p => d.imports p pt | none => false
    if part ≠ some owner ∧ !imported then 4
    else if op = .wr ∧ (2 ≤ fld idx 25 2 ∨ part ≠ some owner ∨ d.inboundPoint pt) then 6
    else 0

/-- The BUS_ERROR detail of a ch send; 0 for none (R270, R272). -/
def Device.chDetail (d : Device) (e : Nat) (dst : Word) : Nat :=
  if fld dst 17 15 ≠ 0 then 1
  else
    let k := d.placeEngine e (fld dst 0 10)
    if d.grade.engines ≤ k then 2
    else if d.engPart k = d.engPart e ∧ d.engPart e ≠ none then 0 else 4

/-- Requests of engine e to a shared unit that are triggered and not completed (R52). -/
def Device.sharedLoad (d : Device) (e : Nat) (u : SharedUnit) : Nat :=
  let c := d.cluster (e / 16)
  let q := match u with | .kin => c.kin | .ipl => c.ipl | .bmv => c.bmv
  (q.queue.filter (fun r => decide (r.engine = e))).length +
  (match q.service with | some s => if s.req.engine = e then 1 else 0 | none => 0) +
  (if u = .bmv then (c.parked.filter (fun p => decide (p.req.engine = e) && !p.returned)).length else 0)

/-- Is a request alive that an interrupted context of its engine left in a shared unit (R67)? -/
def Engine.interrupted (x : Engine) (r : Request) : Bool := !r.dead && decide (r.ctx ≠ x.ctx) && (x.setOf r.ctx).isSome

/-- Has an interrupted context of engine e a request in a unit (R67)? bmv serves a handler's requests normally (R159). -/
def Device.heldBehind (d : Device) (e : Nat) (u : Unit3) : Bool :=
  let hit := fun (r : Request) => decide (r.engine = e) && (d.eng e).interrupted r
  u.queue.any hit || u.service.any (fun s => hit s.req)

/-- Is a short fpu operation in flight (R57)? -/
def Engine.fpuBusy (x : Engine) : Bool := x.short.any (fun o => o.writes.any (fun w => decide (w.1 = .fpuR)))

/-- The SCHEDULE detail of a trigger alone; 0 for none (R52, R56, R57, R67, R68). -/
def Device.retrigger (d : Device) (e : Nat) (tr : Trig) : Nat :=
  let x := d.eng e
  match tr with
  | .div _ => if x.div.isSome then 5 else 0
  | .fpu op => if x.fpuLong.isSome || (op.isLong && x.fpuBusy) then 5 else 0
  | .lsu _ => if 8 ≤ x.lsu.length then 7 else 0
  | .kin _ => if d.heldBehind e (d.cluster (e / 16)).kin then 5 else if 4 ≤ d.sharedLoad e .kin then 6 else 0
  | .ipl _ => if d.heldBehind e (d.cluster (e / 16)).ipl then 5 else if 4 ≤ d.sharedLoad e .ipl then 6 else 0
  | .bmv _ => if 4 ≤ d.sharedLoad e .bmv then 6 else 0
  | _ => 0

/-- The conditions a trigger meets by its own operands (R97 kinds 3, 6, 7 and 8): `o` gives the operand ports after the
pair's writes (R41) and `t` the datum, where they can be read. -/
def Device.triggerFlaws (d : Device) (e slot : Nat) (m : Move) (tr : Trig) (o : Opnd → Option Word) (t : Option Word) : List Flaw :=
  let x := d.eng e
  let priv := match tr with
    | .sys op => match o .sysSel with | some sel => x.sysDetail (decide (op = .wr)) sel | none => 0
    | .cu op => x.cuDetail op t
    | _ => 0
  let sched := d.retrigger e tr
  let own : Option Flaw := match tr with
    | .lsu op =>
      match o .lsuA, (if op.kind = .load then t else some 0) with
      | some a, some t => d.lsuFlaw e slot (x.bank m) op a t
      | _, _ => none
    | .bmv op => d.bmvFlaw e slot (x.bank m) op (o .bmvA) (o .bmvB) t
    | .kin _ => d.blockFlaw e slot (blockSpans tr o t)
    | .ipl _ => d.blockFlaw e slot (blockSpans tr o t)
    | .pt op => match o .ptIdx with
      | some idx =>
        let n := d.ptDetail e op idx
        if n = 0 then none else some { rank := 8, slot := slot, code := 0x03, detail := n, fa := some (0x4000000000 + 32 * fld idx 0 25) }
      | none => none
    | .ch .send => match o .chDst with
      | some dst =>
        let n := d.chDetail e dst
        if n = 0 then none else
          some { rank := 8, slot := slot, code := 0x03, detail := n, fa := some (chHeader (fld dst 0 10) (fld dst 10 3)) }
      | none => none
    | _ => none
  (if priv = 0 then [] else [{ rank := 3, slot := slot, code := 0x06, detail := priv, fa := none }]) ++
  (if sched = 0 then [] else [{ rank := 6, slot := slot, code := 0x04, detail := sched, fa := none }]) ++
  (match own with | some f => [f] | none => [])

/-- Does a pt or ch trigger have to wait, in every mode (R245, R282)? -/
def Device.mustWait (d : Device) (e : Nat) (tr : Trig) : Bool :=
  let x := d.eng e
  match tr with
  | .pt .wr => decide (24 ≤ (d.inFlight.filter (fun u => decide (u.origin = .engine e))).length)
  | .pt _ => decide (32 ≤ x.pt.length)
  | .ch _ => decide (8 ≤ x.ch.length)
  | _ => false

/-- The SCHEDULE detail of a pair; 0 for none (R68, R102): M1 is the faulting instruction. Two moves into one trigger port are a DOUBLE_TRIGGER
before a DOUBLE_DEST (log entry 70). -/
def pairDetail (a b : Move) : Nat :=
  match a.body.dst, b.body.dst with
  | .trig t, .trig u =>
    if t.unit = u.unit then 2 else if t.unit.heavy && u.unit.heavy then 4 else 0
  | p, q => if p = q ∧ p ≠ .g 0 then 3 else 0

end Sys2Proof.Machine
end

