-- ==== Sys2Proof/Machine/Fire.lean ====
section
/-! DEFINITION. What a trigger that passed its checks starts: short operations, long operations, lsu, pt, ch and ev operations
and requests to the shared units (R41, R55, R105 to R126, R164 to R177, R242, R271, R279, R294 to R306, R519). -/

namespace Sys2Proof.Machine

/-- A short operation of the running context in flight. -/
def Engine.pushShort (x : Engine) (due : Nat) (ws : List (ResPort × Word)) (f : BitVec 9) : Engine :=
  { x with short := x.short ++ [{ due := due, writes := ws, flags := f, ctx := x.ctx, drains := true }] }

/-- An ev result that comes at a step; no handler entry drains it (R520). -/
def Engine.pushEv (x : Engine) (due : Nat) (v : Word) : Engine :=
  { x with short := x.short ++ [{ due := due, writes := [(.evR, v)], flags := 0, ctx := x.ctx, drains := false }] }

/-! ### lsu -/

/-- The completion step of the operation before the next one, in a spacing class or in all (R56, R175). -/
def Engine.prevLsu (x : Engine) : Nat := match x.lsu.getLast? with | some l => l.due | none => x.lsuLast
def Engine.prevClass (x : Engine) (c : Spacing) : Option Nat :=
  match (x.lsu.filter (fun l => decide (l.cls = c))).getLast? with
  | some l => some l.due
  | none => match c with | .near => x.lsuNear | .io => x.lsuIo | .none => none

/-- The spacing of a class (R174). -/
def Spacing.steps : Spacing → Nat | .none => 0 | .near => 4 | .io => 32

/-- The completion step of an operation behind others: R56, and in Paced the spacing of its class (R175). -/
def LsuRun.dueAfter (l : LsuRun) (paced : Bool) (prev : Nat) (near io : Option Nat) : Nat :=
  let gap := match l.cls with
    | .none => 0
    | .near => (near.map (· + Spacing.steps .near)).getD 0
    | .io => (io.map (· + Spacing.steps .io)).getD 0
  max (max l.base (prev + 1)) (if paced then gap else 0)

/-- The completion steps of operations left in the queue, counted afresh after one before them was cancelled (R56, R168). -/
def redue (paced : Bool) : Nat → Option Nat → Option Nat → List LsuRun → List LsuRun
  | _, _, _, [] => []
  | prev, near, io, l :: ls =>
    let due := l.dueAfter paced prev near io
    { l with due := due } ::
      redue paced due (if l.cls = .near then some due else near) (if l.cls = .io then some due else io) ls

/-- An lsu operation starts (R56, R164, R169, R174 to R177): its completion step, exact in Paced and the least in Free mode. -/
def Device.fireLsu (d : Device) (e s issue bank : Nat) (op : LsuOp) (a t : Word) : Device :=
  let x := d.eng e
  let adr := lsuAddr op bank a t
  let ca := d.place e adr
  let extra := extraSteps adr op.size (decide (op.kind = .atomic))
  let (cost, cls) := pacedCost e ca
  let run : LsuRun :=
    { op := op, addr := adr, datum := t, trig := s, base := s + (if d.paced e then cost else 2) + extra
      worst := s + freeWorst e ca (d.cached ca) + extra, due := 0, cls := cls, issue := word issue, ctx := x.ctx
      posted := d.now, granted := d.paced e || ownCluster e ca, ring := x.st.ring }
  let due := run.dueAfter (d.paced e) x.prevLsu (x.prevClass .near) (x.prevClass .io)
  (d.setEng e { x with lsu := x.lsu ++ [{ run with due := due }] }).askTarget e ca (.lsu e)

/-! ### pt -/

/-- The die of an engine. -/
def engineDie (e : Nat) : Nat := e / 256

/-- A pt trigger posts its read, subscribe or write (R242, R246): the arrival is fixed in Paced. -/
def Device.firePt (d : Device) (e s : Nat) (op : PtOp) (t : Word) : Device :=
  let x := d.eng e
  let idx := x.opndVal .ptIdx
  let pt := d.placePoint e (fld idx 0 25)
  let home := ((d.pointRange pt).map (·.1)).getD 0
  let arrive := if d.paced e then some (d.now + (if home = engineDie e then 4 else 20)) else none
  match op with
  | .wr =>
    { d with inFlight := d.inFlight ++ [{
        point := pt, aux := decide (fld idx 25 2 = 1), value := t, part := ((d.pointRange pt).map (·.2)).getD 0
        origin := .engine e, trig := s, posted := d.now, arrive := arrive, coalesced := false }] }
  | _ =>
    d.setEng e { x with pt := x.pt ++ [{
      sub := decide (op = .sub), idx := idx, datum := t, trig := s, posted := d.now
      due := if d.paced e then s + 96 else s + 2, arrive := arrive, value := none, ctx := x.ctx }] }

/-! ### ch -/

/-- Words of a channel status (R280). -/
def chStWord (status : Nat) (abn : Bool) (count sender len : Nat) : Word :=
  word (status + 16 * len + 256 * sender + 262144 * count + (if abn then 0x8000000 else 0))

/-- Bytes of a ring slot (R275). -/
def slotBytes (maxw : Nat) : Nat := 8 * ((maxw + 3) / 2)

/-- The messages in a channel's queue (R274). -/
def Device.chCount (d : Device) (h : Nat) : Nat := fld (d.loadWord (h + 12)) 0 9

/-- NSLOT of a channel (R274). -/
def Device.chSlots (d : Device) (h : Nat) : Nat := if fld (d.loadWord (h + 4)) 24 8 = 0 then 256 else fld (d.loadWord (h + 4)) 24 8

/-- A receive reads, and may pop, the head message of a queue that holds one (step 3 of R279): `ch.r`, `ch.st` and the state after. The sender is
the number that the slot holds, as recorded (R378). -/
def Device.takeMessage (d : Device) (e : Nat) (t : Word) : (Word × Word) × Device :=
  let h := chHeader e (fld t 0 3)
  let w0 := d.loadWord h
  let head := fld (d.loadWord (h + 8)) 16 8
  let count := d.chCount h
  let slot := xramBase (e / 16) + 16 * fld w0 0 12 + head * slotBytes (fld w0 24 4)
  let hdr := d.loadWord slot
  let len := fld hdr 10 4
  let idx := fld t 4 4
  let good := decide (idx ≤ len)
  let val := if good then d.loadWord (slot + 4 * (idx + 1)) else 0
  let left := if bit t 8 then count - 1 else count
  let d := (d.readOver h 16).readOver slot (4 * (len + 2))
  let d := if bit t 8 then
      (d.storeWord (h + 8) (setFld (d.loadWord (h + 8)) 16 8 ((head + 1) % d.chSlots h))).storeWord (h + 12) (word (count - 1))
    else d
  ((val, chStWord (if good then 0 else 8) false left (fld hdr 0 10) len), d)

/-- A receive acts on the engine's own queue (R278, R279): `ch.r`, `ch.st` and the state after; none where the queue is empty
and the receive may block. What it reads of the header it corrects (R184). A receive that ends with BAD_WORD for a bit that must be 0, or
with NO_CHANNEL, leaves 0 in `ch.r` (log entry 80). -/
def Device.receive (d : Device) (e : Nat) (t : Word) (canBlock : Bool) : Option ((Word × Word) × Device) :=
  let h := chHeader e (fld t 0 3)
  let w0 := d.loadWord h
  let count := d.chCount h
  let d := d.readOver h 16
  if fld t 11 21 ≠ 0 || bit t 3 then some ((0, chStWord 8 false count 0 0), d)
  else if !bit w0 31 then some ((0, chStWord 4 false count 0 0), d)
  else if bit t 9 then some ((word count, chStWord 0 false count 0 0), d)
  else if count = 0 then
    if canBlock && !bit t 10 then none else some ((0, chStWord 6 false 0 0 0), d)
  else some (d.takeMessage e t)

/-- The Paced count of a last send (R283). -/
def sendCount (e k : Nat) : Nat := if k / 16 = e / 16 then 8 else if engineDie k = engineDie e then 21 else 37

/-- The completion step of the ch operation before the next one (R282). -/
def Engine.prevCh (x : Engine) : Nat := match x.ch.getLast? with | some c => c.due | none => x.chLast

/-- ch.t.send (R271): the word joins the message under assembly; another `ch.dst` discards it and sets ABN. -/
def Device.fireSend (d : Device) (e s : Nat) (t : Word) : Device :=
  let x := d.eng e
  let dst := x.opndVal .chDst
  let fresh := x.msg.isEmpty || decide (x.msgDst ≠ dst)
  let words := (if fresh then [] else x.msg) ++ [t]
  let last := decide (words.length = fld dst 13 4 + 1)
  let count := if last then sendCount e (d.placeEngine e (fld dst 0 10)) else 2
  let due := max (s + (if d.paced e then count else 1)) (x.prevCh + 1)
  let d := if last then d.askTarget e (xramBase (d.placeEngine e (fld dst 0 10) / 16)) (.post e) else d
  d.setEng e { x with
    msg := if last then [] else words, msgDst := dst
    ch := x.ch ++ [{
      recv := false, last := last, dst := word (d.placeEngine e (fld dst 0 10) + 1024 * fld dst 10 3), datum := t, words := words
      trig := s, due := due, start := d.now, landed := none, abn := !x.msg.isEmpty && decide (x.msgDst ≠ dst)
      blocking := false, out := none, ctx := x.ctx }] }

/-- ch.t.recv (R279): in Paced the queue is read at the end of the trigger step, which is the end of the pace period. -/
def Device.fireRecv (d : Device) (e s : Nat) (t : Word) : Device :=
  let x := d.eng e
  let due := max (s + (if d.paced e then 8 else 1)) (x.prevCh + 1)
  let run : ChRun := { recv := true, last := false, dst := 0, datum := t, words := [], trig := s, due := due, start := d.now
                       landed := none, abn := false, blocking := false, out := none, ctx := x.ctx }
  if d.paced e then d.setEng e { x with ch := x.ch ++ [run] }
  else match d.receive e t true with
    | some (out, d) => d.onEng e (fun x => { x with ch := x.ch ++ [{ run with out := some out }] })
    | none => (d.readOver (chHeader e (fld t 0 3)) 16).onEng e (fun x => { x with ch := x.ch ++ [{ run with blocking := true }] })

/-! ### ev -/

/-- Words of an event result (R295). -/
def evWord (num : Nat) (ovr was : Bool) (count : Nat) (bad int limit : Bool) : Word :=
  word (num + (if ovr then 256 else 0) + (if was then 512 else 0) + 65536 * count + (if bad then 0x20000000 else 0) +
    (if int then 0x40000000 else 0) + (if limit then 0x80000000 else 0))

/-- The wait limit of event waits of an engine's partition (R287, R308). -/
def Device.evLimit (d : Device) (e : Nat) : Nat :=
  let n := match d.engPart e with | some p => fld (d.reg (.evrEwlim p)) 0 24 | none => 0
  if n = 0 then 65536 else n

/-- ev triggers (R294 to R296, R304). -/
def Device.fireEv (d : Device) (e s issue : Nat) (op : EvOp) (t : Word) : Device :=
  let x := d.eng e
  match op with
  | .wait =>
    let lo := fld t 0 8
    let hi := fld t 8 8
    let bad := decide (fld t 18 14 ≠ 0 ∨ hi < lo) || (if bit t 16 then decide (63 < hi) else decide (191 < hi))
    let kind := if bad then WaitKind.bad else if bit t 16 then .task lo hi else .lines lo hi
    d.setEng e { x with wait := some { kind := kind, trig := s, start := d.now, limit := d.evLimit e, flt := bit t 17
                                       issue := word issue, ctx := x.ctx } }
  | .ack =>
    let n := t.toNat
    if 191 < n then d.setEng e (x.pushEv (s + 1) (evWord 0 false false 0 true false false))
    else
      let l := (Assoc.get {} x.events n).at d.now
      (d.setEng e (x.pushEv (s + 1) (evWord n (l.ovr && decide (l.clear = .none)) (d.lineLatched e n) 0 false false false))).clearLine e n .ack
  | op =>
    if fld t 6 26 ≠ 0 then d.setEng e (x.pushEv (s + 2) (evWord 0 false false 0 true false false))
    else d.setEng e { x with tasks := x.tasks ++ [{
      ready := decide (op = .ready), slot := fld t 0 6, lands := if d.paced e then d.now + 1 else d.now, ctx := x.ctx }] }

/-! ### Shared units (R51, R52, R519) -/

/-- A trigger of kin, ipl or bmv queues its request (R50 to R52, R519). -/
def Device.fireShared (d : Device) (e issue bank : Nat) (op : SharedOp) (t : Word) : Device :=
  let x := d.eng e
  let (a, b) := match op with
    | .kin _ => (x.opndVal .kinA, x.opndVal .kinB)
    | .ipl _ => (x.opndVal .iplA, 0)
    | .bmv _ => (x.opndVal .bmvA, x.opndVal .bmvB)
  let r : Request :=
    { engine := e, op := op, a := a, b := b, t := t, src := bmvAddr x.bnk.toNat a, dst := bmvAddr bank b, left := t.toNat / 64
      issue := word issue, ctx := x.ctx, trig := d.now, step := x.step, dead := false, stored := [] }
  d.onCluster (e / 16) (fun c =>
    match op with
    | .kin _ => { c with kin := { c.kin with queue := enqueue r c.kin.queue } }
    | .ipl _ => { c with ipl := { c.ipl with queue := enqueue r c.ipl.queue } }
    | .bmv _ => { c with bmv := { c.bmv with queue := enqueue r c.bmv.queue } })

/-! ### Every trigger but cu and sys.t.wr -/

/-- A trigger at step s of the move m issued at address `issue`, with datum t and the operand ports as the pair leaves them
(R41): what it starts. A cu trigger and a system register write act at the end of the pair. -/
def Device.fire (d : Device) (e s issue : Nat) (m : Move) (tr : Trig) (t : Word) : Device :=
  let x := d.eng e
  match tr with
  | .alu second op =>
    let r := aluExec op (x.opndVal (if second then .alu1A else .alu0A)) t
    d.setEng e (x.pushShort (s + 1) [(if second then .alu1R else .alu0R, r.1)] r.2)
  | .shf op => d.setEng e (x.pushShort (s + 1) [(.shfR, shfExec op (x.opndVal .shfA) t)] 0)
  | .cmp cc k =>
    let c := ccHolds cc (x.opndVal .cmpA) t
    d.setEng e ((x.pushShort (s + 1) [(.cmpR, boolWord c)] 0).setGuard k c)
  | .mul op =>
    let r := mulExec op x.acc (x.opndVal .mulA) t
    d.setEng e { (x.pushShort (s + 3) [(.mulRl, r.1), (.mulRh, r.2.1)] r.2.2.2) with acc := r.2.2.1 }
  | .div op =>
    let a := x.opndVal .divA
    let r := divExec op a t
    d.setEng e { ((x.close .divQ).close .divM) with div := some {
      due := s + divSteps (d.paced e) op a t, trig := s, writes := [(.divQ, r.1), (.divM, r.2.1)], flags := r.2.2
      dzFault := decide (r.2.2 &&& flagDZ ≠ 0) && x.actl.getLsbD 2, issue := word issue, ctx := x.ctx } }
  | .fpu op =>
    let a := x.opndVal .fpuA
    let r := fpuExec op (x.actl.toNat % 4) a (x.opndVal .fpuB) t
    let n := fpuSteps (d.paced e) op a t
    if op.isLong then
      d.setEng e { (x.close .fpuR) with fpuLong := some {
        due := s + n, trig := s, writes := [(.fpuR, r.1)], flags := r.2, dzFault := false, issue := word issue, ctx := x.ctx } }
    else d.setEng e (x.pushShort (s + n) [(.fpuR, r.1)] r.2)
  | .lsu op => d.fireLsu e s issue (x.bank m) op (x.opndVal .lsuA) t
  | .pt op => d.firePt e s op t
  | .ch .send => d.fireSend e s t
  | .ch .recv => d.fireRecv e s t
  | .ev op => d.fireEv e s issue op t
  | .sys .rd => d.setEng e (x.pushShort (s + 2) [(.sysR, d.sysRead e (x.opndVal .sysSel))] 0)
  | .sys .wr => d
  | .kin op => d.fireShared e issue (x.bank m) (.kin op) t
  | .ipl op => d.fireShared e issue (x.bank m) (.ipl op) t
  | .bmv op => d.fireShared e issue (x.bank m) (.bmv op) t
  | .cu _ => d

end Sys2Proof.Machine
end

