-- ==== Sys2Proof/Machine/Issue.lean ====
section
/-! DEFINITION. ISSUE_PAIR, REPEAT_ITERATION, LINE_DELIVERY and BARRIER_RELEASE: how an engine fetches, pairs, judges and executes
its moves (R39 to R46, R68 to R71, R90 to R104, R135 to R160, R193 to R220, R337 to R339, R516 to R518). -/

namespace Sys2Proof.Machine

/-! ### Fetch (R135 to R143, R517, R518) -/

/-- The byte at a code address, where its line has been delivered. -/
def Engine.codeByte (x : Engine) (a : Nat) : Option Byte :=
  match x.lines.find? (fun k => decide (k.addr = a / 32 * 32) && k.delivered) with
  | some k => k.bytes[a % 32]?
  | none => none

/-- Is the code word of an address uncorrectable (R185, R219)? -/
def Engine.codeBad (x : Engine) (a : Nat) : Bool :=
  x.lines.any (fun k => decide (k.addr = a / 32 * 32) && k.bad.contains (a % 32 / 8))

/-- The delivered bytes from an address on, at most n. -/
def Engine.codeBytes (x : Engine) : Nat → Nat → List Byte
  | 0, _ => []
  | n + 1, a => match x.codeByte a with | some b => b :: x.codeBytes n (a + 1) | none => []

/-- The bytes that decide a decoding: the shortest prefix that does. -/
def deciding (bs : List Byte) : Nat → Nat
  | 0 => 0
  | n + 1 => let k := deciding bs n; if k ≠ 0 then k else if decodeMove (bs.take (n + 1)) = .more then 0 else n + 1

/-- What stands at an issue point or behind it: an instruction, an illegal one (R94), an unfetchable one (R517), or a byte that
is needed and not there yet. -/
inductive Got | move (m : Move) | illegal (detail : Nat) | unfetchable | needs (a : Nat)
  deriving DecidableEq, Repr

/-- One instruction of an issue: its address, the bytes it takes and what it is. -/
structure Slot where
  addr : Nat
  len : Nat
  got : Got
  bad : Bool
  deriving DecidableEq, Repr

/-- Read the instruction at a code address (R77 to R86, R517): a byte that cannot be fetched decides before a word that cannot be corrected (log
entry 70). -/
def Device.readSlot (d : Device) (e a : Nat) : Slot :=
  let x := d.eng e
  let bs := x.codeBytes 97 a
  let used := deciding bs 97
  let bad := (List.range used).any (fun k => x.codeBad (a + k))
  match decodeMove bs with
  | .ok m len => { addr := a, len := len, got := .move m, bad := bad }
  | .illegal detail => { addr := a, len := used, got := .illegal detail, bad := bad }
  | .more =>
    let n := a + bs.length
    let out := decide (2 ^ 32 ≤ n) || (d.codeAddr (e / 16) (word n)).isNone
    { addr := a, len := bs.length, got := if out then .unfetchable else .needs n, bad := bad }

/-- The issue formed at a point: one or two instructions, or a needed byte (R98 to R100, R518). -/
inductive Formed | go (m0 : Slot) (m1 : Option Slot) | waits (a : Nat)
  deriving DecidableEq, Repr

/-- R99: form the step's issue from the bytes alone. -/
def Device.form (d : Device) (e p : Nat) : Formed :=
  let i1 := d.readSlot e p
  match i1.got with
  | .needs a => .waits a
  | .illegal _ => .go i1 none
  | .unfetchable => .go i1 none
  | .move m =>
    if m.body.dst.isCu || m.pre.rep.isSome then .go i1 none
    else if (p + i1.len) / 16 ≠ p / 16 then .go i1 none
    else
      let i2 := d.readSlot e (p + i1.len)
      match i2.got with
      | .needs a => .waits a
      | .move m2 => if m2.pre.rep.isSome then .go i1 none else .go i1 (some i2)
      | _ => .go i1 none

/-- The lines an instruction takes bytes of. -/
def Slot.lines (i : Slot) : List Nat :=
  if i.len = 0 then [] else
  (List.range ((i.addr + i.len - 1) / 32 - i.addr / 32 + 1)).map (fun k => i.addr / 32 * 32 + 32 * k)

/-- The lines of an issue. -/
def issueLines (m0 : Slot) (m1 : Option Slot) : List Nat := (m0.lines ++ ((m1.map Slot.lines).getD [])).dedup

/-- The corrected words of the lines an issue takes bytes of are counted, once (R140, R184). -/
def Device.countCorrected (d : Device) (e : Nat) (i : Slot) : Device :=
  let at_ := fun (k : CodeLine) (w : Nat) => decide (i.addr < k.addr + 8 * w + 8 ∧ k.addr + 8 * w < i.addr + i.len)
  let hits := ((d.eng e).lines.map (fun k => k.cor.filter (at_ k))).flatten
  (foldDev (fun d _ => d.bump .cfgEcccnt 0 16) d hits).onEng e (fun x => { x with
    lines := x.lines.map (fun k => { k with cor := k.cor.filter (fun w => !at_ k w) }) })

/-- Requests of the step in which an issue takes bytes of lines: in Free mode the two lines after each line that an issue first takes a byte of
(R138), in Paced the successor of the highest (R142). -/
def Device.prefetch (d : Device) (e s : Nat) (used : List Nat) : Device :=
  if d.paced e then
    match used.getLast? with | some l => d.requestLine e s used (l + 32) | none => d
  else
    let fresh := used.filter (fun l => (d.eng e).lines.any (fun k => decide (k.addr = l) && !k.used))
    (d.requestLines e s used ((fresh.map (fun l => [l + 32, l + 64])).flatten)).onEng e (fun x => { x with
      lines := x.lines.map (fun k => { k with used := k.used || used.contains k.addr }) })

/-! ### Faults of an issue (R95 to R97, R144, R220) -/

/-- The condition an instruction's own bytes meet (R97 kinds 1 and 2). -/
def Slot.flaws (i : Slot) (slot : Nat) : List Flaw :=
  (match i.got with
   | .unfetchable => [{ rank := 1, slot := slot, code := 0x03, detail := 8, fa := none }]
   | .illegal k => [{ rank := 2, slot := slot, code := 0x01, detail := k, fa := none }]
   | _ => []) ++
  (if i.bad then [{ rank := 1, slot := slot, code := 0x0D, detail := 0, fa := none }] else [])

/-- A slot that executes: its instruction and its datum, where that can be read. -/
structure Live where
  slot : Nat
  addr : Nat
  len : Nat
  move : Move
  datum : Option Word
  deriving DecidableEq, Repr

/-- The slots whose guards hold (R45, R46), with what they read at the end of the previous step (R40). -/
def Engine.live (x : Engine) (slot : Nat) (i : Slot) : Option Live :=
  match i.got with
  | .move m => if x.guardHolds m then some { slot := slot, addr := i.addr, len := i.len, move := m, datum := x.operand m } else none
  | _ => none

/-- The operand ports after the operand writes of the pair (R41); unknown where a source cannot be read. -/
def operandsAfter (x : Engine) (ls : List Live) (p : Opnd) : Option Word :=
  match ls.reverse.find? (fun l => decide (l.move.body.dst = .opnd p)) with
  | some l => l.datum
  | none => some (x.opndVal p)

/-- The conditions an executing slot meets (R97 kinds 3 to 9). -/
def Device.liveFlaws (d : Device) (e : Nat) (ls : List Live) (l : Live) : List Flaw :=
  let x := d.eng e
  let srcAbsent := match l.move.body.operand with | .port p => p.absent d.grade | .value _ => false
  let read : List Flaw :=
    match l.move.waits with
    | some w =>
      if x.outstanding w then
        if d.paced e then [{ rank := 5, slot := l.slot, code := 0x09, detail := 2, fa := none }] else []
      else if w = .chRw ∧ x.ctx ∈ x.recvFaults ∧ l.datum.isSome then [{ rank := 9, slot := l.slot, code := 0x0A, detail := 1, fa := none }]
      else if l.datum.isNone then [{ rank := 6, slot := l.slot, code := 0x04, detail := 1, fa := none }] else []
    | none => if l.datum.isNone then [{ rank := 6, slot := l.slot, code := 0x04, detail := 1, fa := none }] else []
  (if srcAbsent || l.move.body.dst.absent d.grade then [{ rank := 4, slot := l.slot, code := 0x08, detail := 0, fa := none }] else []) ++
  read ++
  (match l.move.body.dst with
   | .trig t => if t.unit.absent d.grade then [] else d.triggerFlaws e l.slot l.move t (operandsAfter x ls) l.datum
   | _ => [])

/-- POWER_GRANT of an issue's triggers, M0 first (R338, R339). -/
def Device.grantFlaw (d : Device) (e : Nat) : Nat → List Live → Option Flaw
  | _, [] => none
  | used, l :: ls =>
    match l.move.body.dst with
    | .trig (.bmv _) =>
      let has := match d.image with | some i => decide (e / 16 ∈ i.layout.bmvReserve) | none => false
      if has then d.grantFlaw e used ls else some { rank := 10, slot := l.slot, code := 0x05, detail := 2, fa := none }
    | .trig t =>
      if t.tokens ≠ 0 ∧ d.grantOf e < used + t.tokens then
        some { rank := 10, slot := l.slot, code := 0x05, detail := 1, fa := none }
      else d.grantFlaw e (used + t.tokens) ls
    | _ => d.grantFlaw e used ls

/-- The tokens of an issue's triggers (R337). -/
def issueTokens (ls : List Live) : Nat :=
  (ls.map (fun l => match l.move.body.dst with | .trig t => t.tokens | _ => 0)).sum

/-! ### Execution (R40 to R46, R145, R146, R195, R212, R298) -/

/-- The operand writes of the pair (R41). -/
def applyOperands (x : Engine) : List Live → Engine
  | [] => x
  | l :: ls => applyOperands (match l.move.body.dst with | .opnd p => x.setOpnd p (l.datum.getD 0) | _ => x) ls

/-- The triggers of the pair other than cu, M0 first. -/
def Device.fireAll (d : Device) (e s : Nat) : List Live → Device
  | [] => d
  | l :: ls =>
    (match l.move.body.dst with
     | .trig t => d.fire e s l.addr l.move t (l.datum.getD 0)
     | _ => d).fireAll e s ls

/-- The register writes of the pair: a move into a guard wins over a cmp of the same pair (R44). -/
def applyMoves (x : Engine) : List Live → Engine
  | [] => x
  | l :: ls => applyMoves (match l.move.body.dst with | .opnd _ => x | t => x.writePort t (l.datum.getD 0)) ls

/-- The system register writes of the pair, in force from the next step (R195); `sels` are the selectors at the trigger. -/
def Device.applySys (d : Device) (e ring : Nat) (sel : Word) : List Live → Device
  | [] => d
  | l :: ls =>
    (match l.move.body.dst with
     | .trig (.sys .wr) => d.sysWrite e ring sel (l.datum.getD 0)
     | _ => d).applySys e ring sel ls

/-- A cu trigger whose guard holds, at the end of its issue step s (R145, R146, R154, R200 to R212, R298). -/
def Device.fireCu (d : Device) (e s a : Nat) (next : Word) (op : CuOp) (t : Word) : Device :=
  match op with
  | .jmp => d.taken e s 0 a t
  | .call => (d.taken e s 0 a t).onEng e (fun x => { x with res := putResults x.res [(.cuLnk, next)] })
  | .ret => d.taken e s 0 a t
  | .gate => d.gate e s a next t
  | .sysc => d.sysc e s a next t
  | .sysr => if bit t 0 then d.systemReturn e s a else d.levelReturn e s a
  | .bar => d.onEng e (fun x => { x with bar := true })
  | .trap =>
    d.takeCause e { code := 0, detail := fld t 0 5, fa := t.toNat, pa := false, index := 0x20 + fld t 0 5, site := some a }
      { pc := next, slot1 := false, m0len := 0, rep := 0 } s
  | .wait =>
    d.onEng e (fun x => { x with wait := some {
      kind := .cu, trig := s, start := d.now, limit := if t = 0 then d.evLimit e else t.toNat, flt := false
      issue := word a, ctx := x.ctx } })

/-- Does a cu operation transfer control (R139, R149)? -/
def CuOp.transfers : CuOp → Bool
  | .bar => false | .wait => false | _ => true

/-- The cu trigger of an issue: taken, or with a guard that fails (R46, R139, R149). -/
def Device.issueCu (d : Device) (e s : Nat) (i : Slot) (l : Option Live) : Device :=
  match i.got with
  | .move m =>
    match m.body.dst with
    | .trig (.cu op) =>
      match l with
      | some l => d.fireCu e s i.addr (word (i.addr + i.len)) op (l.datum.getD 0)
      | none => if op.transfers then d.notTaken e s i.addr (word (i.addr + i.len)) else d
    | _ => d
  | _ => d

/-- The pair takes effect: operands, triggers, registers, the next issue point, then the cu trigger and the system register
writes, which are none where the cu trigger stopped the engine. `left` is the iterations of a repeat that remain after this one. -/
def Device.execute (d : Device) (e s : Nat) (m0 : Slot) (m1 : Option Slot) (ls : List Live) (left : Nat) : Device :=
  let last := m1.getD m0
  let next := word (last.addr + last.len)
  let ring := (d.eng e).ring
  let d := d.onEng e (fun x => applyOperands x ls)
  let sel := (d.eng e).opndVal .sysSel
  let d := (d.fireAll e s ls).onEng e (fun x => applyMoves x ls)
  let d := d.onEng e (fun x => { x with
    tokens := x.tokens + issueTokens ls, resumeRep := 0, readyAt := s + 1
    pc := if left = 0 then next else x.pc
    recvFaults := if ls.any (fun l => decide (l.move.body.dst = .trig (.ch .recv))) then x.recvFaults.filter (· ≠ x.ctx) else x.recvFaults
    rep := if left = 0 then none else
      match m0.got with
      | .move m => some { move := m, len := m0.len, left := left, interruptible := match m.pre.rep with | some (.rep _) => false | _ => true }
      | _ => none })
  let d := d.issueCu e s last (ls.find? (fun l => decide (l.addr = last.addr)))
  match (d.eng e).run with | .running => d.applySys e ring sel ls | _ => d

/-! ### One step (R63, R88, R97, R153 to R157, R218) -/

/-- An entry at an issue point: the late faults of the context, then an event; none where nothing is taken (R153, R214, R218).
`deferred` and `event` say whether those may be taken here. -/
def Device.interrupt (d : Device) (e s rep : Nat) (may : Bool) : Option Device :=
  let x := d.eng e
  let r : Resume := { pc := x.pc, slot1 := false, m0len := 0, rep := rep }
  match x.lateCompletion with
  | some f => some (d.takeLate e f r s)
  | none =>
    if !may then none else
    match x.lateDeferred s with
    | some f => some (d.takeLate e f r (s - 1))
    | none => (d.eventLine e).map (fun line => d.takeEvent e line r (s - 1))

/-- Do an instruction's bytes alone decide a fault (R63)? -/
def Slot.barred (i : Slot) : Bool := match i.got with | .illegal _ => true | .unfetchable => true | _ => false

/-- A formed issue at step s: stalls, then the precise fault of R97, then a deferred fault, then an event, then execution.
`count` is the repeat count left, this iteration included; 0 for no repeat; `before` is the count an entry taken instead of the issue records: 0
where no iteration has issued (R90, R155 to R158). -/
def Device.issueFormed (d : Device) (e s : Nat) (m0 : Slot) (m1 : Option Slot) (isRep : Bool) (count before : Nat) (may : Bool) : Device :=
  let x := d.eng e
  let skip := isRep && decide (count = 0)
  let l0 := if skip then none else x.live 0 m0
  let l1 := m1.bind (x.live 1)
  let ls := l0.toList ++ l1.toList
  let bytes := m0.flaws 0 ++ ((m1.map (fun i => i.flaws 1)).getD [])
  let barred := m0.barred || m1.any Slot.barred
  let stalls := !barred && ls.any (fun l => match l.move.waits with | some w => !d.paced e && x.outstanding w | none => false)
  let full := !barred && ls.any (fun l => match l.move.body.dst with | .trig t => d.mustWait e t | _ => false)
  let d := d.meet e s ((m1.getD m0).addr) (issueLines m0 m1)
  if stalls then (d.interrupt e s before may).getD d
  else if full then d
  else
    let pair := match m0.got, m1.map (·.got) with
      | .move a, some (.move b) => if pairDetail a b = 0 then [] else [{ rank := 6, slot := 1, code := 0x04, detail := pairDetail a b, fa := none : Flaw }]
      | _, _ => []
    let waits := match x.waitFault with | some _ => [{ rank := 9, slot := 0, code := 0x0A, detail := 2, fa := none : Flaw }] | none => []
    let all := bytes ++ pair ++ waits ++ (ls.map (fun l => d.liveFlaws e ls l)).flatten
    let flaw := match firstFlaw all with | some f => some f | none => d.grantFlaw e x.tokens ls
    match flaw with
    | some f =>
      let i := if f.slot = 0 then m0 else m1.getD m0
      let sfa := if f.code = 0x0A ∧ f.detail = 2 then ((x.waitFault.map (·.toNat)).getD i.addr) else f.fa.getD i.addr
      let r : Resume := { pc := word i.addr, slot1 := decide (f.slot = 1), m0len := if f.slot = 1 then m0.len else 0
                          rep := if isRep then count else 0 }
      let d := if f.code = 0x0A then
          d.onEng e (fun x => if f.detail = 2 then x.dropWaitFault
            else { x with recvFaults := x.recvFaults.filter (· ≠ x.ctx), res := putResults x.res [(.chR, 0)] })
        else if f.code = 0x0D then
          match d.codeAddr (e / 16) (word i.addr) with | some pa => d.eccError pa | none => d
        else d
      (d.onEng e (fun x => { x with rep := none })).takeCause e (faultCause f.code f.detail sfa f.fa.isSome) r s
    | none =>
      match d.interrupt e s before may with
      | some d => d
      | none =>
        let d := d.countCorrected e m0
        let d := match m1 with | some m1 => d.countCorrected e m1 | none => d
        let d := d.prefetch e s (issueLines m0 m1)
        d.execute e s m0 m1 ls (count - 1)

/-- Has an engine of e's cluster an lsu operation or a post to target port t outstanding that it issued before one of engine e of this period and
trigger? The traffic of a cluster's engines is that of one master, and one partition's QoS (R386, R391): it is performed in order. -/
def Device.mustFollow (d : Device) (e t since trig : Nat) : Bool :=
  ((List.range 16).map (16 * (e / 16) + ·)).any (fun k =>
    let earlier := fun (period step : Nat) => decide (period < since ∨ (k = e ∧ step < trig))
    (d.eng k).lsu.any (fun l =>
      let ca := d.place k l.addr
      earlier l.posted l.trig && !ownCluster k ca && decide (d.targetFor ca = t)) ||
    (d.eng k).ch.any (fun c =>
      let ca := xramBase (fld c.dst 0 10 / 16)
      !c.recv && c.last && c.landed.isNone && earlier c.start c.trig && !ownCluster k ca && decide (d.targetFor ca = t)))

/-- Does an lsu operation wait for its target's grant, for one before it in the order of R391, or for the zero-fill of its page (R189, R389)? -/
def Device.lsuWaits (d : Device) (e : Nat) (l : LsuRun) : Bool :=
  let ca := d.place e l.addr
  !l.granted || (!ownCluster e ca && d.mustFollow e (d.targetFor ca) l.posted l.trig) || (match regionOf ca with | some (.dram _) => d.unfilled.contains ((ca - 0x1000000000) / 0x1000000) | _ => false)

/-- Has the oldest lsu operation reached the end of its Free range (R56, R177)? One that waits for a grant or a fill has none. -/
def Device.lsuLate (d : Device) (e s : Nat) : Bool :=
  match (d.eng e).lsu with
  | l :: _ => !d.lsuWaits e l && decide (max l.worst ((d.eng e).lsuLast + 1) ≤ s)
  | [] => false

/-- Does the fetch of a line wait for a grant of its target port (R389)? -/
def Device.lineWaits (d : Device) (e line : Nat) : Bool :=
  match d.codeAddr (e / 16) (word line) with
  | some pa => !d.paced e && inFlash (word line) && d.waits (d.targetFor pa) (.fetch e line)
  | none => false

/-- The pace period from which a request's completion is due: its last one in Paced, the one behind it in Free mode (R52). -/
def Device.servedBy (d : Device) (v : Service) : Nat := if d.paced v.req.engine then v.due else v.due + 1

/-- Are results of engine e due by step s, so that their completions come first in this step? In Paced every count is exact;
in Free mode those of the short operations, divisions, long fpu operations and code SRAM lines are, and the others are bounded (R138, R177). -/
def Device.dueBy (d : Device) (e s : Nat) : Bool :=
  let x := d.eng e
  let c := d.cluster (e / 16)
  let served := fun (u : Unit3) => match u.service with | some v => decide (v.req.engine = e ∧ d.servedBy v ≤ d.now) | none => false
  let late := fun (k : CodeLine) => !k.delivered && !d.lineWaits e k.addr && decide (k.req + (if inFlash (word k.addr) then 120 else 3) ≤ s)
  x.lines.any late || x.short.any (fun o => decide (o.due ≤ s)) || x.div.any (fun o => decide (o.due ≤ s)) ||
  x.fpuLong.any (fun o => decide (o.due ≤ s)) || x.tasks.any (fun t => decide (t.lands < d.now)) ||
  served c.kin || served c.ipl || served c.bmv ||
  (if d.paced e then x.lsu.any (fun l => decide (l.due ≤ s)) || x.pt.any (fun p => decide (p.due ≤ s)) || x.ch.any (fun c => decide (c.due ≤ s))
   else d.lsuLate e s || x.pt.any (fun p => decide (p.trig + 1200 ≤ s)))

/-- May engine e take a step now? A Paced step is a pace period (R311); a paused partition stands still (R369). -/
def Device.mayStep (d : Device) (e : Nat) : Bool :=
  let x := d.eng e
  let running := match x.run with | .running => true | _ => false
  let pause := match d.engPart e with | some p => bit (d.reg (.celStat p)) 3 | none => false
  running && !pause && (!d.paced e || decide (x.period < d.now)) && !d.dueBy e (d.nowStep e)

/-- Does the partition of engine e drain for a mode change: its engines step and issue nothing (R29)? -/
def Device.draining (d : Device) (e : Nat) : Bool :=
  match d.engPart e with | some p => d.inChange p | none => false

/-- Begin a step: its number and pace period, and the requests of a transfer that come due (R147). -/
def Device.beginStep (d : Device) (e s : Nat) : Device :=
  let x := d.eng e
  let d := d.setEng e { x with step := s, period := d.now }
  match x.redirect with
  | some (k, t) =>
    if k ≤ s then
      (d.onEng e (fun x => { x with redirect := none })).requestLines e s []
        (if d.paced e then [lineOf t, lineOf t + 32] else [lineOf t])
    else d
  | none => d

/-- A step in which the context stands in a wait (R218, R297, R298): a late fault or an event ends it, with INT in `ev.r`. `rep` is the count
left of a repeated wait, and `may` whether its prefix lets an event in (R155, R156). -/
def Device.waitStep (d : Device) (e s rep : Nat) (may : Bool) (w : Wait) : Device :=
  let d' := match w.kind with
    | .cu => d
    | _ => d.onEng e (fun x => { x with res := putResults x.res [(.evR, evWord 0 false false 0 false true false)] })
  match d'.interrupt e s rep may with
  | some r => r
  | none => d

/-- A completion fault is taken in its step, whatever the engine waits for (R168). -/
def Device.completionFault (d : Device) (e s rep : Nat) : Option Device :=
  match (d.eng e).lateCompletion with
  | some _ => d.interrupt e s rep false
  | none => none

/-- ISSUE_PAIR (R99). -/
def Device.issuePair (d : Device) (e : Nat) : Device :=
  if !d.mayStep e || (d.eng e).rep.isSome then d else
  let s := d.nowStep e
  let d := d.beginStep e s
  if d.draining e then d else
  let x := d.eng e
  match x.wait with
  | some w => if s < x.readyAt then d else d.waitStep e s 0 true w
  | none =>
    match d.completionFault e s x.resumeRep with
    | some r => r
    | none =>
      if s < x.readyAt || x.bar then d
      else if d.paced e && inFlash x.pc then
        d.takeCause e (faultCause 0x09 1 x.pc.toNat false) { pc := x.pc, slot1 := false, m0len := 0, rep := x.resumeRep } s
      else match d.form e x.pc.toNat with
        | .waits a =>
          let need := (List.range (a / 32 + 1 - x.pc.toNat / 32)).map (fun k => lineOf x.pc + 32 * k)
          (d.requestLines e s need need)
        | .go m0 m1 =>
          match m0.got with
          | .move m =>
            match m.pre.rep with
            | some r =>
              let count := if x.resumeRep = 0 then r.count x.rc else x.resumeRep
              let may := match r with | .rep _ => decide (x.resumeRep = 0) | _ => true
              d.issueFormed e s m0 none true count x.resumeRep may
            | none => d.issueFormed e s m0 m1 false 0 0 true
          | _ => d.issueFormed e s m0 m1 false 0 0 true

/-- REPEAT_ITERATION (R155): the next iteration of the repeat in progress. -/
def Device.repeatIteration (d : Device) (e : Nat) : Device :=
  match (d.eng e).rep with
  | none => d
  | some r =>
    if !d.mayStep e then d else
    let s := d.nowStep e
    let d := d.beginStep e s
    let x := d.eng e
    match x.wait with
    | some w => if s < x.readyAt then d else d.waitStep e s r.left r.interruptible w
    | none =>
      match d.completionFault e s r.left with
      | some r => r
      | none =>
        if s < x.readyAt then d
        else d.issueFormed e s { addr := x.pc.toNat, len := r.len, got := .move r.move, bad := false } none true r.left r.left r.interruptible

/-- LINE_DELIVERY (R138, R142): a requested line is available from its third step from code SRAM, from its twenty-fourth at
the least from code flash, once its target port has granted it (R389). -/
def Device.lineDelivery (d : Device) (e line : Nat) : Device :=
  let s := d.nowStep e
  if d.lineWaits e line then d else
  d.onEng e (fun x => { x with lines := x.lines.map (fun k =>
    if k.addr = line ∧ k.req + (if inFlash (word line) then 24 else 3) ≤ s then { k with delivered := true } else k) })

/-- Has the context a long operation that has not retired (R154), or has one that it interrupted (R67)? Shared-unit requests count; a bmv transfer
of an interrupted context is parked, and a handler's barrier does not wait for it (R54, R159). -/
def Device.longPending (d : Device) (e : Nat) : Bool :=
  let x := d.eng e
  let c := d.cluster (e / 16)
  let waited := fun (ctx : Nat) => decide (ctx = x.ctx) || (x.setOf ctx).isSome
  let mine := fun (r : Request) => decide (r.engine = e ∧ r.ctx = x.ctx) && !r.dead
  let busy := fun (u : Unit3) => u.queue.any mine || u.service.any (fun s => mine s.req)
  x.div.any (fun o => waited o.ctx) || x.fpuLong.any (fun o => waited o.ctx) || busy c.kin || busy c.ipl || busy c.bmv ||
  d.heldBehind e c.kin || d.heldBehind e c.ipl || c.parked.any (fun p => mine p.req)

/-- BARRIER_RELEASE (R154): the next instruction issues one step after the barrier or after the latest retirement. -/
def Device.barrierRelease (d : Device) (e : Nat) : Device :=
  let x := d.eng e
  if x.bar && !d.longPending e && !d.dueBy e (d.nowStep e) then
    d.setEng e { x with bar := false, readyAt := max x.readyAt (x.lastRetire + 1) }
  else d

/-- ISSUE_PAIR (R99). -/
def execIssuePair (e : Nat) (s : State) : Host.Outcome State Fault Refusal := .next (s.onDev (fun d => d.issuePair e))
/-- REPEAT_ITERATION (R155). -/
def execRepeatIteration (e : Nat) (s : State) : Host.Outcome State Fault Refusal := .next (s.onDev (fun d => d.repeatIteration e))
/-- LINE_DELIVERY (R138). -/
def execLineDelivery (e line : Nat) (s : State) : Host.Outcome State Fault Refusal := .next (s.onDev (fun d => d.lineDelivery e line))
/-- BARRIER_RELEASE (R154). -/
def execBarrierRelease (e : Nat) (s : State) : Host.Outcome State Fault Refusal := .next (s.onDev (fun d => d.barrierRelease e))

end Sys2Proof.Machine
end

