-- ==== Sys2Proof/Machine/DualPort.lean ====
section
/-! DEFINITION. The two ports of an exchange RAM and of the mailbox RAM: which accesses meet, and what a meeting does (R179 to R182, R256; log entry
88). -/

namespace Sys2Proof.Machine

/-! ### What other accesses are on their way -/

/-- The check words of [a, a + n). -/
def checkWords (a n : Nat) : List Nat := (List.range ((a % 8 + n + 7) / 8)).map (a / 8 + ·)

/-- The cluster whose exchange RAM holds a check word. -/
def wordCluster (word : Nat) : Nat := (8 * word - 0x280000000) / 0x10000

/-- Does an address lie in an exchange RAM? In the mailbox RAM? -/
def inXram (a : Nat) : Bool := match regionOf a with | some (.xram _) => true | _ => false
def inMailbox (a : Nat) : Bool := match regionOf a with | some .mailbox => true | _ => false

/-- Is the cluster of a check word in Paced or Decant, where every access stands at a pace period of the schedule (R182)? -/
def Device.pacedWord (d : Device) (word : Nat) : Bool :=
  match d.clusterOwner (wordCluster word) with | some p => d.pacedPart p | none => false

/-- The pace period in which a last send of engine e posts, in Paced. -/
def Device.postAt (d : Device) (e : Nat) (c : ChRun) : Nat := d.now + c.due - d.nowStep e

/-- The words a post reads and writes: the header, the slot, the count, the vector byte of its sender (R273 to R276, R284); true for those
that it writes. -/
def Device.postWords (d : Device) (sender : Nat) (c : ChRun) : List (Nat × Bool) :=
  let k := fld c.dst 0 10
  let h := chHeader k (fld c.dst 10 3)
  let w0 := d.loadWord h
  let slot := xramBase (k / 16) + 16 * fld w0 0 12 +
    (fld (d.loadWord (h + 8)) 16 8 + d.chCount h) % d.chSlots h * slotBytes (fld w0 24 4)
  (checkWords h 8).map (·, false) ++ (checkWords (h + 8) 8 ++ checkWords slot (4 * (c.words.length + 1)) ++
    checkWords (peerVector k + d.seenEngine sender sender / 8) 1).map (·, true)

/-- The addresses of block k of a transfer, as they are placed (R378). -/
def Device.blockSrc (d : Device) (r : Request) (k : Nat) : Nat := d.place r.engine (r.src + 64 * k)
def Device.blockDst (d : Device) (r : Request) (k : Nat) : Nat := d.place r.engine (r.dst + 64 * k)

/-- The pace period in which k blocks are done: exact in Paced, in Free mode any after the start (R55). -/
def Device.blocksBy (d : Device) (v : Service) (k : Nat) : Nat :=
  if d.paced v.req.engine || v.req.dead then v.start + 8 + v.per * k else v.start + 1

/-- Does a transfer move a block now that takes or fills a check word; a copy's source counts where what it would meet writes? -/
def Device.blockMeets (d : Device) (v : Service) (word : Nat) (writes : Bool) : Bool :=
  !v.req.dead && (List.range v.req.left).any (fun k =>
    (!d.paced v.req.engine || decide (d.blocksBy v (k + 1) = d.now)) &&
    (decide (d.blockDst v.req k / 64 = word / 8) || (writes && decide (v.req.op = .bmv .copy ∧ d.blockSrc v.req k / 64 = word / 8))))

/-- May a lane read or write its rings in the exchange RAM that holds a check word, at any moment (R425)? -/
def Device.ringMeets (d : Device) (word : Nat) (writes : Bool) : Bool :=
  let base := 8 * word / 0x10000 * 0x10000
  let near := fun (b : Word) => decide (3 ≤ fld b 28 4 ∧ fld b 0 28 * 4096 / 0x10000 * 0x10000 = base)
  (List.range d.grade.fieldLanes).any (fun n => near (d.reg (.fldRxb n)) || (writes && near (d.reg (.fldTxb n))))

/-- May an access still to come at the other port meet an access to a check word, one of the two writing (R180)? In Paced and Decant the schedule says
so; in Free mode any that is on its way may. An atomic never does, and a delivery record counts as one (R181, R256). The host may access the mailbox
RAM at any moment. -/
def Device.mayMeet (d : Device) (word : Nat) (portB writes : Bool) : Bool :=
  let c := wordCluster word
  inMailbox (8 * word) ||
  d.engines.any (fun x => decide (decide (x.1 / 16 = c) = portB) && x.2.lsu.any (fun l =>
    decide (l.op.kind = .store ∨ (l.op.kind = .load ∧ writes)) && (!d.paced x.1 || decide (l.due ≤ d.nowStep x.1)) &&
    (checkWords (d.place x.1 l.addr) l.op.size).contains word)) ||
  (!portB && d.engines.any (fun x => x.2.ch.any (fun q =>
    !q.recv && q.last && q.landed.isNone && decide (fld q.dst 0 10 / 16 = c) && (!d.paced x.1 || decide (d.postAt x.1 q ≤ d.now)) &&
    (d.postWords x.1 q).any (fun t => decide (t.1 = word) && (writes || t.2))))) ||
  d.clusters.any (fun k => decide (decide (k.1 = c) = portB) && k.2.bmv.service.any (fun v => d.blockMeets v word writes)) ||
  (!portB && !d.pacedWord word && d.ringMeets word writes)

/-! ### A meeting (R180, R181) -/

/-- The accesses of the other port that an access begun in a period may have met at a check word, one of the two writing. -/
def Device.rivals (d : Device) (since word : Nat) (portB writes : Bool) : List PortAccess :=
  d.accesses.filter (fun a => decide (a.word = word ∧ a.portB ≠ portB) && (a.writes || writes) &&
    (if d.pacedWord word then decide (a.period = d.now) else decide (since ≤ a.period)))

/-- How an access meets the other port at a check word. In Paced and Decant accesses of one pace period meet, with port B the later (R180, R182); in
Free mode the partner of a meeting meets it the other way round, and one still to come is met as `hit` says. The host's access is met as its
command says. -/
def Device.verdict (d : Device) (since word : Nat) (portB writes : Bool) (hit : Collision) : Collision :=
  let rs := d.rivals since word portB writes
  if d.pacedWord word then (if rs.isEmpty && !d.mayMeet word portB writes then .none else if portB then .later else .earlier)
  else if inMailbox (8 * word) && !portB then hit
  else match rs.head? with
    | some a => if a.met = .later then .earlier else .later
    | none => if d.mayMeet word portB writes then hit else .none

/-- Can an access that has been noted meet none that is still on its way? A host access takes less than 256 pace periods (R443, R444). -/
def Device.spent (d : Device) (a : PortAccess) : Bool :=
  if inMailbox (8 * a.word) then decide (a.period + 256 < d.now) else
  decide (a.period ≠ d.now) &&
  !d.engines.any (fun x => x.2.lsu.any (fun l => decide (l.posted ≤ a.period)) || x.2.ch.any (fun c => decide (c.start ≤ a.period))) &&
  !d.clusters.any (fun c => c.2.bmv.service.any (fun v => decide (v.start ≤ a.period)))

/-- An access to a check word is noted where its partner is still to come: in Paced one of this pace period, in Free mode that of a meeting; the
partner that came before it is settled and goes. -/
def Device.noteAccess (d : Device) (since word : Nat) (portB writes : Bool) (hit : Collision) : Device :=
  let mine : PortAccess := { word := word, period := d.now, portB := portB, writes := writes, before := d.bytes (8 * word) 8, met := hit }
  let live := d.accesses.filter (fun a => !d.spent a)
  if d.pacedWord word then
    if d.mayMeet word portB writes then { d with accesses := live ++ [mine] } else d
  else match (d.rivals since word portB writes).head?, hit with
    | _, .none => d
    | some a, _ => { d with accesses := live.erase a }
    | none, _ => { d with accesses := live ++ [mine] }

/-- What a list of meetings amounts to: the busy indication comes where one of them makes the access the later (R181). -/
def meets (hits : List Collision) : Collision :=
  if hits.contains .later then .later else if hits.contains .earlier then .earlier else .none

/-- A read of n bytes through one port of a memory of two, begun in a period: how it meets the other port, and the state after. -/
def Device.portRead (d : Device) (since a n : Nat) (portB : Bool) (hit : Collision) : Collision × Device :=
  if !(inXram a || inMailbox a) then (.none, d) else
  let ws := checkWords a n
  (meets (ws.map (fun w => d.verdict since w portB false hit)),
    foldDev (fun d w => d.noteAccess since w portB false (d.verdict since w portB false hit)) d ws)

/-- The bytes a check word held before the last write of the other port that a write begun in a period may have met. -/
def Device.beforeRival (d : Device) (since word : Nat) (portB : Bool) : Option (List Byte) :=
  (((d.rivals since word portB true).filter (·.writes)).getLast?).map (·.before)

/-- A write of n bytes through one port of a memory of two, begun in a period. Where two writes meet at a check word it ends with the later port's data:
the other's write of that word is gone (R180). -/
def Device.portWrite (d : Device) (since a n : Nat) (portB : Bool) (hit : Collision) (write : Device → Device) : Collision × Device :=
  if !(inXram a || inMailbox a) then (.none, write d) else
  let ws := (checkWords a n).map (fun w => (w, d.verdict since w portB true hit))
  let undone := foldDev (fun d (w : Nat × Collision) =>
    match w.2, d.beforeRival since w.1 portB with
    | .later, some bs => d.writeBytes (8 * w.1) bs
    | _, _ => d) d ws
  let lost := ws.filter (fun w => decide (w.2 = .earlier) && (d.beforeRival since w.1 portB).isSome)
  let noted := foldDev (fun d (w : Nat × Collision) => d.noteAccess since w.1 portB true w.2) undone ws
  (meets (ws.map (·.2)), foldDev (fun d' (w : Nat × Collision) => d'.writeBytes (8 * w.1) (d.bytes (8 * w.1) 8)) (write noted) lost)

/-- How an access through port B whose command does not say so meets the other port: a free choice in Free mode, where something still to come may
meet it. -/
def Device.portChoice (d : Device) (a n : Nat) (writes : Bool) : Collision × Device :=
  if inXram a && (checkWords a n).any (fun w => !d.pacedWord w && d.mayMeet w true writes) then
    let (w, d) := d.freeWord
    (if bit w 0 then .none else if bit w 1 then .later else .earlier, d)
  else (.none, d)

/-- n free values. -/
def Device.freeWords (d : Device) : Nat → List Word × Device
  | 0 => ([], d)
  | n + 1 =>
    let (w, d) := d.freeWord
    let x := d.freeWords n
    (w :: x.1, x.2)

/-- A write of a master through port B of an exchange RAM, begun in a period (R179). -/
def Device.masterWrite (d : Device) (since a n : Nat) (write : Device → Device) : Device :=
  let (hit, d) := d.portChoice a n true
  (d.portWrite since a n true hit write).2

/-- A read of a master through port B of an exchange RAM: its bytes, which are free where it meets a write (R180). -/
def Device.masterRead (d : Device) (a n : Nat) : List Byte × Device :=
  if !inXram a then (d.bytes a n, d) else
  let (hit, d) := d.portChoice a n false
  let (met, d) := d.portRead d.now a n true hit
  if met = .none then (d.bytes a n, d)
  else
    let (ws, d) := d.freeWords ((n + 3) / 4)
    ((wordsBytes ws).take n, d)

end Sys2Proof.Machine
end

