-- ==== Sys2Proof/Machine/Shared.lean ====
section
/-! DEFINITION. The retirement of short and long operations and the shared units kin, ipl and bmv (R50 to R55, R109, R128 to
R134, R151, R152, R159). -/

namespace Sys2Proof.Machine

/-- Deferred faults stand in order of retirement, those of one step in trigger order, M0 before M1 (R153). -/
def insertFault (f : LateFault) : List LateFault → List LateFault
  | [] => [f]
  | g :: gs =>
    if !g.completion && decide (g.at_ = f.at_ ∧ (f.trig < g.trig ∨ f.trig = g.trig ∧ f.sfa.toNat < g.sfa.toNat)) then f :: g :: gs
    else g :: insertFault f gs

/-- A fault of a long operation after its trigger, reported at its retirement (R152): steps of retirement and trigger. -/
def Engine.deferFault (x : Engine) (at_ trig code : Nat) (issue : Word) (ctx : Nat) : Engine :=
  if ctx = x.ctx ∨ (x.setOf ctx).isSome then
    { x with pendingFaults := insertFault { at_ := at_, trig := trig, code := code, detail := 0, sfa := issue, ctx := ctx, completion := false } x.pendingFaults }
  else x

/-- SHORT_OP_COMPLETE (R55, R105): the short operations due by the step that begins write their ports and flags. -/
def Device.shortOpComplete (d : Device) (e : Nat) : Device :=
  let s := d.nowStep e
  d.onEng e (fun x =>
    { (x.finishShort (x.short.filter (fun o => decide (o.due ≤ s)))) with short := x.short.filter (fun o => !decide (o.due ≤ s)) })

/-- A long operation of div or fpu retires: its ports, its flags, its fault (R109, R122, R151). -/
def Engine.retireLong (x : Engine) (o : LongOp) : Engine :=
  let x := { ((x.commit o.ctx o.writes).setFlags o.due o.flags) with lastRetire := max x.lastRetire o.due }
  if o.dzFault then x.deferFault o.due o.trig 0x0C o.issue o.ctx else x

/-- DIV_RETIRE (R151). -/
def Device.divRetire (d : Device) (e : Nat) : Device :=
  d.onEng e (fun x => match x.div with
    | some o => if o.due ≤ d.nowStep e then { (x.retireLong o) with div := none } else x
    | none => x)

/-- FPU_LONG_RETIRE (R151). -/
def Device.fpuLongRetire (d : Device) (e : Nat) : Device :=
  d.onEng e (fun x => match x.fpuLong with
    | some o => if o.due ≤ d.nowStep e then { (x.retireLong o) with fpuLong := none } else x
    | none => x)

/-! ### Shared units -/

/-- A shared unit of cluster c. -/
def Device.unit3 (d : Device) (c : Nat) : SharedUnit → Unit3
  | .kin => (d.cluster c).kin | .ipl => (d.cluster c).ipl | .bmv => (d.cluster c).bmv
def Device.setUnit3 (d : Device) (c : Nat) (u : SharedUnit) (x : Unit3) : Device :=
  d.onCluster c (fun k => match u with | .kin => { k with kin := x } | .ipl => { k with ipl := x } | .bmv => { k with bmv := x })

/-- May bmv serve a request: not one that the interrupted context left queued while its engine runs a handler (R159)? -/
def Device.servable (d : Device) (u : SharedUnit) (r : Request) : Bool :=
  decide (u ≠ .bmv) || r.dead || ((d.eng r.engine).setOf r.ctx).isNone

/-- Words of the cluster SRAM from a block offset. -/
def Device.blockWords (d : Device) (e : Nat) (w : Word) : Nat → Nat → List Word
  | 0, _ => []
  | n + 1, k => d.loadWord (blockAddr e w k) :: d.blockWords e w n (k + 4)

/-- The blocks that a request reads, with their numbers of words (R127, R131). -/
def inputBlocks (r : Request) : List (Word × Nat) :=
  match r.op with
  | .kin .mv4 => [(r.a, 16), (r.b, 4)]
  | .kin .norm3 => [(r.t, 3)]
  | .ipl _ => [(r.a, 44)]
  | _ => []

/-- The addresses of the words that a request reads. -/
def inputAddrs (r : Request) : List Nat :=
  ((inputBlocks r).map (fun b => (List.range b.2).map (fun k => blockAddr r.engine b.1 (4 * k)))).flatten

/-- A request reads its input words: single errors are corrected and counted (R184), one that cannot be corrected is counted (R128, R131,
R152, R185). -/
def Device.sharedInputs (d : Device) (r : Request) : (List Word × Bool) × Device :=
  let words := ((inputBlocks r).map (fun b => d.blockWords r.engine b.1 b.2 0)).flatten
  let d := foldDev (fun d a => d.readOver a 4) d (inputAddrs r)
  match (inputAddrs r).find? (fun a => d.uncorrectable a 4) with
  | some a => ((words, true), d.eccError a)
  | none => ((words, false), d)

/-- Is either end of a bmv transfer module DRAM (R55)? -/
def Device.bmvDram (d : Device) (r : Request) : Bool :=
  let dram := fun a => match regionOf (d.place r.engine a) with | some (.dram _) => true | _ => false
  dram r.dst || (decide (r.op = .bmv .copy) && dram r.src)

/-- Periods per 64-byte block and the service count of a request (R55). -/
def Device.serviceOf (d : Device) (r : Request) : Nat × Nat :=
  match r.op with
  | .kin op => (0, op.service)
  | .ipl op => (0, op.service)
  | .bmv _ => let per := if d.bmvDram r then 72 else 4; (per, 8 + per * r.left)

/-- The ends of a bmv transfer beyond the cluster ask their target ports (R386). -/
def Device.askBlocks (d : Device) (r : Request) : Device :=
  match r.op with
  | .bmv op =>
    let d := if op = .copy then d.askTarget r.engine (d.place r.engine r.src) (.bmv r.engine) else d
    d.askTarget r.engine (d.place r.engine r.dst) (.bmv r.engine)
  | _ => d

/-- SHARED_REQUEST_START (R52): the next request starts at the later of its trigger period, the period from which it is served (R159) and the
completion of the one before; that period has ended, so every request that entered in it stands in the queue. Its inputs are read (R128). -/
def Device.sharedStart (d : Device) (c : Nat) (u : SharedUnit) : Device :=
  if d.pausedCluster c then d else
  let x := d.unit3 c u
  match x.service, x.queue.find? (d.servable u) with
  | none, some r =>
    let start := max (max r.trig r.earliest) x.lastDone
    if start < d.now then
      let (per, count) := d.serviceOf r
      let ((ins, bad), d) := if r.dead then (([], false), d) else d.sharedInputs r
      (if r.dead then d else d.askBlocks r).setUnit3 c u { x with queue := x.queue.erase r, service := some {
        req := r, start := start, due := start + count, per := per, inputs := ins, bad := bad, suspendAt := none, stopAt := 0 } }
    else d
  | _, _ => d

/-- Write the output words of a request; one that was stored to meanwhile holds either value, as a free choice (R128). -/
def Device.writeOut (d : Device) (r : Request) (block : Word) : List (Nat × Word) → Device
  | [] => d
  | (k, v) :: ws =>
    let a := blockAddr r.engine block k
    (if a ∈ r.stored then
      let (w, d) := d.freeWord
      if bit w 0 then d else d.storeWord a v
    else d.storeWord a v).writeOut r block ws

/-- The result ports of kin or ipl (R50, R129, R133). -/
def sharedWrites (op : SharedOp) (r : SharedResult) : List (ResPort × Word) :=
  match op with
  | .kin _ => (.kinR, r.r) :: (match r.r2 with | some v => [(.kinR2, v)] | none => [])
  | .ipl _ => [(.iplR, r.r), (.iplSt, r.r2.getD 0)]
  | .bmv _ => []

/-- The ports of a unit that a completion leaves without a result: `kin.r2`, which shares the window of `kin.r` (R129). -/
def unwritten (op : SharedOp) (ws : List (ResPort × Word)) : List ResPort :=
  match op with
  | .kin _ => if ws.any (fun w => decide (w.1 = .kinR2)) then [] else [.kinR2]
  | _ => []

/-- A kin or ipl request completes (R52, R58, R128, R151, R152): in Free mode after the pace period in which its service ends. -/
def Device.sharedComplete (d : Device) (c : Nat) (u : SharedUnit) : Device :=
  if d.pausedCluster c then d else
  let x := d.unit3 c u
  match x.service with
  | none => d
  | some v =>
    if d.now < d.servedBy v then d else
    let r := v.req
    let d := d.setUnit3 c u { x with service := none, lastDone := v.due }
    if r.dead then d
    else if v.bad then
      let zero : List (ResPort × Word) := match r.op with | .kin _ => [(.kinR, 0), (.kinR2, 0)] | _ => [(.iplR, 0), (.iplSt, 0)]
      let retire := d.nowStep r.engine
      d.onEng r.engine (fun x => { ((x.commit r.ctx zero).deferFault retire r.step 0x0D r.issue r.ctx) with lastRetire := max x.lastRetire retire })
    else
      let retire := d.nowStep r.engine
      let res := match r.op with
        | .kin op => kinExec op r.a r.t v.inputs
        | .ipl op => iplExec op r.t v.inputs
        | .bmv _ => { writes := [], r := 0, r2 := none, flags := 0 }
      let block := match r.op with | .kin _ => r.t | _ => r.a
      let ws := sharedWrites r.op res
      (d.writeOut r block res.writes).onEng r.engine (fun x =>
        let y := (unwritten r.op ws).foldl (fun y p => y.closeIn r.ctx p) (x.commit r.ctx ws)
        { (y.setFlags retire res.flags) with lastRetire := max x.lastRetire retire })

/-- Does a transfer take bytes of a word, or put them there? -/
def Device.takesWord (d : Device) (r : Request) (a : Nat) : Bool :=
  decide (r.op = .bmv .copy) && (List.range r.left).any (fun k => decide (d.blockSrc r k / 64 = a / 64))
def Device.putsWord (d : Device) (r : Request) (a : Nat) : Bool := (List.range r.left).any (fun k => decide (d.blockDst r k / 64 = a / 64))

/-- A store is about to reach words: the requests on the way whose words they are note it, a transfer in service with what its source held (R128; log
entry 90). `own` is the cluster whose transfer stores, if one does. -/
def Device.noteStore (d : Device) (own : Option Nat) (a size : Nat) : Device :=
  let ws := (List.range ((a % 4 + size + 3) / 4)).map (fun k => a / 4 * 4 + 4 * k)
  let mark := fun (r : Request) => { r with stored := r.stored ++ ws }
  let puts := fun (r : Request) => { r with stored := r.stored ++ ws.filter (d.putsWord r) }
  let olds := fun (r : Request) => (ws.filter (fun w => d.takesWord r w && !r.old.has w)).map (fun w => (w, d.loadWord w))
  let shared := fun (x : Unit3) => { x with queue := x.queue.map mark, service := x.service.map (fun s => { s with req := mark s.req }) }
  let mover := fun (x : Unit3) => { x with
    queue := x.queue.map puts
    service := x.service.map (fun s => let r := puts s.req; { s with req := { r with old := r.old ++ olds r } }) }
  let touched := fun (u : Unit3) => (u.queue ++ (u.service.map (·.req)).toList).any (fun r => ws.any (fun w => d.putsWord r w || d.takesWord r w))
  let d := match regionOf a with
    | some (.csram c) => d.onCluster c (fun k => { k with kin := shared k.kin, ipl := shared k.ipl })
    | _ => d
  if d.clusters.any (fun k => decide (some k.1 ≠ own) && touched k.2.bmv) then
    { d with clusters := d.clusters.map (fun k => if some k.1 = own then k else (k.1, { k.2 with bmv := mover k.2.bmv })) }
  else d

/-- Read n check words for a transfer begun in a period (R180, R184, R185): their bytes, whether one cannot be corrected, and the state after. One that
meets a write of the other port of its memory, in Free mode as a free choice where the command says that some did, promises nothing of its bytes
and raises no error. -/
def Device.readWords (d : Device) (since : Nat) (portB : Bool) (hit : Collision) : Nat → Nat → (List Byte × Bool) × Device
  | 0, _ => (([], false), d)
  | n + 1, a =>
    let ask := decide (hit ≠ .none) && (inMailbox a || inXram a)
    let (w, d') := d.freeWord
    let d := if ask then d' else d
    let hit' := if ask && bit w 0 then hit else .none
    let (met, d) := d.portRead since a 8 portB hit'
    let (bs, bad, d) :=
      if met ≠ .none then let (ws, d) := d.freeWords 2; (wordsBytes ws, false, d)
      else (d.windowBytes a 8, d.uncorrectable a 8, d.readOver a 8)
    let x := d.readWords since portB hit n (a + 8)
    ((bs ++ x.1.1, bad || x.1.2), x.2)

/-- The bytes of a block as a transfer takes them: of a word stored to since it began, either value, as a free choice (R128). -/
def Device.mixStored (d : Device) (r : Request) (src : Nat) (bs : List Byte) : List Byte × Device :=
  (List.range 16).foldl (fun (x : List Byte × Device) i =>
    match r.old.find? (fun o => decide (o.1 = src + 4 * i)) with
    | none => x
    | some o =>
      let (w, d) := x.2.freeWord
      (if bit w 0 then x.1.take (4 * i) ++ toBytes 4 o.2.toNat ++ x.1.drop (4 * i + 4) else x.1, d)) (bs, d)

/-- The block is stored; a word of it that something else has stored to meanwhile holds either value, as a free choice (R128). -/
def Device.putBlock (d : Device) (r : Request) (dst : Nat) (bs : List Byte) : Device :=
  if (List.range 16).any (fun i => decide (dst + 4 * i ∈ r.stored)) then
    foldDev (fun d i =>
      let part := (bs.drop (4 * i)).take 4
      if dst + 4 * i ∈ r.stored then
        let (w, d) := d.freeWord
        if bit w 0 then d else d.storeBytes (dst + 4 * i) part
      else d.storeBytes (dst + 4 * i) part) d (List.range 16)
  else d.storeBytes dst bs

/-- Move block k of a transfer begun in a period: the state after, and 0, or why it fails: BUS_ERROR where an end is out of service,
ECC_UNCORRECTABLE of the source or of a word of the destination, which stays unchanged (R152, R178, R180, R185). -/
def Device.moveBlock (d : Device) (r : Request) (since : Nat) (hit : Collision) (k : Nat) : Nat × Device :=
  let copy := decide (r.op = .bmv .copy)
  let src := d.blockSrc r k
  let dst := d.blockDst r k
  let part := d.engPart r.engine
  if (copy && d.offline src) || d.offline dst then (0x03, d) else
  let d := if copy then d.throughCache part src false else d
  let ((bs, bad), d) := if copy then d.readWords since (!ownCluster r.engine src) hit 8 src
    else (((List.replicate 16 (toBytes 4 r.a.toNat)).flatten, false), d)
  if bad then (0x0D, d.eccError src) else
  let (bs, d) := d.mixStored r src bs
  let d := (d.throughCache part dst true).noteStore (some (r.engine / 16)) dst 64
  let broken := d.uncorrectable dst 64
  (if broken then 0x0D else 0, (d.portWrite since dst 64 (!ownCluster r.engine dst) hit (fun d => d.putBlock r dst bs)).2)

/-- After a block that failed, some of the later ones had been issued and are written too, as a free choice (R392). -/
def Device.moveLater (d : Device) (r : Request) (since : Nat) (hit : Collision) (n k : Nat) : Device :=
  let (w, d) := d.freeWord
  foldDev (fun d i => (d.moveBlock r since hit (k + i)).2) d (List.range (w.toNat % (n + 1)))

/-- Move n blocks from block k on, up to the first that fails: the state, the blocks done and the fault code or 0. -/
def Device.moveBlocks (d : Device) (r : Request) (since : Nat) (hit : Collision) : Nat → Nat → Device × Nat × Nat
  | 0, k => (d, k, 0)
  | n + 1, k =>
    let x := d.moveBlock r since hit k
    if x.1 = 0 then x.2.moveBlocks r since hit n (k + 1) else (x.2.moveLater r since hit n (k + 1), k, x.1)

/-- The pace period from which that is known: the period itself in Paced, the one behind it in Free mode, once the ends beyond the cluster are
granted, and behind what the cluster issued there before the transfer (R52, R389, R391; log entry 44). -/
def Device.blocksDone (d : Device) (v : Service) (k : Nat) : Bool :=
  let r := v.req
  let waits := fun (a : Nat) =>
    d.waits (d.targetFor a) (.bmv r.engine) || (!ownCluster r.engine a && d.mustFollow r.engine (d.targetFor a) v.start r.step)
  if d.paced r.engine then decide (d.blocksBy v k ≤ d.now)
  else decide (d.blocksBy v k < d.now) && !(decide (r.op = .bmv .copy) && waits (d.place r.engine r.src)) && !waits (d.place r.engine r.dst)

/-- A transfer in reserved slots that is done, or parked, leaves its target ports (R318). -/
def Device.leaveBlocks (d : Device) (r : Request) : Device :=
  if d.paced r.engine then
    (d.dropRequest (d.targetFor (d.place r.engine r.src)) (.bmv r.engine)).dropRequest (d.targetFor (d.place r.engine r.dst)) (.bmv r.engine)
  else d

/-- The period in which a transfer whose blocks are done leaves the unit. -/
def Device.unitFree (d : Device) (v : Service) (k : Nat) : Nat := if d.paced v.req.engine then d.blocksBy v k else d.now - 1

/-- The blocks of a transfer that are done and have not been charged yet charge the cluster's reserve, in this window (R339). -/
def Device.chargeBlocks (d : Device) (c : Nat) (v : Service) (done : Nat) : Device :=
  d.onCluster c (fun k => { k with bmvTokens := k.bmvTokens + (done - v.charged) })

/-- At the end of a pace period each transfer in service charges the blocks that its Paced count has done by then (R55, R339; in Free mode log
entry 91). -/
def Device.chargeMoved (d : Device) : Device :=
  { d with clusters := d.clusters.map (fun (x : Nat × Cluster) =>
      match x.2.bmv.service with
      | some v =>
        let done := min (if v.suspendAt.isSome then v.stopAt else v.req.left) ((d.now - (v.start + 8)) / max 1 v.per)
        if v.req.dead || d.pausedCluster x.1 || decide (done ≤ v.charged) then x
        else (x.1, { x.2 with bmvTokens := x.2.bmvTokens + (done - v.charged), bmv := { x.2.bmv with service := some { v with charged := done } } })
      | none => x) }

/-- BMV_COMPLETE (R55, R151, R152): the transfer ends, or stops at the block that fails. -/
def Device.bmvComplete (d : Device) (c : Nat) (hit : Collision) : Device :=
  if d.pausedCluster c then d else
  let x := d.unit3 c .bmv
  match x.service with
  | none => d
  | some v =>
    let r := v.req
    if r.dead then
      if v.due ≤ d.now then d.setUnit3 c .bmv { x with service := none, lastDone := v.due } else d
    else
      let goal := if v.suspendAt.isSome then v.stopAt else r.left
      let (moved, done, f) := d.moveBlocks r v.start hit goal 0
      if v.suspendAt.isSome && decide (f = 0) then d else
      let count := if f = 0 then done else done + 1
      if !d.blocksDone v count then d else
      let retire := d.nowStep r.engine
      (((moved.leaveBlocks r).setUnit3 c .bmv { x with service := none, lastDone := d.unitFree v count }).chargeBlocks c v done).onEng r.engine (fun y =>
        let y := { (y.commit r.ctx [(.bmvSt, word (64 * (r.left - done)))]) with lastRetire := max y.lastRetire retire }
        if f = 0 then y else y.deferFault retire r.step f r.issue r.ctx)

/-- BMV_SUSPEND (R54): the transfer stops at its boundary, its remainder is parked and recorded in SYS.SRCn.BMV of the level
entered; after a return that came first it re-enters the queue at once. -/
def Device.bmvSuspend (d : Device) (c : Nat) (hit : Collision) : Device :=
  if d.pausedCluster c then d else
  let x := d.unit3 c .bmv
  match x.service with
  | none => d
  | some v =>
    match v.suspendAt with
    | none => d
    | some level =>
      let r := v.req
      let (moved, done, f) := d.moveBlocks r v.start hit v.stopAt 0
      if f ≠ 0 ∨ r.dead ∨ !d.blocksDone v v.stopAt then d else
      let rest := { r with src := r.src + 64 * done, dst := r.dst + 64 * done, left := r.left - done, old := [] }
      let this := fun (p : Parked) => p.returned && decide (p.req.engine = r.engine ∧ p.req.ctx = r.ctx ∧ p.req.issue = r.issue ∧ p.req.step = r.step)
      let back := (d.cluster c).parked.any this
      let free := d.unitFree v v.stopAt
      let now := d.now
      let d := (moved.leaveBlocks r).onEng r.engine (fun y =>
        let set := y.saveSet level
        y.setSave level { set with src := setFld set.src 16 15 rest.left })
      (d.onCluster c (fun k => { k with
        parked := (k.parked.filter (fun p => !this p)) ++
          (if back then [] else [{ req := rest, level := BitVec.ofNat 2 level, returned := false }])
        bmv := let u := { k.bmv with service := none, lastDone := free }
               if back then u.reenter rest now else u })).chargeBlocks c v done

/-- SHORT_OP_COMPLETE (R55). -/
def execShortOpComplete (e : Nat) (s : State) : Host.Outcome State Fault Refusal := .next (s.onDev (fun d => d.shortOpComplete e))
/-- DIV_RETIRE (R151). -/
def execDivRetire (e : Nat) (s : State) : Host.Outcome State Fault Refusal := .next (s.onDev (fun d => d.divRetire e))
/-- FPU_LONG_RETIRE (R151). -/
def execFpuLongRetire (e : Nat) (s : State) : Host.Outcome State Fault Refusal := .next (s.onDev (fun d => d.fpuLongRetire e))
/-- SHARED_REQUEST_START (R52). -/
def execSharedRequestStart (c : Nat) (u : SharedUnit) (s : State) : Host.Outcome State Fault Refusal :=
  .next (s.onDev (fun d => d.sharedStart c u))
/-- KIN_COMPLETE (R129). -/
def execKinComplete (c : Nat) (s : State) : Host.Outcome State Fault Refusal := .next (s.onDev (fun d => d.sharedComplete c .kin))
/-- IPL_COMPLETE (R133). -/
def execIplComplete (c : Nat) (s : State) : Host.Outcome State Fault Refusal := .next (s.onDev (fun d => d.sharedComplete c .ipl))
/-- BMV_COMPLETE (R55). -/
def execBmvComplete (c : TransferEnd) (s : State) : Host.Outcome State Fault Refusal :=
  .next (s.onDev (fun d => d.bmvComplete c.cluster c.hit))
/-- BMV_SUSPEND (R54). -/
def execBmvSuspend (c : TransferEnd) (s : State) : Host.Outcome State Fault Refusal :=
  .next (s.onDev (fun d => d.bmvSuspend c.cluster c.hit))

end Sys2Proof.Machine
end

