-- ==== Sys2Proof/Machine/Channels.lean ====
section
/-! DEFINITION. Channel posts, sends and receives, the waits on event lines and task slots, and wait limits
(R270 to R289, R294 to R298, R304 to R306, R521). -/

namespace Sys2Proof.Machine

/-- Change the ch operations of an engine at one position. -/
def setAt {α : Type} : List α → Nat → α → List α
  | [], _, _ => []
  | _ :: xs, 0, y => y :: xs
  | x :: xs, n + 1, y => x :: setAt xs n y

/-- The two words of a queue header that firmware writes, as a post begun in a period reads them: free values where it meets such a write (R180,
R274). -/
def Device.headerRead (d : Device) (since h : Nat) : (Word × Word) × Device :=
  let (hit, d) := d.portChoice h 8 false
  let (met, d) := d.portRead since h 8 true hit
  if met = .none then ((d.loadWord h, d.loadWord (h + 4)), d)
  else
    let (w0, d) := d.freeWord
    let (w1, d) := d.freeWord
    ((w0, w1), d)

/-- Post a message begun in a period into a channel's ring (R276, R284): the status, and the state after. The slot and the peer-reset vector name the
sender by the number it sees (R378). -/
def Device.post (d : Device) (sender since : Nat) (dst : Word) (words : List Word) : Nat × Device :=
  let k := fld dst 0 10
  let h := chHeader k (fld dst 10 3)
  let ((w0, w1), d) := (d.readOver h 16).headerRead since h
  let slots := if fld w1 24 8 = 0 then 256 else fld w1 24 8
  let count := d.chCount h
  let me := d.seenEngine sender sender
  let store := fun (d : Device) (a : Nat) (bs : List Byte) =>
    d.masterWrite since a bs.length (fun d => d.storeFor (d.engPart sender) (sender / 16) a bs)
  let len := words.length - 1
  let size := slotBytes (fld w0 24 4)
  let off := 16 * fld w0 0 12 + (fld (d.loadWord (h + 8)) 16 8 + count) % slots * size
  if !bit w0 31 then (4, d)
  else if fld w0 24 4 < len then (5, d)
  else if count = slots then (3, d)
  else if off < 0x1000 ∨ 0x10000 < off + size then (9, d)
  else
    let d := store d (xramBase (k / 16) + off) (wordsBytes (word (me + 1024 * len) :: words))
    let d := store d (h + 12) (toBytes 4 (count + 1))
    let d := if fld w0 16 8 < 192 then { d with lineDue := d.lineDue ++ [(d.now + 1, k, fld w0 16 8)] } else d
    let v := peerVector k + me / 8
    let d := d.readOver v 1
    if (d.byte v).getLsbD (me % 8) then (2, store d v [d.byte v &&& ~~~ (1#8 <<< (me % 8))])
    else (1, d)

/-- Is it a post's turn: Paced posts to one channel enter in the order of their periods, and in one period in ascending sender number
(R277)? -/
def Device.postInTurn (d : Device) (e : Nat) (c : ChRun) : Bool :=
  !d.paced e || d.engines.all (fun x =>
    !d.paced x.1 || decide (x.1 = e) || (d.eng x.1).ch.all (fun q => q.recv || !q.last || q.landed.isSome ||
      decide (fld q.dst 0 13 ≠ fld c.dst 0 13) ||
      decide (d.postAt e c < d.postAt x.1 q ∨ (d.postAt e c = d.postAt x.1 q ∧ e < x.1))))

/-- Does the oldest post of engine e, to engine k, wait for a grant: more of its requests to that cluster's port wait than posts it has behind this one
(R386, R389)? Or for what its cluster issued there before it (R391)? A Paced post has its slots (R317). -/
def Device.postWaits (d : Device) (e k : Nat) : Bool :=
  let t := d.targetFor (xramBase (k / 16))
  let own := (d.eng e).ch.find? (fun c => !c.recv && c.last && c.landed.isNone)
  let behind := !ownCluster e (xramBase (k / 16)) && (match own with | some c => d.mustFollow e t c.start c.trig | none => false)
  let posts := (d.eng e).ch.filter (fun c => !c.recv && c.last && c.landed.isNone && decide (d.targetFor (xramBase (fld c.dst 0 10 / 16)) = t))
  !d.paced e && (behind || decide (posts.length ≤ ((d.target t).waiting.filter (fun r => decide (r.owner = .post e))).length))

/-- CH_POST (R276, R277, R283, R521): the oldest last send of engine e lands, in Paced at its completion step. -/
def Device.chPost (d : Device) (e : Nat) : Device :=
  let x := d.eng e
  match x.ch.findIdx? (fun c => !c.recv && c.last && c.landed.isNone) with
  | none => d
  | some i =>
    match x.ch[i]? with
    | none => d
    | some c =>
      if (if d.paced e then decide (d.nowStep e < c.due) else decide (d.nowStep e ≤ c.trig)) || !d.postInTurn e c || d.postWaits e (fld c.dst 0 10) then d else
      let (st, d) := d.post e c.start c.dst c.words
      let d := d.onEng e (fun x => { x with ch := setAt x.ch i { c with landed := some (BitVec.ofNat 4 st) } })
      if d.paced e then d.dropRequest (d.targetFor (xramBase (fld c.dst 0 10 / 16))) (.post e) else d

/-- The oldest ch operation of an engine, where it can complete by the step that begins (R282). -/
def Device.chHead (d : Device) (e : Nat) : Option ChRun :=
  match (d.eng e).ch.head? with
  | some c => if c.due ≤ d.nowStep e ∧ ((d.eng e).chLast < d.nowStep e ∨ (d.eng e).chLast = 0) then some c else none
  | none => none

/-- The oldest ch operation completes with its results (R280, R282). -/
def Device.chDone (d : Device) (e : Nat) (c : ChRun) (ws : List (ResPort × Word)) : Device :=
  let s := if d.paced e then c.due else d.nowStep e
  d.onEng e (fun x => { (x.commit c.ctx ws) with ch := x.ch.drop 1, chLast := s })

/-- CH_SEND_COMPLETE (R282): a send writes `ch.st`; the last of a message completes once its post has landed. -/
def Device.chSendComplete (d : Device) (e : Nat) : Device :=
  match d.chHead e with
  | some c =>
    if c.recv then d
    else if c.last then
      match c.landed with
      | some st => d.chDone e c [(.chSt, chStWord st.toNat c.abn 0 0 0)]
      | none => d
    else d.chDone e c [(.chSt, chStWord 0 c.abn 0 0 0)]
  | none => d

/-- A receive completes: a fault that an earlier one of its context left ends with it (R288), unless it expires with WLF itself. -/
def Device.recvDone (d : Device) (e : Nat) (c : ChRun) (o : Word × Word) (fault : Bool) : Device :=
  (d.chDone e c [(.chR, o.1), (.chSt, o.2)]).onEng e (fun x =>
    { x with recvFaults := x.recvFaults.filter (· ≠ c.ctx) ++ (if fault then [c.ctx] else []) })

/-- CH_RECV_COMPLETE (R279): a receive writes its ports; a blocking one acts on the queue as it stands once a message landed. -/
def Device.chRecvComplete (d : Device) (e : Nat) : Device :=
  match d.chHead e with
  | some c =>
    if !c.recv then d
    else match c.out with
      | some o => d.recvDone e c o false
      | none =>
        if !c.blocking ∨ d.chCount (chHeader e (fld c.datum 0 3)) = 0 then d
        else let x := d.takeMessage e c.datum; x.2.recvDone e c x.1 false
  | none => d

/-- The Paced receives triggered in the pace period that ends act on their queues (R279). -/
def Device.takeReceives (d : Device) (e : Nat) : Device :=
  match (d.eng e).ch.findIdx? (fun c => c.recv && !c.blocking && c.out.isNone) with
  | none => d
  | some i =>
    match (d.eng e).ch[i]? with
    | none => d
    | some c =>
      match d.receive e c.datum false with
      | some (o, d) => d.onEng e (fun x => { x with ch := setAt x.ch i { c with out := some o } })
      | none => d

/-! ### Event waits (R292, R294, R521) -/

/-- The line a wait completes on: raised at the start of the pace period, or in Paced by a raise of this period, and not
enabled for entry; the lowest. -/
def Device.waitLine (d : Device) (e lo hi : Nat) : Option Nat :=
  (List.range 192).find? (fun n =>
    let l := (Assoc.get {} (d.eng e).events n).at d.now
    decide (lo ≤ n ∧ n ≤ hi) && !d.lineEnabled e n && (d.lineLatched e n || (d.paced e && decide (0 < l.count))))

/-- A wait of engine e ends at the step that begins, with its result. -/
def Device.endWait (d : Device) (e ctx : Nat) (v : Word) : Device :=
  let s := d.nowStep e
  d.onEng e (fun x => { (x.commit ctx [(.evR, v)]) with wait := none, readyAt := s })

/-- EV_WAIT_COMPLETE (R294). -/
def Device.evWaitComplete (d : Device) (e : Nat) : Device :=
  match (d.eng e).wait with
  | none => d
  | some w =>
    if d.nowStep e ≤ w.trig then d else
    match w.kind with
    | .bad => d.endWait e w.ctx (evWord 0 false false 0 true false false)
    | .lines lo hi =>
      match d.waitLine e lo hi with
      | some n =>
        let l := (Assoc.get {} (d.eng e).events n).at d.now
        (d.clearLine e n (if l.raised then .ack else .consume)).endWait e w.ctx (evWord n l.ovr false 0 false false false)
      | none => d
    | _ => d

/-! ### Task slots (R304 to R306, R521) -/

/-- The count of a task slot of cluster c. -/
def Device.slot (d : Device) (c k : Nat) : Nat := (Assoc.get 0 (d.cluster c).task k).toNat
def Device.setSlot (d : Device) (c k n : Nat) : Device :=
  d.onCluster c (fun x => { x with task := Assoc.put x.task k (BitVec.ofNat 8 n) })

/-- The readies that land, each of which counts unless its slot stands at 255; the answer lists those that do not (R304). -/
def Device.landReadies (d : Device) (c : Nat) : List (Nat × TaskRun) → List (Nat × TaskRun) × Device
  | [] => ([], d)
  | t :: ts =>
    if !t.2.ready then d.landReadies c ts
    else if d.slot c t.2.slot = 255 then let r := d.landReadies c ts; (t :: r.1, r.2)
    else (d.setSlot c t.2.slot (d.slot c t.2.slot + 1)).landReadies c ts

/-- Insert a number into a rising list, once. -/
def insertNat (n : Nat) : List Nat → List Nat
  | [] => [n]
  | m :: ms => if n < m then n :: m :: ms else if n = m then m :: ms else m :: insertNat n ms

/-- The takes of the waiting engines of a cluster at landing period j, in ascending engine number (R305, R306). -/
def Device.takes (d : Device) (c j : Nat) : Device :=
  foldDev (fun d i =>
    let e := 16 * c + i
    match (d.eng e).wait with
    | some w =>
      match w.kind with
      | .task lo hi =>
        if (if d.paced e then w.start + 1 else w.start) ≤ j then
          match (List.range 64).find? (fun k => decide (lo ≤ k ∧ k ≤ hi ∧ 0 < d.slot c k)) with
          | some k =>
            let d := d.setSlot c k (d.slot c k - 1)
            d.endWait e w.ctx (evWord k false false (d.slot c k) false false false)
          | none => d
        else d
      | _ => d
    | none => d) d (List.range 16)

/-- The readies and cancels of a cluster that land at period j: (engine, ready or cancel). -/
def Device.landings (d : Device) (c j : Nat) : List (Nat × TaskRun) :=
  ((List.range 16).map (fun i =>
    ((d.eng (16 * c + i)).tasks.filter (fun t => decide (t.lands = j))).map (fun t => (16 * c + i, t)))).flatten

/-- One landing period: the readies, the cancels, the takes; then the results report the counts (R305). -/
def Device.landPeriod (d : Device) (c j : Nat) : Device :=
  let ts := d.landings c j
  let (full, d) := d.landReadies c ts
  let d := foldDev (fun d t => if t.2.ready then d else d.setSlot c t.2.slot 0) d ts
  let d := d.takes c j
  foldDev (fun d t =>
    let v := evWord t.2.slot (t.2.ready && full.contains t) false (d.slot c t.2.slot) false false false
    d.onEng t.1 (fun x => { (x.commit t.2.ctx [(.evR, v)]) with tasks := x.tasks.filter (fun k => decide (k ≠ t.2)) })) d ts

/-- TASK_LANDING (R305): the landings of the pace periods that have ended, in order. -/
def Device.taskLanding (d : Device) (c : Nat) : Device :=
  if d.pausedCluster c then d else
  let js := ((List.range 16).map (fun i => (d.eng (16 * c + i)).tasks.map (·.lands))).flatten
  let js := (js.filter (fun j => decide (j + 1 < d.now))).foldr insertNat []
  foldDev (fun d j => d.landPeriod c j) d (if d.now = 0 then js else js ++ [d.now - 1])

/-! ### Wait limits (R287, R288) -/

/-- The wait limit of a channel of engine e, and WLF (R274). -/
def Device.chLimit (d : Device) (e : Nat) (t : Word) : Nat × Bool :=
  let h := chHeader e (fld t 0 3)
  let n := fld (d.loadWord (h + 4)) 0 24
  (if n = 0 then 65536 else n, bit (d.loadWord h) 30)

/-- An event or task wait expires: `ev.r` with LIMIT, its other fields 0 (log entry 81), and with FLT a fault of its context at the next pair
(R288). -/
def Device.expireWait (d : Device) (e : Nat) (w : Wait) : Device :=
  (d.endWait e w.ctx (evWord 0 false false 0 false false true)).onEng e (fun x =>
    { x with waitFaults := x.waitFaults ++ (if w.flt then [(w.ctx, w.issue)] else []) })

/-- The expiry of the wait that engine e stands in, unless something ends it in the same pace period (R287, R288). -/
def Device.waitExpire (d : Device) (e : Nat) (w : Wait) : Device :=
  if d.now < w.start + w.limit then d else
  match w.kind with
  | .cu => d.onEng e (fun x => { x with wait := none, readyAt := d.nowStep e })
  | .bad => d
  | .lines lo hi =>
    if (List.range 192).any (fun n => decide (lo ≤ n ∧ n ≤ hi) && !d.lineEnabled e n && (d.lineNow e n).1) then d
    else d.expireWait e w
  | .task lo hi =>
    if (List.range 64).any (fun k => decide (lo ≤ k ∧ k ≤ hi ∧ 0 < d.slot (e / 16) k)) then d
    else d.expireWait e w

/-- The expiry of a blocking receive, unless a post to its channel has landed (R287, R288). -/
def Device.recvExpire (d : Device) (e : Nat) : Device :=
  match d.chHead e with
  | some c =>
    let (limit, wlf) := d.chLimit e c.datum
    if c.recv && c.blocking && decide (c.start + limit ≤ d.now) && decide (d.chCount (chHeader e (fld c.datum 0 3)) = 0) then
      (d.readOver (chHeader e (fld c.datum 0 3)) 16).recvDone e c (0, chStWord 7 false 0 0 0) wlf
    else d
  | none => d

/-- WAIT_LIMIT_EXPIRE (R288): a receive or a wait whose count is reached and that nothing ends in the same pace period ends. In a BLOCK pause the
counts stand still (R369). -/
def Device.waitLimitExpire (d : Device) (e : Nat) : Device :=
  if (d.eventLine e).isSome || d.pausedEngine e then d else
  let d := d.recvExpire e
  match (d.eng e).wait with
  | some w => d.waitExpire e w
  | none => d

/-- CH_POST (R276). -/
def execChPost (e : Nat) (s : State) : Host.Outcome State Fault Refusal := .next (s.onDev (fun d => d.chPost e))
/-- CH_SEND_COMPLETE (R282). -/
def execChSendComplete (e : Nat) (s : State) : Host.Outcome State Fault Refusal := .next (s.onDev (fun d => d.chSendComplete e))
/-- CH_RECV_COMPLETE (R279). -/
def execChRecvComplete (e : Nat) (s : State) : Host.Outcome State Fault Refusal := .next (s.onDev (fun d => d.chRecvComplete e))
/-- EV_WAIT_COMPLETE (R294). -/
def execEvWaitComplete (e : Nat) (s : State) : Host.Outcome State Fault Refusal := .next (s.onDev (fun d => d.evWaitComplete e))
/-- TASK_LANDING (R305). -/
def execTaskLanding (c : Nat) (s : State) : Host.Outcome State Fault Refusal := .next (s.onDev (fun d => d.taskLanding c))
/-- WAIT_LIMIT_EXPIRE (R288). -/
def execWaitLimitExpire (e : Nat) (s : State) : Host.Outcome State Fault Refusal := .next (s.onDev (fun d => d.waitLimitExpire e))

end Sys2Proof.Machine
end

