-- ==== Sys2Proof/Machine/Maps.lean ====
section
/-! DEFINITION. The point maps of the lanes as an image lays them out: frame descriptors and map entries (R258, R416), and the takes that a pace period
owes (R19). -/

namespace Sys2Proof.Machine

/-- Word i of a run of bytes; beyond its end 0. -/
def wordOf (bs : List Byte) (i : Nat) : Word := word (fromBytes ((bs.drop (4 * i)).take 4))

/-- The greatest PDLEN of a frame, with JUMBO or without (R413). -/
def maxPdlen (jumbo : Bool) : Nat := if jumbo then 8984 else 1484

/-- A frame descriptor from its 32 bytes (R416). -/
def Descriptor.ofBytes (bs : List Byte) : Descriptor :=
  let w := wordOf bs
  { used := bs.any (fun b => decide (b ≠ 0))
    take := fld (w 0) 0 24, inbound := bit (w 0) 24, ev := bit (w 0) 25
    send := fld (w 1) 0 24, outbound := bit (w 1) 24
    station := (w 2).setWidth 16, pdin := fld (w 2) 16 14
    pdout := fld (w 3) 0 14
    idtag := w 4
    dmac := toBytes 4 (w 5).toNat ++ toBytes 2 (w 6).toNat, tci := (w 6).extractLsb' 16 16
    reserved := decide (fld (w 0) 26 6 ≠ 0 ∨ fld (w 1) 25 7 ≠ 0 ∨ fld (w 2) 30 2 ≠ 0 ∨ fld (w 3) 14 18 ≠ 0 ∨ w 7 ≠ 0) }

/-- A map entry from its 8 bytes (R258). -/
def MapEntry.ofBytes (bs : List Byte) : MapEntry :=
  let a := wordOf bs 0
  let b := wordOf bs 1
  { point := fld a 0 25, aux := bit a 25
    offset := fld b 0 14, width := b.extractLsb' 14 2, sgn := bit b 16, valid := bit b 17, frame := fld b 18 8
    reserved := decide (fld a 26 6 ≠ 0 ∨ fld b 26 6 ≠ 0 ∨ fld b 14 2 = 3) }

/-- The entries of a map: 8 bytes each, at most so many. -/
def entriesOf : Nat → List Byte → List MapEntry
  | 0, _ => []
  | n + 1, bs => if bs.isEmpty then [] else MapEntry.ofBytes (bs.take 8) :: entriesOf n (bs.drop 8)

/-- The entries of a lane's map in a layout. -/
def Layout.entriesIn (l : Layout) (n : Nat) : List MapEntry := let bs := Assoc.get [] l.mapIn n; entriesOf bs.length bs
def Layout.entriesOut (l : Layout) (n : Nat) : List MapEntry := let bs := Assoc.get [] l.mapOut n; entriesOf bs.length bs

/-- The descriptor of a frame index of a lane in a layout (R416). -/
def Layout.descriptor (l : Layout) (n f : Nat) : Descriptor := Descriptor.ofBytes (((Assoc.get [] l.mapHeader n).drop (32 * f)).take 32)

/-- The descriptor of a frame index of a lane; an unused one is zero. -/
def Device.descriptor (d : Device) (n f : Nat) : Descriptor := match d.image with | some i => i.layout.descriptor n f | none => {}

/-- The valid map entries of a frame of a lane, in ascending index (R258). -/
def Device.entriesIn (d : Device) (n f : Nat) : List MapEntry :=
  match d.image with | some i => (i.layout.entriesIn n).filter (fun e => e.valid && decide (e.frame = f)) | none => []
def Device.entriesOut (d : Device) (n f : Nat) : List MapEntry :=
  match d.image with | some i => (i.layout.entriesOut n).filter (fun e => e.valid && decide (e.frame = f)) | none => []

/-- The recorded number of a lane of partition p (R378). -/
def Device.seenLane (d : Device) (p n : Nat) : Nat :=
  match d.recorded p with | some q => mapList (d.partLanes p) (d.partLanes q) n | none => n

/-- The lane of partition p that a recorded lane number names (R378). -/
def Device.placeLane (d : Device) (p n : Nat) : Nat :=
  match d.recorded p with | some q => mapList (d.partLanes q) (d.partLanes p) n | none => n

/-- Is this pace period the step at an offset from the partition's cycle start (R18)? -/
def Device.atOffset (d : Device) (p off : Nat) : Bool :=
  match (d.part p).cycleAt with | some c => decide (d.now = c + off) | none => false

/-- The takes of partition p's lanes due in this pace period and not made yet (R19). -/
def Device.takesDue (d : Device) (p : Nat) : List (Nat × Nat) :=
  if !d.inPaced p || d.heldNow p || (d.part p).cycleAt.isNone then [] else
  ((d.partLanes p).map (fun n => ((List.range 256).filter (fun f =>
    let x := d.descriptor n f
    x.inbound && d.atOffset p x.take && !(d.lane n).lastTake.any (fun k => decide (k = (f, d.now))))).map (fun f => (n, f)))).flatten

end Sys2Proof.Machine
end

