-- ==== Sys2Proof/Machine/Points.lean ====
section
/-! DEFINITION. The point fabric: descriptors, reads, updates on their way, router slots, notifications, subscriptions and forces
(R231 to R269). -/

namespace Sys2Proof.Machine

/-! ### Descriptors (R236 to R240) -/

/-- The quality word presented to a partition (R237, R238). -/
def Device.quality (d : Device) (pt : Nat) (part : Option Nat) : Word :=
  let q := (d.point pt).squal.setWidth 32
  let owner := (d.pointRange pt).map (·.2)
  (q &&& 0x2E) ||| (if bit q 0 then 0 else 1) ||| (if owner ≠ none ∧ part ≠ owner then 0x10 else 0)

/-- Field SEL of a point (R241, R242). -/
def Point.field (p : Point) (sel : Nat) : Word :=
  match sel with
  | 0 => p.value
  | 1 => p.aux
  | 2 => p.stamp.setWidth 32
  | _ => word (p.stamp.toNat / 2 ^ 32)

/-- The home router of a point. -/
def Device.home (d : Device) (pt : Nat) : Nat := ((d.pointRange pt).map (·.1)).getD 0

/-- The delivery record of a point for a subscriber of a partition (R255). -/
def Device.deliveryRecord (d : Device) (pt : Nat) (part : Option Nat) : List Byte :=
  let p := d.point pt
  wordsBytes [p.value, p.aux, word ((d.quality pt part).toNat + 65536 * (p.seq.toNat % 65536)), p.stamp.setWidth 32]

/-! ### Reads and subscribes (R242, R246, R253, R254) -/

/-- The address of a point's descriptor (R236). -/
def pointAddr (pt : Nat) : Nat := 0x4000000000 + 32 * pt

/-- What a read finds: field SEL and the quality. The check words that it reads are corrected and counted (R184); of one that cannot be corrected, which
is counted, it gives a free value (R187; log entry 89). -/
def Device.readPoint (d : Device) (e pt sel : Nat) : (Word × Word) × Device :=
  let a := pointAddr pt
  let at_ := match sel with | 0 => a | 1 => a | 2 => a + 8 | _ => a + 16
  let look := fun (d : Device) (a : Nat) (v : Word) =>
    if d.uncorrectable a 8 then let (w, d) := (d.eccError a).freeWord; (w, d) else (v, d.readOver a 8)
  let (v, d) := look d at_ ((d.point pt).field sel)
  let (q, d) := look d (a + 8) (d.quality pt (d.engPart e))
  ((v, q), d)

/-- At the end of a pace period, the reads that arrived in it take the point as it stands (R242, R246); in a BLOCK pause the arrival stands still
(R369). -/
def Device.takeReads (d : Device) (e : Nat) : Device :=
  if d.pausedEngine e then d else
  foldDev (fun d r =>
    let (v, d) := d.readPoint e (d.placePoint e (fld r.idx 0 25)) (fld r.idx 25 2)
    d.onEng e (fun x => { x with pt := x.pt.map (fun q => if q = r then { q with value := some v } else q) })) d
    ((d.eng e).pt.filter (fun r => decide (r.arrive = some d.now ∧ r.value = none)))

/-- Is point pt an imported one for engine e (R262, R263)? -/
def Device.importedBy (d : Device) (e pt : Nat) : Bool :=
  match d.engPart e with | some p => decide ((d.pointRange pt).map (·.2) ≠ some p) | none => false

/-- An imported value is an input: it is recorded, and in a Decant taken from the record (R263, R346, R380, R382). -/
def Device.importRead (d : Device) (e : Nat) (idx v q : Word) : (Word × Word) × Device :=
  let pt := d.placePoint e (fld idx 0 25)
  if !d.importedBy e pt then ((v, q), d) else
  match d.engPart e with
  | none => ((v, q), d)
  | some p =>
    match d.decantOf p with
    | none => ((v, q), d.record p recIMPORT_RD e (wordsBytes [idx, v, q, 0]))
    | some _ =>
      match d.consume p recIMPORT_RD (d.seenEngine e e) with
      | some (r, d) =>
        ((r.w 1, r.w 2), if r.w 0 = idx then d else d.diverge p 4 (some (d.seenEngine e e)) none)
      | none => ((0, 0), d.missing p 2 (some (d.seenEngine e e)) none)

/-- The oldest pt read or subscribe of engine e, where it can complete by the step that begins. -/
def Device.ptHead (d : Device) (e : Nat) (sub : Bool) : Option PtRun :=
  match (d.eng e).pt.find? (fun r => decide (r.sub = sub)) with
  | some r => if r.due ≤ d.nowStep e ∧ r.value.isSome then some r else none
  | none => none

/-- PT_READ_COMPLETE (R242): the oldest read writes `pt.r` and `pt.q`. -/
def Device.ptReadComplete (d : Device) (e : Nat) : Device :=
  match d.ptHead e false with
  | none => d
  | some r =>
    let v := r.value.getD (0, 0)
    let ((w, q), d) := d.importRead e r.idx v.1 v.2
    d.onEng e (fun x => { (x.commit r.ctx [(.ptR, w), (.ptQ, q)]) with pt := x.pt.erase r })

/-- The status of a subscribe and the state after (R253, R254). -/
def Device.subscribe (d : Device) (e pt : Nat) (t : Word) : Nat × Device :=
  let line := fld t 0 8
  let me := fun (s : Subscription) => decide (s.point = pt ∧ s.engine = e ∧ s.line = line)
  let dlv := if bit t 20 then some (fld t 8 12) else none
  if fld t 21 10 ≠ 0 ∨ 191 < line then (4, d) else
  match d.pointRange pt, d.engPart e with
  | some (r, _), some p =>
    let use := fld (d.reg (.ptrSubuse p r)) 0 21
    match d.subs.find? me with
    | some _ =>
      if bit t 31 then
        (0, ({ d with subs := d.subs.filter (fun s => !me s) }).setRegFld (.ptrSubuse p r) 0 21 (use - 1))
      else (0, { d with subs := d.subs.map (fun s => if me s then { s with dlv := dlv } else s) })
    | none =>
      if bit t 31 then (3, d)
      else if fld (d.reg (.ptrSubq p r)) 0 21 ≤ use then (1, d)
      else if 64 ≤ (d.subs.filter (fun s => decide (s.point = pt))).length then (2, d)
      else
        let (w, d) := d.freeWord
        let free := (List.range (d.subs.length + 1)).find? (fun i =>
          !(d.subs.any (fun s => decide (s.index = (w.toNat + i) % 0x100000 ∧ d.home s.point = r))))
        let s : Subscription := { point := pt, engine := e, line := line, dlv := dlv, index := (w.toNat + free.getD 0) % 0x100000 }
        (0, ({ d with subs := d.subs ++ [s] }).setRegFld (.ptrSubuse p r) 0 21 (use + 1))
  | _, _ => (4, d)

/-- PT_SUB_COMPLETE (R254): the oldest subscribe takes effect and answers its status. -/
def Device.ptSubComplete (d : Device) (e : Nat) : Device :=
  match d.ptHead e true with
  | none => d
  | some r =>
    let (st, d) := d.subscribe e (d.placePoint e (fld r.idx 0 25)) r.datum
    d.onEng e (fun x => { (x.commit r.ctx [(.ptR, word st), (.ptQ, (r.value.getD (0, 0)).2)]) with pt := x.pt.erase r })

/-! ### Arrival (R246, R248, R250, R260) -/

/-- A Free update joins the pending ring of its router: it creates an entry or replaces the one of its field in place (R250). -/
def Device.joinRing (d : Device) (u : Update) : Device :=
  let r := d.home u.point
  let same := fun (v : Update) => decide (v.point = u.point ∧ v.aux = u.aux ∧ v.origin ≠ .force)
  if (d.router r).ring.any same then
    let d := d.onRouter r (fun x => { x with ring := x.ring.map (fun v =>
      if same v then { u with coalesced := true, posted := d.now } else v) })
    (d.bump (.ptrRcoal r)).bump (.ptrPcoal u.part)
  else d.onRouter r (fun x => { x with ring := x.ring ++ [{ u with posted := d.now }] })

/-- The order of the updates of one step (R248): scatters by lane, frame and entry, then engine writes by engine. -/
def Origin.key : Origin → Nat × Nat × Nat
  | .scatter lane frame entry _ _ => (lane, frame, entry)
  | .link m _ _ _ => (64 + m, 0, 0)
  | .force => (100, 0, 0)
  | .engine e => (128 + e, 0, 0)

/-- Does one key come before another? -/
def keyBefore (a b : Nat × Nat × Nat) : Bool :=
  decide (a.1 < b.1) || (decide (a.1 = b.1) && (decide (a.2.1 < b.2.1) || (decide (a.2.1 = b.2.1) && decide (a.2.2 < b.2.2))))

/-- A share update joins its router's list: by arrival, then in the order of R248. -/
def joinShare (u : Update) : List Update → List Update
  | [] => [u]
  | v :: vs =>
    let a := u.arrive.getD 0
    let b := v.arrive.getD 0
    if a < b ∨ (a = b ∧ keyBefore u.origin.key v.origin.key) then u :: v :: vs else v :: joinShare u vs

/-- May a Free update or read of a point arrive: is none of the same source and point, posted before it, still on its way (R246,
R260)? The updates of a link lane cross in order (R435). -/
def Device.inOrder (d : Device) (u : Update) : Bool :=
  match u.origin with
  | .engine e =>
    !(d.inFlight.any (fun v => decide (v.origin = .engine e ∧ v.point = u.point ∧ v.trig < u.trig))) &&
    !((d.eng e).pt.any (fun r => r.arrive.isNone && decide (d.placePoint e (fld r.idx 0 25) = u.point ∧ r.trig < u.trig)))
  | .link m _ _ _ =>
    !((d.inFlight.takeWhile (fun v => decide (v ≠ u))).any (fun v => match v.origin with
      | .link k _ _ _ => decide (k = m ∧ d.home v.point = d.home u.point)
      | _ => false))
  | .scatter lane frame entry _ _ =>
    !(d.inFlight.any (fun v => match v.origin with
      | .scatter l f k _ _ => decide (l = lane ∧ f = frame ∧ k < entry ∧ d.home v.point = d.home u.point ∧ v.posted = u.posted)
      | _ => false))
  | _ => true

/-- The Free reads and subscribes that have not arrived, by engine. -/
def Device.readsOnWay (d : Device) : List (Nat × PtRun) :=
  (d.engines.map (fun x => (x.2.pt.filter (fun r => r.arrive.isNone)).map (fun r => (x.1, r)))).flatten

/-- The updates that the accept stage of router r has taken in this pace period. -/
def Device.takenNow (d : Device) (r : Nat) : Nat := if (d.router r).takenPeriod = d.now then (d.router r).taken else 0

/-- One more update taken. -/
def Device.takeOne (d : Device) (r : Nat) : Device :=
  let n := d.takenNow r
  d.onRouter r (fun x => { x with takenPeriod := d.now, taken := n + 1 })

/-- The Paced updates that have arrived at router r by this period and stand in no share yet. -/
def Device.dueAt (d : Device) (r : Nat) : List Update :=
  d.inFlight.filter (fun u => (u.arrive.any (fun k => decide (k ≤ d.now))) && decide (d.home u.point = r))

/-- Does the accept stage of router r take a Free update now: at most 8 updates in a period, those that arrive at a fixed step before it (R246)? -/
def Device.accepts (d : Device) (r : Nat) : Bool := decide (d.takenNow r + (d.dueAt r).length < 8)

/-- A Paced update that has arrived joins its share. -/
def Device.arriveShare (d : Device) (u : Update) : Device :=
  ({ d with inFlight := d.inFlight.erase u }.takeOne (d.home u.point)).onRouter (d.home u.point) (fun x => { x with share := joinShare u x.share })

/-- UPDATE_ARRIVE (R248, R246): the i-th update on its way reaches its home router and joins its share or the pending ring; a
number beyond the updates names a Free read or subscribe, which arrives. In Paced the arrival step is fixed. -/
def Device.updateArrive (d : Device) (i : Nat) : Device :=
  match d.inFlight[i]? with
  | some u =>
    if d.pausedPart u.part then d else
    match u.arrive with
    | some k => if d.now < k then d else d.arriveShare u
    | none =>
      if d.now ≤ u.posted ∨ !d.inOrder u ∨ !d.accepts (d.home u.point) then d
      else ({ d with inFlight := d.inFlight.eraseIdx i }.takeOne (d.home u.point)).joinRing u
  | none =>
    match d.readsOnWay[i - d.inFlight.length]? with
    | some (e, r) =>
      let pt := d.placePoint e (fld r.idx 0 25)
      let before := (d.eng e).pt.any (fun q => q.arrive.isNone && decide (d.placePoint e (fld q.idx 0 25) = pt ∧ q.trig < r.trig)) ||
        d.inFlight.any (fun v => decide (v.origin = .engine e ∧ v.point = pt ∧ v.trig < r.trig))
      if d.now ≤ r.posted ∨ before ∨ d.pausedEngine e then d
      else d.onEng e (fun x => { x with pt := x.pt.map (fun q => if q = r then { q with arrive := some d.now } else q) })
    | none => d

/-! ### Application and notification (R238 to R240, R247 to R252, R266) -/

/-- Is a point forced (R265, R266)? The force table says so, which a refilled point store does not touch. -/
def Device.forced (d : Device) (pt : Nat) : Bool := d.parts.any (fun x => x.2.forces.any (fun f => decide (f.1 = pt)))

/-- The partition an update notifies, the notices of one applied update, in the order of the subscriptions (R252). -/
def Device.notices (d : Device) (pt r part : Nat) (isPaced : Bool) : List Notice :=
  (d.subs.filter (fun s => decide (s.point = pt))).map (fun s =>
    let far := if engineDie s.engine = r then 0 else 16
    { router := r, engine := s.engine, line := s.line, point := pt, part := part, dlv := s.dlv
      record := d.deliveryRecord pt (d.engPart s.engine), applied := d.now
      recordAt := if isPaced then d.now + 1 + far else d.now + 1, lineAt := if isPaced then d.now + 2 + far else d.now + 1 })

/-- An outbound exchange window sends an applied update to the peer (R436); on a lane out of service the router's request receives OFFLINE (R394, R401;
log entry 98). -/
def Device.sendLinks (d : Device) (pt : Nat) : Device :=
  let p := d.point pt
  foldDev (fun d j =>
    let a := d.reg (.lnkXwa j)
    let b := d.reg (.lnkXwb j)
    let lo := fld a 0 25
    if bit a 31 && !bit a 30 && decide (lo ≤ pt ∧ pt ≤ lo + fld b 0 16) then
      if bit (d.reg .trlOffx) (4 + fld b 16 4) then
        match d.pointRange pt with | some (r, owner) => d.logStatus (some owner) (64 + r) 3 (pointAddr pt) | none => d
      else d.onLink (fld b 16 4) (fun l => { l with outbox := l.outbox ++ [.updates [{
        window := fld b 20 6, offset := pt - lo, value := p.value, aux := p.aux, quality := (d.quality pt none).setWidth 16
        stamp := p.stamp }]] })
    else d) d (List.range 64)

/-- What a point holds at the start of pace period k (R21). -/
def Point.atStart (p : Point) (k : Nat) : Before :=
  match p.before with
  | some b => if b.period = k then b else { period := k, value := p.value, aux := p.aux, valid := p.squal.getLsbD 0, by_ := p.by_ }
  | none => { period := k, value := p.value, aux := p.aux, valid := p.squal.getLsbD 0, by_ := p.by_ }

/-- The engine whose update was the last applied before a send step, of pace period k, to a point of an outbound frame (R21, R382). -/
def Device.lastWriter (d : Device) (n f k : Nat) : Option Nat :=
  ((d.entriesOut n f).foldl (fun (acc : Option (Nat × Nat)) e =>
    match acc, ((d.point e.point).atStart k).by_ with
    | none, x => x
    | some a, some b => if a.1 ≤ b.1 then some b else some a
    | some a, none => some a) none).map (·.2)

/-- TIM bits [47:0] as partition p's updates are stamped: in a Decant, those of the recording (R240, R380). -/
def Device.partStamp (d : Device) (p : Nat) : BitVec 48 :=
  match d.decantOf p with | some r => BitVec.ofNat 48 (r.tick * 32 / 25) | none => d.stamp

/-- Does an update write VALUE: a write of AUX does not, nor one of another module, which carries both, to a forced point (R266, R436)? -/
def Device.writesValue (d : Device) (u : Update) : Bool :=
  !u.aux && !(d.forced u.point && (match u.origin with | .link _ _ _ _ => true | _ => false))

/-- Apply one update (R247): value, OWNER, timestamp, SEQ, flags, notifications. One of a forced point's VALUE is discarded and counted; of one of
another module the AUX is applied (R266; log entry 92). One into a descriptor with an uncorrectable word is not performed, is counted, and its
status ECC is logged (R185, R394; log entry 89). -/
def Device.applyUpdate (d : Device) (u : Update) : Device :=
  let discarded := !u.aux && d.forced u.point && decide (u.origin ≠ .force)
  let d := if discarded then d.bump (.ptrFdrop u.part) else d
  let value := d.writesValue u
  if discarded && value then d
  else if d.uncorrectable (pointAddr u.point) 24 then
    (d.eccError (pointAddr u.point)).logStatus (some u.part) (64 + d.home u.point) 9 (pointAddr u.point)
  else
  let d := d.readOver (pointAddr u.point) 24
  let p := d.point u.point
  let now := d.partStamp u.part
  let stamp := match u.origin with | .scatter _ _ _ t _ => t | .link _ _ _ t => t | _ => now
  let first := match u.origin with | .scatter _ _ _ _ f => f | _ => false
  let kept : BitVec 16 := match u.origin with
    | .link _ _ q _ => if discarded then (q &&& 0x26) ||| 8 else q &&& 0x2E
    | .force => 8
    | _ => p.squal &&& 8
  let squal : BitVec 16 := 1 ||| kept ||| (if u.coalesced then 4 else 0) ||| (if first then 0x20 else 0)
  let aux := match u.origin with | .link _ a _ _ => a | _ => if u.aux then u.value else p.aux
  let d := d.onPoint u.point (fun p => { p with
    value := if value then u.value else p.value, aux := aux, squal := squal, owner := BitVec.ofNat 4 u.part, stamp := stamp
    seq := p.seq + 1, by_ := match u.origin with | .engine e => some (d.now, e) | _ => p.by_
    before := some (p.atStart d.now) })
  let r := d.home u.point
  let ns := d.notices u.point r u.part (d.pacedPart u.part)
  (d.onRouter r (fun x => { x with notices := x.notices ++ ns })).sendLinks u.point

/-- The slots a router offers in this pace period: two, and a third in periods 21, 42 and 63 of the window (R247). -/
def slotsOf (now : Nat) : Nat := if now % 64 = 21 ∨ now % 64 = 42 ∨ now % 64 = 63 then 3 else 2

/-- Does partition p use its share: in Paced and Decant, but for the updates that a change of mode leaves to be applied (R264)? -/
def Device.usesShare (d : Device) (p : Nat) : Bool := d.pacedPart p && !d.inChange p

/-- The slots of this period that the shares of the image reserve on a router, by partition (R248). -/
def Device.reserved (d : Device) (r : Nat) : List Nat :=
  match d.image with
  | some i => ((i.layout.shareSlots.filter (fun s => decide (s.1 = r ∧ s.2.2 = d.now % 64))).map (fun s => s.2.1)).filter d.usesShare
  | none => []

/-- The slots a router has used in this period. -/
def Device.used (d : Device) (r : Nat) : List (Option Nat) :=
  let x := d.router r
  if x.usedPeriod = d.now then x.used else []

/-- Note a used slot: of a partition's share, or a Free one. -/
def Device.useSlot (d : Device) (r : Nat) (p : Option Nat) : Device :=
  let us := d.used r
  d.onRouter r (fun x => { x with usedPeriod := d.now, used := us ++ [p] })

/-- The slots that a router's shares reserve for partition p in this period and that p has not used. -/
def Device.shareLeft (d : Device) (r p : Nat) : Nat :=
  ((d.reserved r).filter (fun q => decide (q = p))).length - ((d.used r).filter (fun q => decide (q = some p))).length

/-- Is there a Free slot on router r in this period: one that no share reserves, or a reserved one its partition leaves unused: more of them
than updates of it wait, or than a take due in the period may bring (R248, R249)? -/
def Device.freeSlot (d : Device) (r : Nat) : Bool :=
  let waits := (partNumbers.map (fun p =>
    let left := d.shareLeft r p
    if decide (0 < left) && !(d.takesDue p).isEmpty then left
    else min left
      (((d.router r).share.filter (fun u => decide (u.part = p))).length + ((d.dueAt r).filter (fun u => decide (u.part = p))).length))).sum
  decide ((d.used r).length + waits < slotsOf d.now)

/-- Do two updates write the same field of the same point? -/
def Update.sameField (u v : Update) : Bool := decide (u.point = v.point ∧ u.aux = v.aux)

/-- The entry of router r's pending ring that partition p's next Free slot applies: the oldest, but for one behind an update of the same field that
reached the router before it (R251). -/
def Device.ringHead (d : Device) (r p : Nat) : Option Update :=
  (d.router r).ring.find? (fun u => decide (u.part = p) &&
    !(d.router r).share.any (fun v => v.sameField u && decide (v.arrive.getD 0 < u.posted)))

/-- The update that a Free slot of router r applies for partition p: in Free mode and Recovery the head of its ring; at a change of mode what is
left of its share before that (R249, R264). -/
def Device.freeUpdate (d : Device) (r p : Nat) : Option Update :=
  let left := if d.usesShare p then none else (d.router r).share.find? (fun u => decide (u.part = p))
  match left with
  | some u => match (d.router r).ring.find? (fun v => v.sameField u && decide (v.posted ≤ u.arrive.getD 0)) with
    | some v => some v
    | none => some u
  | none => d.ringHead r p

/-- Does a force of partition p wait for a Free slot of router r (R265, R266)? -/
def Device.forceWaits (d : Device) (r p : Nat) : Bool :=
  d.released p && (match (d.part p).forceQueue with | f :: _ => decide (d.home f.1 = r) | [] => false)

/-- The master whose transaction an update is: a lane's or a link lane's, else its router's (R386). -/
def Origin.master (r : Nat) : Origin → Nat
  | .scatter n _ _ _ _ => 68 + n
  | .link m _ _ _ => 134 + m
  | _ => 64 + r

/-- The partitions that compete for the Free slots of router r, each with its oldest update or force (R249, R386). -/
def Device.freeWork (d : Device) (r : Nat) : List TrellisReq :=
  partNumbers.filterMap (fun p =>
    let work := if d.forceWaits r p then some (64 + r, d.now) else (d.freeUpdate r p).map (fun u => (u.origin.master r, u.posted))
    if d.pausedPart p then none else
    work.map (fun k => { master := k.1, part := some p, qos := d.masterQos (some p) k.1, since := k.2, owner := .passing }))

/-- The partition whose update the next Free slot of router r applies, by the QoS arbitration (R249, R389). -/
def Device.freeTurn (d : Device) (r : Nat) : Option TrellisReq :=
  if d.freeSlot r then d.choose (d.router r).round.inRound (d.freeWork r) else none

/-- A Free slot is used, and counts in the round of its router. -/
def Device.useFree (d : Device) (r : Nat) (q : TrellisReq) : Device :=
  (d.useSlot r none).onRouter r (fun x => { x with round := x.round.grant q })

/-- An update leaves the lists of its router and is applied. -/
def Device.applyFrom (d : Device) (r : Nat) (u : Update) : Device :=
  (d.onRouter r (fun x => { x with share := x.share.erase u, ring := x.ring.erase u })).applyUpdate u

/-- A reserved slot of partition p applies its oldest update at or after its arrival: what the pending ring still holds of the same field from
before goes first (R248, R251); one on its way that has arrived stands before it. -/
def Device.applyShare (d : Device) (r p : Nat) : Device :=
  match (d.router r).share.find? (fun u => decide (u.part = p)) with
  | none => d
  | some u =>
    if d.shareLeft r p = 0 ∨ slotsOf d.now ≤ (d.used r).length ∨ (d.dueAt r).any (fun v => decide (v.part = p)) ∨ !(d.takesDue p).isEmpty then d
    else
      let first := (d.router r).ring.find? (fun v => v.sameField u && decide (v.posted ≤ u.arrive.getD 0))
      (d.useSlot r (some p)).applyFrom r (first.getD u)

/-- UPDATE_APPLY (R247 to R250, R264): a slot of router r applies partition p's next update: of its share in Paced and Decant, in a
Free slot once its mode changes; of the pending ring in Free mode and Recovery, where the arbitration chooses p. A force that waits takes the next
Free slot of p before any of them (R265). -/
def Device.updateApply (d : Device) (r p : Nat) : Device :=
  if d.pausedPart p then d
  else if d.usesShare p && (d.router r).share.any (fun u => decide (u.part = p)) then d.applyShare r p
  else if d.forceWaits r p then d
  else match d.freeTurn r, d.freeUpdate r p with
    | some q, some u => if q.part = some p then (d.useFree r q).applyFrom r u else d
    | _, _ => d

/-- What the routers owe in this pace period to the Paced and Decant partitions happens: updates that have arrived join their shares, and each
reserved slot applies the next update (R248). -/
def Device.settleRouters (d : Device) : Device :=
  let d := foldDev (fun d (u : Update) => if d.pausedPart u.part then d else d.arriveShare u) d
    (d.inFlight.filter (fun u => u.arrive.any (fun k => decide (k ≤ d.now))))
  foldDev (fun d (x : Nat × Router) =>
    if x.2.share.isEmpty then d else foldDev (fun d p => if d.pausedPart p then d else d.applyShare x.1 p) d (d.reserved x.1)) d d.routers

/-- A record of router r is written into the subscriber's exchange RAM (R255, R256); of an imported point it is an input (R346). In a Decant the
recorded deliveries of imported points stand for it (R380). One for a cluster out of service goes to the default target, whose status is logged (R393,
R394, R401). -/
def Device.writeRecord (d : Device) (r : Nat) (n : Notice) : Device :=
  let a := xramBase (n.engine / 16) + 16 * n.dlv.getD 0
  let lost := d.offline a
  let d := d.onRouter r (fun x => { x with notices := x.notices.map (fun m => if m = n then { n with dlv := none } else m) })
  let write := fun (d : Device) =>
    let d := d.askPassing (d.targetFor a) (64 + r) (some n.part) (d.partQos (some n.part))
    if lost then d.logStatus (some n.part) (64 + r) 3 a else d.storeFor (some n.part) (64 + r) a n.record
  match d.engPart n.engine with
  | none => write d
  | some p =>
    if d.importedBy n.engine n.point then
      match d.decantOf p with
      | some _ => d
      | none => if lost then write d else (write d).record p recIMPORT_DLV n.engine (wordsBytes [word n.point, word (16 * n.dlv.getD 0), 0, 0] ++ n.record)
    else write d

/-- The oldest record due at router r. -/
def Device.recordDue (d : Device) (r : Nat) : Option Notice :=
  (d.router r).notices.find? (fun n => n.dlv.isSome && decide (n.recordAt ≤ d.now) && !d.pausedPart n.part)

/-- DELIVERY_RECORD_WRITE (R255, R256): the oldest record due at router r is written. -/
def Device.deliveryRecordWrite (d : Device) (r : Nat) : Device :=
  match d.recordDue r with | some n => d.writeRecord r n | none => d

/-- The next line due at router r whose record has been written; the lines of one update that are due by the same period are raised in the order
of its subscriptions (R252). -/
def lineAmong (now : Nat) (paused : Nat → Bool) : List Notice → List Notice → Option Notice
  | _, [] => none
  | before, n :: ns =>
    if n.dlv.isNone && decide (n.lineAt ≤ now) && !paused n.part &&
        !before.any (fun m => decide (m.point = n.point ∧ m.applied = n.applied ∧ m.lineAt ≤ n.lineAt)) then some n
    else lineAmong now paused (before ++ [n]) ns

/-- The next line due at router r. -/
def Device.lineDueAt (d : Device) (r : Nat) : Option Notice := lineAmong d.now d.pausedPart [] (d.router r).notices

/-- A subscriber's line is raised. In a Decant imported points raise nothing: their recorded deliveries do. -/
def Device.raiseNotice (d : Device) (r : Nat) (n : Notice) : Device :=
  let d := d.onRouter r (fun x => { x with notices := x.notices.erase n })
  let replay := match d.engPart n.engine with | some p => (d.decantOf p).isSome && d.importedBy n.engine n.point | none => false
  if replay then d else d.raiseLine n.engine n.line

/-- SUBSCRIBER_LINE_RAISE (R252): the oldest line due at router r is raised, after its record. -/
def Device.subscriberLineRaise (d : Device) (r : Nat) : Device :=
  match d.lineDueAt r with | some n => d.raiseNotice r n | none => d

/-- The records and lines of the updates of Paced and Decant partitions that this pace period brings (R182, R252). -/
def Device.settleNotices (d : Device) : Device :=
  let owed := fun (d : Device) (n : Notice) => d.pacedPart n.part && !d.pausedPart n.part
  foldDev (fun d (x : Nat × Router) =>
    let d := foldDev (fun d n => if owed d n && n.dlv.isSome && decide (n.recordAt ≤ d.now) then d.writeRecord x.1 n else d) d x.2.notices
    foldDev (fun d _ => match d.lineDueAt x.1 with
      | some n => if owed d n then d.raiseNotice x.1 n else d
      | none => d) d x.2.notices) d d.routers

/-! ### Forces (R265, R266) -/

/-- PTR.FSTAT.ERR is bit 8 (R269). -/
def Device.forceErr (d : Device) (p : Nat) (b : Bool) : Device := d.setRegBit (.ptrFstat p) 8 b

/-- May partition p give a force command on a point now (R265)? -/
def Device.forceAllowed (d : Device) (p pt : Nat) : Bool :=
  !d.inPaced p && decide ((d.pointRange pt).map (·.2) = some p)

/-- FORCE (R265): a refused command sets ERR; an accepted one waits for the next Free slot. The points of forces that wait count among the 64 (log
entry 78). -/
def Device.force (d : Device) (p : Nat) : Device :=
  let pt := fld (d.reg (.ptrFpnt p)) 0 25
  let held := ((d.part p).forces.map (·.1) ++ (d.part p).forceQueue.map (·.1)).dedup
  if !d.forceAllowed p pt || decide (64 ≤ held.length) then d.forceErr p true
  else (d.onPart p (fun x => { x with forceQueue := x.forceQueue ++ [(pt, d.reg (.ptrFval p))] })).forceErr p false

/-- FORCE_APPLY (R265): partition p's oldest accepted force is applied to VALUE as an update in a Free slot. -/
def Device.forceApply (d : Device) (p : Nat) : Device :=
  match (d.part p).forceQueue with
  | [] => d
  | (pt, v) :: rest =>
    let r := d.home pt
    match d.freeTurn r with
    | none => d
    | some q =>
    if !d.released p || d.pausedPart p || decide (q.part ≠ some p) then d else
    let d := d.onPart p (fun x => { x with forceQueue := rest, forcesDue := x.forcesDue - 1, forces := (x.forces.filter (fun f => decide (f.1 ≠ pt))) ++ [(pt, v)] })
    let d := (d.useFree r q).applyUpdate
      { point := pt, aux := false, value := v, part := p, origin := .force, trig := 0, posted := d.now, arrive := none, coalesced := false }
    d.record p recFORCE srcModule (wordsBytes [1, word pt, v, 0])

/-- At the end of a pace period the Free slots that are left apply what the arbitration gives them: forces, and the updates of the pending rings and of
shares at a change of mode (R249, R264 to R266). -/
def Device.settleFree (d : Device) : Device :=
  foldDev (fun d (x : Nat × Nat) =>
    match d.freeTurn x.1 with
    | some q =>
      match q.part with
      | some p => if d.forceWaits x.1 p then d.forceApply p else d.updateApply x.1 p
      | none => d
    | none => d) d ([0, 1, 2, 3].map (fun r => [(r, 0), (r, 1), (r, 2)])).flatten

/-- FORCE_RELEASE (R266): FORCED is cleared, the value stays, nothing is posted; a force of the point that still waits goes too. -/
def Device.forceRelease (d : Device) (p : Nat) : Device :=
  let pt := fld (d.reg (.ptrFpnt p)) 0 25
  let held := (d.part p).forces.any (fun f => decide (f.1 = pt))
  if !d.forceAllowed p pt || !held then d.forceErr p true
  else
    let other := fun (f : Nat × Word) => decide (f.1 ≠ pt)
    let d := d.onPart p (fun x => { x with
      forces := x.forces.filter other, forceQueue := x.forceQueue.filter other
      forcesDue := ((x.forceQueue.take x.forcesDue).filter other).length })
    let d := d.onPoint pt (fun q => { q with squal := q.squal &&& 0xFFF7 })
    (d.forceErr p false).record p recFORCE srcModule (wordsBytes [2, word pt, 0, 0])

/-- UPDATE_ARRIVE (R248). -/
def execUpdateArrive (i : Nat) (s : State) : Host.Outcome State Fault Refusal := .next (s.onDev (fun d => d.updateArrive i))
/-- UPDATE_APPLY (R247). -/
def execUpdateApply (r p : Nat) (s : State) : Host.Outcome State Fault Refusal := .next (s.onDev (fun d => d.updateApply r p))
/-- DELIVERY_RECORD_WRITE (R255). -/
def execDeliveryRecordWrite (r : Nat) (s : State) : Host.Outcome State Fault Refusal :=
  .next (s.onDev (fun d => d.deliveryRecordWrite r))
/-- SUBSCRIBER_LINE_RAISE (R252). -/
def execSubscriberLineRaise (r : Nat) (s : State) : Host.Outcome State Fault Refusal :=
  .next (s.onDev (fun d => d.subscriberLineRaise r))
/-- PT_READ_COMPLETE (R242). -/
def execPtReadComplete (e : Nat) (s : State) : Host.Outcome State Fault Refusal := .next (s.onDev (fun d => d.ptReadComplete e))
/-- PT_SUB_COMPLETE (R254). -/
def execPtSubComplete (e : Nat) (s : State) : Host.Outcome State Fault Refusal := .next (s.onDev (fun d => d.ptSubComplete e))
/-- FORCE (R265). -/
def execForce (p : Nat) (s : State) : Host.Outcome State Fault Refusal := .next (s.onDev (fun d => d.force p))
/-- FORCE_RELEASE (R266). -/
def execForceRelease (p : Nat) (s : State) : Host.Outcome State Fault Refusal := .next (s.onDev (fun d => d.forceRelease p))
/-- FORCE_APPLY (R265). -/
def execForceApply (p : Nat) (s : State) : Host.Outcome State Fault Refusal := .next (s.onDev (fun d => d.forceApply p))

end Sys2Proof.Machine
end

