-- ==== Sys2Proof/Machine/Events.lean ====
section
/-! DEFINITION. The Event Router and the alarm timers (R299 to R303, R307, R308). -/

namespace Sys2Proof.Machine

/-- A raise that its route does not carry is counted for the owner of its source, or for the module (R300). -/
def Device.dropRaise (d : Device) (n : Nat) : Device :=
  match d.sourceOwner n with
  | some p => d.bump (.evrDrop p)
  | none => d.bump .evrMdrop

/-- A raise reaches the line its route named (R300): an external one is an input of the engine's partition (R346), and a
partition in Decant takes it from the record instead. -/
def Device.deliver (d : Device) (n : Nat) (route : Word) : Device :=
  match d.routeLine route with
  | none => d.dropRaise n
  | some (e, p, line) =>
    if d.routeMuted n route then d
    else if n < 0x100 then (d.record p recEVENT e (wordsBytes [word (n + 65536 * line)])).raiseLine e line
    else d.raiseLine e line

/-- ROUTE_DELIVERY (R300): the oldest raise on its way, 18 pace periods after it was raised. -/
def Device.routeDelivery (d : Device) : Device :=
  match d.raises with
  | [] => d
  | (due, n, route) :: rest => if d.now < due then d else ({ d with raises := rest }).deliver n route

/-- SOFTWARE_RAISE (R302): a software source of partition p, or one more drop. -/
def Device.softwareRaise (d : Device) (p : Nat) (v : Word) : Device :=
  let n := v.toNat
  if 0x500 ≤ n ∧ n < 0x1000 ∧ d.sourceOwner n = some p then d.raise n else d.bump (.evrDrop p)

/-- The pace period at which a timer raises next, if it does (R303). -/
def Device.timerDue (d : Device) (n : Nat) : Option Nat :=
  let per := max 1 (d.reg (.evrTper n)).toNat
  match d.timers.find? (fun t => decide (t.1 = n)) with
  | none => none
  | some (_, w, k) =>
    match fld (d.reg (.evrTctl n)) 0 2 with
    | 1 => some (w + per)
    | 2 => some (w + (k + 1) * per)
    | 3 =>
      match d.timerOwner n with
      | none => none
      | some p =>
        let len := fld (d.reg (.timCycle p)) 0 24
        match (d.part p).cycleAt with
        | some c => if len ≠ 0 ∧ w ≤ c + per % len ∧ k ≤ c + per % len then some (c + per % len) else none
        | none => none
    | _ => none

/-- A timer's source is raised and its count steps on; a one-shot timer's MODE then reads 0 (R303). -/
def Device.fireTimer (d : Device) (n due : Nat) : Device :=
  let (w, k) := Assoc.get (0, 0) d.timers n
  let mode := fld (d.reg (.evrTctl n)) 0 2
  let d := { d with timers := Assoc.put d.timers n (w, if mode = 3 then due + 1 else k + 1) }
  let d := if mode = 1 then d.setRegFld (.evrTctl n) 0 2 0 else d
  d.raise (0x100 + n)

/-- Does a timer stand still: its owner pauses under BLOCK (R369)? -/
def Device.timerPaused (d : Device) (n : Nat) : Bool :=
  match d.timerOwner n with | some p => bit (d.reg (.celStat p)) 3 | none => false

/-- TIMER_EXPIRE (R303). -/
def Device.timerExpire (d : Device) (n : Nat) : Device :=
  match d.timerDue n with
  | some k => if d.now < k || d.timerPaused n then d else d.fireTimer n k
  | none => d

/-- Is a raise of a timer due by now? -/
def Device.timerReady (d : Device) (n : Nat) : Bool := !d.timerPaused n && (match d.timerDue n with | some k => decide (k ≤ d.now) | none => false)

/-- TIMER_ARM (R303): a write of EVR.TCTLn or EVR.TPERn re-arms the timer; a raise due now still occurs, and under MODE 3 its cycle start
raises no second one. OWN and PART take a write only while the tables are not locked (R396). -/
def Device.timerArm (d : Device) (n : Nat) (per : Bool) (v : Word) : Device :=
  let fired := d.timerReady n
  let d := d.timerExpire n
  let d := if per then d.setReg (.evrTper n) v
    else if bit (d.reg .parLock) 0 then d.setReg (.evrTctl n) ((d.reg (.evrTctl n) &&& 0xF8000000) ||| (v &&& 3))
    else d.setReg (.evrTctl n) (v &&& 0xF8000003)
  { d with timers := Assoc.put d.timers n (d.now, if fired && decide (fld (d.reg (.evrTctl n)) 0 2 = 3) then d.now + 1 else 0) }

/-- ROUTE_DELIVERY (R300). -/
def execRouteDelivery (s : State) : Host.Outcome State Fault Refusal := .next (s.onDev (fun d => d.routeDelivery))
/-- SOFTWARE_RAISE (R302). -/
def execSoftwareRaise (p : Nat) (v : Word) (s : State) : Host.Outcome State Fault Refusal :=
  .next (s.onDev (fun d => d.softwareRaise p v))
/-- TIMER_ARM (R303). -/
def execTimerArm (n : Nat) (per : Bool) (v : Word) (s : State) : Host.Outcome State Fault Refusal :=
  .next (s.onDev (fun d => d.timerArm n per v))
/-- TIMER_EXPIRE (R303). -/
def execTimerExpire (n : Nat) (s : State) : Host.Outcome State Fault Refusal := .next (s.onDev (fun d => d.timerExpire n))

end Sys2Proof.Machine
end

