-- ==== Sys2Proof/Machine/Modes.lean ====
section
/-! DEFINITION. Mode requests, the admission epoch, release and restart of partitions, Decant's load and end, Cocoon (R24 to R38,
R264, R309 to R311, R333, R357 to R369, R376 to R383, R408, R489, R499, R510). -/

namespace Sys2Proof.Machine

/-! ### Cycle-start ticks (R333) -/

/-- The cycle of partition p in ticks, and its phase. -/
def Device.cycleLen (d : Device) (p : Nat) : Nat := fld (d.reg (.timCycle p)) 0 24
def Device.cyclePhase (d : Device) (p : Nat) : Nat := fld (d.reg (.timPhase p)) 0 24

/-- The first tick at or after t with t mod n = phase. -/
def tickAfter (n phase t : Nat) : Nat := t + (phase + n - t % n) % n

/-- The next cycle-start tick of partition p is computed afresh and is always taken. -/
def Device.freshCycle (d : Device) (p : Nat) : Device :=
  let n := d.cycleLen p
  d.onPart p (fun x => { x with
    cycleFree := true, nextTick := if n = 0 then none else some (tickAfter n (d.cyclePhase p % n) d.pace.tick) })

/-! ### PACE_LOSS, pauses -/

/-- Is PACE_LOSS active (R309, R322)? -/
def Device.paceLoss (d : Device) : Bool := decide (1 < d.pace.s)

/-- Move every pace period an engine holds by k (R369, R379). -/
def Engine.shift (x : Engine) (k : Nat) : Engine :=
  { x with
    period := x.period + k
    lsu := x.lsu.map (fun l => { l with posted := l.posted + k })
    pt := x.pt.map (fun r => { r with posted := r.posted + k, arrive := r.arrive.map (· + k) })
    ch := x.ch.map (fun c => { c with start := c.start + k })
    wait := x.wait.map (fun w => { w with start := w.start + k })
    events := x.events.map (fun l => (l.1, { l.2 with period := l.2.period + k }))
    tasks := x.tasks.map (fun t => { t with lands := t.lands + k }) }

/-- Move every pace period of a shared unit by k. -/
def Unit3.shift (u : Unit3) (k : Nat) : Unit3 :=
  { queue := u.queue.map (fun r => { r with trig := r.trig + k, earliest := r.earliest + k })
    service := u.service.map (fun s => { s with start := s.start + k, due := s.due + k, req := { s.req with trig := s.req.trig + k } })
    lastDone := u.lastDone + k }

def Cluster.shift (c : Cluster) (k : Nat) : Cluster :=
  { c with kin := c.kin.shift k, ipl := c.ipl.shift k, bmv := c.bmv.shift k
           parked := c.parked.map (fun q => { q with req := { q.req with trig := q.req.trig + k } }) }

def Update.shift (u : Update) (k : Nat) : Update :=
  { u with posted := u.posted + k, issued := u.issued + k, arrive := u.arrive.map (· + k) }

def Notice.shift (n : Notice) (k : Nat) : Notice :=
  { n with applied := n.applied + k, recordAt := n.recordAt + k, lineAt := n.lineAt + k }

/-- Move what the routers hold of partition p by k. -/
def Router.shift (r : Router) (p k : Nat) : Router :=
  let move := fun (u : Update) => if u.part = p then u.shift k else u
  { r with share := r.share.map move, ring := r.ring.map move, notices := r.notices.map (fun n => if n.part = p then n.shift k else n) }

/-- The held sources of partition p raise once each (R301, R369). -/
def Device.fireHeld (d : Device) (p : Nat) : Device :=
  let mine := d.heldRaises.filter (fun n => decide (d.sourceOwner n = some p))
  foldDev (fun d n => d.raise n) { d with heldRaises := d.heldRaises.filter (fun n => decide (d.sourceOwner n ≠ some p)) } mine

/-- A BLOCK pause begins: engines, timers and slots stand still (R369). -/
def Device.pause (d : Device) (p : Nat) : Device :=
  (d.setRegBit (.celStat p) 3 true).onRec p (fun r => { r with pauseFrom := some d.now })

/-- A BLOCK pause ends: everything of the partition that counts pace periods moves by its length. -/
def Device.unpause (d : Device) (p : Nat) : Device :=
  match (d.part p).recorder.pauseFrom with
  | none => d
  | some k =>
    let n := d.now - k
    let es := d.partEngines p
    let d := (d.setRegBit (.celStat p) 3 false).onRec p (fun r => { r with pauseFrom := none, pausedPeriods := r.pausedPeriods + n })
    let d := { d with
      engines := d.engines.map (fun (x : Nat × Engine) => if x.1 ∈ es then (x.1, x.2.shift n) else x)
      clusters := d.clusters.map (fun (x : Nat × Cluster) => if d.ownsCluster p x.1 then (x.1, x.2.shift n) else x)
      timers := d.timers.map (fun (t : Nat × Nat × Nat) => if d.timerOwner t.1 = some p then (t.1, (t.2.1 + n, t.2.2)) else t)
      inFlight := d.inFlight.map (fun (u : Update) => if u.part = p then u.shift n else u)
      routers := d.routers.map (fun (r : Nat × Router) => (r.1, r.2.shift p n))
      lineDue := d.lineDue.map (fun (x : Nat × Nat × Nat) => if x.2.1 ∈ es then (x.1 + n, x.2) else x)
      parts := d.parts.map (fun (x : Nat × Part) => if x.1 = p then (x.1, { x.2 with cycleAt := x.2.cycleAt.map (· + n) }) else x) }
    d.fireHeld p

/-! ### Starting engines (R32, R160, R213, R483) -/

/-- The entry address of partition p in a mode. -/
def Device.entry (d : Device) (p : Nat) (m : Mode) : Word :=
  match d.image with | some i => Assoc.get 0 i.layout.entries (p, m) | none => 0

/-- What an engine that may run does: in an eject drain past its first epoch, and in a seal, it stands (R502, R505). -/
def Device.startState (d : Device) : RunState := if d.ejectStopped then .held else .running

/-- An engine starts at an address: ring 0, L0, GRD as given, nothing fetched (R160). -/
def Device.startEngine (d : Device) (e : Nat) (a : Word) (guarded : Bool) : Device :=
  let d := d.onEng e (fun x => { x with
    st := { grd := guarded }, step := 0, period := d.now, run := d.startState, lines := [], btb := [], rep := none, resumeRep := 0
    bar := false, wait := none, waitFaults := [], recvFaults := [], pendingFaults := [], flagsNew := 0, lsuLast := 0, lsuNear := none, lsuIo := none
    chLast := 0
    lastRetire := 0 })
  let d := { (d.dropFetches e) with enginesReset := Assoc.erase d.enginesReset e }
  d.transfer e 0 0 a

/-- Is an engine served by a healthy slot of its cluster (R72, R74)? -/
def Device.clusterDown (d : Device) (c : Nat) : Bool :=
  maskBit (d.reg .trlOffcl) (d.reg .trlOffch) c || bit (d.reg (.cfgSpare c)) 11

/-- The mode in which partition p is released, and PAR.MODE.REASON where PACE_LOSS decided it (R32, R33, R488). -/
def Device.releaseMode (d : Device) (p : Nat) : Mode × Bool :=
  let x := d.part p
  if x.escalated ∧ x.widest ≤ 3 then (.recovery, false)
  else match fld (d.reg (.parStart p)) 0 3 with
    | 2 => if d.paceLoss then (.free, true) else (.paced, false)
    | 4 => (.recovery, false)
    | _ => (.free, false)

/-- The mode a Decant ends in takes effect at once: the partition enters Recovery, its vintage closes and its export points gain STALE (R26, R28,
R239). -/
def Device.enterRecovery (d : Device) (p : Nat) : Device := (d.closeVintage p 2).markExportsStale p

/-- The engines of a mode find nothing of partition p in the DRAM cache that is not in the stacks: Paced and Decant do not use it (R176, R178). -/
def Device.leaveCache (d : Device) (p : Nat) (m : Mode) : Device :=
  match m with | .paced | .decant => d.writeBack p | _ => d

/-- PARTITION_RELEASE (R32, R213, R301, R421, R445): the partition leaves its hold. Held forces are applied again after a reset of Core reach, and after
no other hold (R266; log entry 77). -/
def Device.release (d : Device) (p : Nat) : Device :=
  let (m, late) := d.releaseMode p
  let d := (d.dropProbes p).setRegBit .tmxStat (16 + p) false
  let forced := if 4 ≤ (d.part p).widest then (d.part p).forces else []
  let d := d.onPart p (fun x => { x with
    mode := m, widest := 0, escalated := false, cycleAt := none, inCocoon := false, changing := none, scrubEntry := false
    reason := if late then 4 else x.reason
    forceQueue := forced ++ x.forceQueue })
  let d := match m with | .recovery => d.enterRecovery p | _ => d.leaveCache p m
  let d := foldDev (fun d e => d.startEngine e (d.entry p m) true) d (d.partEngines p)
  let d := foldDev (fun d n =>
    (d.setRegBit (.fldLstat n) 1 true).onLane n (fun l => { l with
      waiting := [], lastCycle := [], devflt := [], txCount := [], txSent := [], lastTake := [], lastSend := [], lateAt := [] }))
    d (d.partLanes p)
  let d := d.freshCycle p
  let d := if d.hostOwner = some p then { d with host := { d.host with busyLow := false } } else d
  let d := match m with | .free | .paced => d.wantVintage p | _ => d
  d.fireHeld p

/-! ### Mode changes (R28 to R31, R34, R35) -/

/-- A transition of R28 between released modes, on request. -/
def transitionAllowed : Mode → Mode → Bool
  | .free, .paced => true
  | .paced, .free => true
  | .free, .recovery => true
  | .paced, .recovery => true
  | .recovery, .free => true
  | .recovery, .paced => true
  | .recovery, .decant => true
  | .decant, .recovery => true
  | _, _ => false

/-- The mode of a PAR.MODE.REQ value (R409). -/
def reqMode : Nat → Option Mode
  | 1 => some .free | 2 => some .paced | 3 => some .decant | 4 => some .recovery | _ => none

/-- At a mode change each engine stops issuing, its context ends, and what it waits for is given up (R29, R30). -/
def Device.stopIssue (d : Device) (p : Nat) : Device :=
  foldDev (fun d e =>
    (d.dropFetches e).onEng e (fun x => { x with
      ctx := x.nextCtx, nextCtx := x.nextCtx + 1, heirs := [], res := [], save := x.save.map (fun s => (s.1, { s.2 with ctx := none, shadow := [] }))
      wait := none, waitFaults := [], rep := none, resumeRep := 0, bar := false, redirect := none, msg := [], msgDst := 0
      recvFaults := [], pendingFaults := [], ch := x.ch.filter (fun c => !c.blocking), st := { grd := x.st.grd } }))
    d (d.partEngines p)

/-- Partition p's accepted change begins (R29): vintages close, and one of the new mode is wanted at this very epoch (R31, R357); probes drop,
frames that wait for a take are none of Free mode's or Recovery's (R419), the lanes of a Decant are muted (R380), the engines stop issuing. -/
def Device.beginChange (d : Device) (p : Nat) (m : Mode) : Device :=
  let scrubbed := (d.part p).scrubbing || bit (d.reg .tmxStat) (16 + p)
  let d := (d.dropProbes p).setRegBit .tmxStat (16 + p) false
  let d := match (d.part p).mode, m with
    | _, .recovery => d.enterRecovery p
    | .free, _ => d.closeVintage p 1
    | .paced, _ => d.closeVintage p 1
    | _, _ => d
  let d := if scrubbed then foldDev (fun d e => d.onEng e (fun x => { x with run := d.startState })) d (d.partEngines p) else d
  let d := foldDev (fun d n => (d.setRegBit (.fldLstat n) 2 (decide (m = .decant))).onLane n (fun l => { l with waiting := [] })) d (d.partLanes p)
  let d := (d.stopIssue p).onPart p (fun x => { x with
    changing := some m, changeAt := d.now, forcesDue := x.forceQueue.length, scrubbing := false, scrubEntry := scrubbed })
  match m with | .free | .paced => d.wantVintage p | _ => d

/-- Is a request of engine e in a shared unit alive? -/
def Unit3.serves (u : Unit3) (e : Nat) : Bool :=
  u.queue.any (fun r => decide (r.engine = e) && !r.dead) || u.service.any (fun s => decide (s.req.engine = e) && !s.req.dead)

/-- Have the operations of partition p's engines completed, and every update and force that it issued before the epoch of its change (R29, R264)? -/
def Device.drained (d : Device) (p : Nat) : Bool :=
  decide ((d.part p).forcesDue = 0) &&
  (d.partEngines p).all (fun e =>
    let x := d.eng e
    let c := d.cluster (e / 16)
    x.div.isNone && x.fpuLong.isNone && x.lsu.isEmpty && x.pt.isEmpty && x.ch.isEmpty &&
    !c.kin.serves e && !c.ipl.serves e && !c.bmv.serves e) &&
  (d.inFlight ++ (d.routers.map (fun r => r.2.share ++ r.2.ring)).flatten).all (fun u =>
    decide (u.part ≠ p) || decide ((d.part p).changeAt < u.issued))

/-- The engines of partition p begin at the entry of a mode once what was outstanding is done (R29, R30, R160, R213); the flags of short operations
in flight are set (R109). -/
def Device.enterMode (d : Device) (p : Nat) (m entry : Mode) : Device :=
  let guarded := match m with | .recovery => true | _ => false
  let d := (d.onPart p (fun x => { x with mode := m, changing := none })).leaveCache p m
  foldDev (fun d e =>
    let d := d.onEng e (fun x => { (x.finishShort x.short) with short := [], res := [] })
    let d := d.onCluster (e / 16) (fun c => { c with parked := c.parked.filter (fun k => decide (k.req.engine ≠ e)) })
    if d.engineCovered e then d
    else match entry with
      | .decant => d.onEng e (fun x => { x with run := .held })
      | _ => d.startEngine e (d.entry p entry) guarded) d (d.partEngines p)

/-- The engines of partition p resume in the mode of its change: at the entry of that mode, or, where a scrub had stopped them, at Recovery's (R29,
R509). -/
def Device.resume (d : Device) (p : Nat) (m : Mode) : Device :=
  let entry := match m with | .decant => Mode.decant | _ => if (d.part p).scrubEntry then .recovery else m
  (d.enterMode p m entry).onPart p (fun x => { x with scrubEntry := false })

/-- The vintage a Decant request names (R376). -/
def Device.findVintage (d : Device) (p : Nat) : Option (Nat × Vintage) :=
  let q := fld (d.reg (.celDsrc p)) 0 4
  let num : BitVec 64 := d.reg (.celDvh p) ++ d.reg (.celDvl p)
  let r := (d.part q).recorder
  ((r.closed ++ r.open_.toList).find? (fun v => decide (v.number = num))).map (fun v => (q, v))

/-- Does a relation hold between the members of every pair of a list, in the one component exactly when in the other? -/
def agreeing {α β : Type} (r : α → α → Bool) (s : β → β → Bool) (xs : List (α × β)) : Bool :=
  xs.all (fun x => xs.all (fun y => r x.1 y.1 == s x.2 y.2))

/-- The routers of one shape with those of the other that they map to: home routers as their blocks do, one that neither maps to itself, the rest in
ascending order (R36, R377; log entry 101). -/
def routerPairs (mine recorded : List Nat) : List (Nat × Nat) :=
  let known := (mine.zip recorded).dedup
  let a := [0, 1, 2, 3].filter (fun r => decide (r ∉ known.map (·.1)))
  let b := [0, 1, 2, 3].filter (fun r => decide (r ∉ known.map (·.2)))
  known ++ (a.filter (fun r => decide (r ∈ b))).map (fun r => (r, r)) ++
    (a.filter (fun r => decide (r ∉ b))).zip (b.filter (fun r => decide (r ∉ a)))

/-- Does the shape of a partition agree with a recorded one (R36, R377)? Clusters in ascending order are mapped one to one, point blocks in the order
of the range table, and routers as their blocks are. -/
def Shape.agrees (a b : Shape) : Bool :=
  let pairs := a.clusters.zip b.clusters
  let home := fun (x : (Nat × Nat × Bool × List Nat) × (Nat × Nat × Bool × List Nat)) =>
    (a.blocks.zip b.blocks).all (fun k => decide (x.1.1 / 16 = k.1) == decide (x.2.1 / 16 = k.2))
  decide (a.clusters.length = b.clusters.length ∧ a.pages = b.pages ∧ a.blocks.length = b.blocks.length) &&
  pairs.all (fun x => decide (x.1.1 % 2 = x.2.1 % 2) && decide (x.1.2 = x.2.2) && home x) &&
  agreeing (fun x y => decide (x.1 / 16 = y.1 / 16)) (fun x y => decide (x.1 / 16 = y.1 / 16)) pairs &&
  agreeing (fun x y => decide (x = y)) (fun x y => decide (x = y)) (a.blocks.zip b.blocks) &&
  (routerPairs a.blocks b.blocks).all (fun x => decide (a.shares.getD x.1 0 = b.shares.getD x.2 0 ∧ a.quotas.getD x.1 0 = b.quotas.getD x.2 0))

/-- May partition p decant a checkpoint of partition q: its own, or, as the shadow that the layout names, one of a shape that agrees, with a staging
quota of at least 512 MiB (R36, R377)? -/
def Device.shapeAgrees (d : Device) (p q : Nat) (s : Snapshot) : Bool :=
  if p = q then (d.shapeOf p).agrees s.shape else
  (match d.image with | some i => decide ((p, q) ∈ i.layout.shadows) | none => false) && (d.shapeOf p).agrees s.shape &&
  decide (8 ≤ fld (d.reg (.celQuota p)) 0 8)

/-- Why a pending request is refused at its admission epoch (R28, R34, R376), as a REASON of R409; 0 where it is accepted. -/
def Device.refusal (d : Device) (p : Nat) (m : Mode) : Nat :=
  match m with
  | .paced =>
    let l := match d.image with | some i => i.layout | none => {}
    if d.unfilled.any (fun g => d.ownsPage p g) then 2
    else if p ∉ l.codeInSram then 3
    else if d.paceLoss then 4
    else if (d.homeRouters p).any (fun r => !(l.shareSlots.any (fun s => decide (s.1 = r ∧ s.2.1 = p)))) then 0xB
    else 0
  | .decant =>
    if !d.grade.hasCellar then 5
    else match d.findVintage p with
      | none => 6
      | some (q, v) =>
        match v.checkpoints[fld (d.reg (.celDsrc p)) 8 20]? with
        | none => 6
        | some s => if !v.paced || !bit (d.reg .celKstat) q then 6 else if !d.shapeAgrees p q s then 7 else 0
  | _ => 0

/-- The report of a Decant that ends, or a request refused under R376 (R382, R385). -/
def Device.report (d : Device) (p end_ kind vstep : Nat) (engine : Option Nat) (lane : Option (Nat × Nat)) : Device :=
  let d := d.setReg (.celDstat p) (word (end_ * 16 + kind))
  let d := (d.setReg (.celDvsl p) (word vstep)).setReg (.celDvsh p) (word (vstep / 2 ^ 32))
  let e := match engine with | some k => k + 1024 | none => 0
  let l := match lane with | some (n, f) => n * 2 ^ 12 + 2 ^ 18 + f * 2 ^ 19 | none => 0
  d.setReg (.celDloc p) (word (e + l))

/-- The ticks of the TIM of a recording when its vintage opened: the least whose NS is the one its OPEN record names (R328). -/
def Vintage.openTick (v : Vintage) : Nat := (v.topen * 25 + 31) / 32

/-- The TICK that a PTP record leaves (R331, R332, R353): CMD 2 set it, CMD 3 moved it by a signed offset. -/
def Record.tickAfter (r : Record) (tick : Nat) : Nat :=
  let v := (r.w 2).toNat + 2 ^ 32 * (r.w 3).toNat
  match (r.w 0).toNat with
  | 2 => (v * 25 + 31) / 32
  | 3 => if v < 2 ^ 63 then tick + v * 25 / 32 else tick + 2 ^ 64 - (2 ^ 64 - v) * 25 / 32
  | _ => tick

/-- TICK and S of a recording at the start of step k, before its own records act (R328, R380, R383). -/
def Vintage.timeAt (v : Vintage) (k : Nat) : Nat × Nat :=
  let run := (v.records.filter (fun x => decide (x.vstep < k))).foldl (fun (a : Nat × Nat × Nat) x =>
    let tick := a.1 + a.2.1 * (x.vstep - a.2.2)
    if x.type = recPACE then (tick, (x.w 0).toNat, x.vstep)
    else (if x.type = recPTP then x.tickAfter tick else tick, a.2.1, x.vstep)) (v.openTick, v.stretch, 0)
  (run.1 + run.2.1 * (k - run.2.2), run.2.1)

/-- A Decant takes effect (R376, R379, R385): the report clears, and the run waits for its checkpoint; its casks are still to be read in (R383). -/
def Device.startDecant (d : Device) (p : Nat) : Device :=
  match d.findVintage p with
  | none => d
  | some (q, v) =>
    let idx := fld (d.reg (.celDsrc p)) 8 20
    let base := (v.checkpoints[idx]?.map (·.vstep)).getD 0
    let dend := (d.reg (.celDendl p)).toNat + 2 ^ 32 * (d.reg (.celDendh p)).toNat
    let used := [recFRAME_IN, recFRAME_LATE, recETH_IN, recLOAD, recIMPORT_RD, recIMPORT_DLV, recEVENT, recPTP, recCYCLE, recDIGEST,
      recPACE, recHWSTAT, recFORCE]
    let d := d.report p 0 0 0 none none
    d.onPart p (fun x => { x with decant := some {
      vintage := v, source := q, base := base, startAt := none, endStep := dend, loaded := false, found := none
      tick := (v.timeAt base).1, stretch := (v.timeAt base).2
      left := [], unread := v.records.filter (fun r => decide (base ≤ r.vstep) && used.contains r.type) } })

/-- A change whose operations and updates have completed resumes the engines (R29); in a Decant, the recorded change does. -/
def Device.tryResume (d : Device) (p : Nat) : Device :=
  match (d.part p).changing with
  | some m => if d.drained p then d.resume p m else d
  | none =>
    match d.decantOf p with
    | some r =>
      if r.draining && r.startAt.isSome && d.drained p then
        (d.enterMode p .decant .paced).onPart p (fun x => { x with decant := some { r with draining := false } })
      else d
    | none => d

/-! ### Decant: load and end (R377 to R383) -/

/-- Is a physical address in a memory of partition p that a checkpoint holds (R361)? -/
def Device.inPartMemory (d : Device) (p a : Nat) : Bool :=
  match regionOf a with
  | some (.scratch e) => d.ownsCluster p (e / 16)
  | some (.csram c) => d.ownsCluster p c
  | some (.xram c) => d.ownsCluster p c
  | some (.dram _) => d.ownsPage p ((a - 0x1000000000) / 0x1000000)
  | _ => false

/-- A checkpoint stands in the partition's memories, as it and those before it hold them, and in its state, in its own numbers (R361, R362, R378,
R379); `run` starts the engines that ran when it was taken. GRD is the checkpoint's (R213, R361; log entry 73). -/
def Device.loadSnapshot (d : Device) (p q : Nat) (s : Snapshot) (cells : List Host.Cell) (run : Bool) : Device :=
  let k := d.now - s.taken
  let me := fun (e : Nat) => d.mapEngine q p e
  let cl := fun (c : Nat) => d.mapEngine q p (16 * c) / 16
  let mp := fun (pt : Nat) => d.mapPoint q p pt
  let req := fun (r : Request) => { r with
    engine := me r.engine, stored := r.stored.map (d.mapAddr q p), old := r.old.map (fun o => (d.mapAddr q p o.1, o.2)) }
  let unit := fun (u : Unit3) => { u with queue := u.queue.map req, service := u.service.map (fun v => { v with req := req v.req }) }
  let kept := d.mem.filter (fun c => !d.inPartMemory p c.1)
  let send := fun (c : ChRun) => if c.recv then c else { c with dst := setFld c.dst 0 10 (me (fld c.dst 0 10)) }
  let es := s.engines.map (fun x =>
    let y := x.2.shift k
    (me x.1, { y with ch := y.ch.map send, run := if run then y.run else .held }))
  let cs := s.clusters.map (fun x =>
    let c := x.2.shift k
    (cl x.1, { c with kin := unit c.kin, ipl := unit c.ipl, bmv := unit c.bmv, parked := c.parked.map (fun g => { g with req := req g.req }) }))
  let lanes := mapList (d.partLanes q) (d.partLanes p)
  let origin := fun (o : Origin) => match o with | .engine e => .engine (me e) | .scatter n f i t b => .scatter (lanes n) f i t b | o => o
  let ups := s.updates.map (fun u => { (u.shift k) with point := mp u.point, part := p, origin := origin u.origin })
  let d := d.dropSubs (fun x => decide (d.engPart x.engine = some p))
  let d : Device := { d with
    mem := cells.foldl (fun m c => Cells.write physBlank m (d.mapAddr q p c.1) c.2) kept
    engines := d.engines.filter (fun x => decide (d.engPart x.1 ≠ some p)) ++ es
    clusters := d.clusters.filter (fun x => !d.ownsCluster p x.1) ++ cs
    points := d.points.filter (fun x => decide ((d.pointRange x.1).map (·.2) ≠ some p)) ++ s.points.map (fun x => (mp x.1, x.2))
    staleRanges := d.staleRanges.filter (fun x => decide ((d.pointRange x.1).map (·.2) ≠ some p)) ++
      s.stale.map (fun x => (mp x.1, mp x.1 + (x.2 - x.1)))
    subs := d.subs ++ s.subs.map (fun x => { x with point := mp x.point, engine := me x.engine })
    inFlight := d.inFlight.filter (fun u => decide (u.part ≠ p)) ++ ups }
  let d := foldDev (fun d (x : Subscription) =>
    match d.pointRange x.point with
    | some (r, _) => d.setRegFld (.ptrSubuse p r) 0 21 (fld (d.reg (.ptrSubuse p r)) 0 21 + 1)
    | none => d) d (s.subs.map (fun x => { x with point := mp x.point }))
  let d := foldDev (fun d (x : (Nat × Nat) × Word) => d.setReg (.evrEnt (me x.1.1) x.1.2) x.2) d s.ents
  let d := foldDev (fun d (x : Nat × Word × Word × Option (Nat × Nat)) =>
    let d := (d.setReg (.evrTctl x.1) ((d.reg (.evrTctl x.1) &&& 0xF8000000) ||| (x.2.1 &&& 3))).setReg (.evrTper x.1) x.2.2.1
    { d with timers := match x.2.2.2 with | some t => Assoc.put d.timers x.1 (t.1 + k, t.2) | none => Assoc.erase d.timers x.1 })
    d ((d.ownedTimers p).zip s.timers)
  let d := foldDev (fun d (x : Nat × Word) =>
    d.setReg (.evrRoute x.1) ((d.reg (.evrRoute x.1) &&& 0xF8000000) ||| (setFld x.2 0 10 (me (fld x.2 0 10)) &&& 0x7FC03FF)))
    d ((d.ownedSources p).zip s.routes)
  let pairs := (d.partLanes q).zip (d.partLanes p)
  let d := foldDev (fun d (x : Nat × Nat) =>
    match s.lanes.find? (fun l => decide (l.1 = x.1)) with
    | some l => d.onLane x.2 (fun y => { y with txCount := l.2.txCount, txSent := l.2.txSent })
    | none => d) d pairs
  (d.setReg (.ptrFdrop p) s.fdrop).onPart p (fun x => { x with
    forces := s.forces.map (fun f => (mp f.1, f.2)), forceQueue := [], forcesDue := 0, changeAt := d.now
    cycleAt := s.cycle.map (fun c => d.now - c) })

/-- The checkpoint of a Decant, and the memories that it and those before it hold (R362). -/
def DecantRun.checkpoint (r : DecantRun) : Option (Snapshot × List Host.Cell) :=
  (r.vintage.checkpoints.find? (fun s => decide (s.vstep = r.base))).map (fun s =>
    (s, memoryAfter (r.vintage.checkpoints.filter (fun x => decide (x.vstep ≤ r.base)))))

/-- DECANT_LOAD_COMPLETE (R379). -/
def Device.decantLoad (d : Device) (p : Nat) : Device :=
  match d.decantOf p with
  | none => d
  | some r =>
    if r.loaded || (d.part p).changing.isSome then d else
    match r.checkpoint with
    | none => d
    | some (s, m) => (d.loadSnapshot p r.source s m false).onPart p (fun x => { x with decant := some { r with loaded := true } })

/-- A loaded Decant starts its engines at an admission epoch, at the checkpoint's VSTEP (R379); a checkpoint of the epoch of a change of mode stands
before that change, which begins now (R31, R360). -/
def Device.runDecant (d : Device) (p : Nat) : Device :=
  match d.decantOf p with
  | none => d
  | some r =>
    if !r.loaded || r.startAt.isSome || d.ejectStopped then d else
    match r.checkpoint with
    | none => d
    | some (s, m) =>
      let d := (d.loadSnapshot p r.source s m true).onPart p (fun x => { x with
        decant := some { r with
          startAt := some d.now, draining := s.changing.isSome
          rxFirst := (s.lanes.filter (fun l => l.2.rxFirst)).map (fun l => mapList (d.partLanes r.source) (d.partLanes p) l.1) } })
      if s.changing.isSome then d.stopIssue p else d

/-- The records that a step of partition p's Decant has not consumed are divergences of that step: a fault not raised where an HWSTAT record names a fault
(R353, R382). -/
def Device.unusedRecords (d : Device) (p : Nat) : Device :=
  match d.decantOf p with
  | none => d
  | some r =>
    if r.startAt.isNone then d else
    foldDev (fun d (x : Record) =>
      let lane := if 0x400 ≤ x.src ∧ x.src < 0x440 then some (x.src - 0x400, fld (x.w 0) 0 8) else none
      let who := if x.src < 0x400 then some x.src else none
      if x.type = recDIGEST then
        let w := (d.lastWriter (d.placeLane p (x.src - 0x400)) (fld (x.w 0) 0 8) d.now).map (fun e => d.seenEngine e e)
        d.diverge p 5 w lane
      else d.diverge p (if x.type = recHWSTAT ∧ fld (x.w 0) 0 8 = 2 then 6 else 3) who lane) d
      (r.left.filter (fun x => decide (x.vstep = r.vstep d.now)))

/-- Decant of partition p ends with a report, a divergence before an END reason, and the partition enters Recovery at once (R28, R382). -/
def Device.endDecant (d : Device) (p end_ : Nat) : Device :=
  match d.decantOf p with
  | none => d
  | some r =>
    let d := match r.found with
      | some (k, e, l) => d.report p 3 k r.foundAt e l
      | none => d.report p end_ 0 (r.vstep d.now) none none
    let d := d.beginChange p .recovery
    let d := foldDev (fun d e => d.onEng e (fun x => { x with run := d.startState })) d (d.partEngines p)
    d.onPart p (fun x => { x with mode := .recovery, decant := none, pending := none })

/-- A mode request to Recovery is accepted in a Decant, at once (R28, R34, R382); one while its change still drains replaces that change, and ends a
Decant that has run no step (R385). -/
def Device.leaveDecant (d : Device) (p : Nat) : Device :=
  let d := if (d.decantOf p).isSome then d.endDecant p 4
    else ((d.report p 4 0 0 none none).beginChange p .recovery).onPart p (fun x => { x with decant := none, pending := none })
  d.onPart p (fun x => { x with reason := 0 })

/-- A pending request is judged at the admission epoch (R34), once the change before it has ended. -/
def Device.judge (d : Device) (p : Nat) : Device :=
  match (d.part p).pending with
  | none => d
  | some m =>
    if (d.part p).changing.isSome then d
    else if (d.part p).mode = .decant then d.leaveDecant p
    else
    let d := d.onPart p (fun x => { x with pending := none })
    let why := d.refusal p m
    if why ≠ 0 then
      let d := d.onPart p (fun x => { x with reason := why })
      let free := match d.findVintage p with | some (_, v) => !v.paced | none => false
      if why = 6 && free then d.setRegFld (.celDstat p) 4 4 7 else d
    else
      let d := d.onPart p (fun x => { x with reason := 0 })
      let d := d.beginChange p m
      match m with | .decant => d.startDecant p | _ => d

/-- DECANT_END (R382, R383). -/
def Device.decantEnd (d : Device) (p : Nat) (why : DecantCause) : Device :=
  match d.decantOf p with
  | none => d
  | some r =>
    let v := r.vstep d.now
    let runs := r.startAt.isSome
    let last := if r.vintage.trunc then r.vintage.lastV else (r.vintage.records.getLast?.map (·.vstep)).getD 0
    match why with
    | .vintageEnd => if runs ∧ last ≤ v ∧ (r.left.isEmpty ∧ r.unread.isEmpty ∨ last < v) then d.endDecant p 1 else d
    | .endStep => if runs ∧ r.endStep ≠ 0 ∧ r.base + r.endStep ≤ v then d.endDecant p 2 else d
    | .request => d.leaveDecant p
    | .starved => if runs && r.starved d.now then d.endDecant p 5 else d
    | .tag => d.endDecant p 6
    | .diverged => if r.found.isSome then d.endDecant p 3 else d

/-- MODE_REQUEST (R34, R35): the judgement at the write. A held partition's request is refused as HELD before anything else is judged, a COCOON
request too (log entry 29). -/
def Device.modeRequest (d : Device) (p : Nat) (req : BitVec 3) : Device :=
  let refuse := fun (why : Nat) => d.onPart p (fun x => { x with reason := why })
  if !d.valid p then d
  else match req.toNat with
    | 0 => d
    | 6 => d
    | 7 => d
    | n =>
      if d.heldNow p then refuse 0xA
      else match reqMode n with
        | none => refuse 1
        | some m =>
          if !transitionAllowed (d.modeNow p) m then refuse 1
          else if d.modeNow p = .decant then d.leaveDecant p
          else d.onPart p (fun x => { x with pending := some m, reason := if x.pending.isSome then 9 else x.reason })

/-! ### Units back in service (R402, R403) -/

/-- The bit of TRL.OFFx of a unit. -/
def Device.setOffline (d : Device) (cls : UnitClass) (u : Nat) (b : Bool) : Device :=
  match cls with
  | .cluster => if u < 32 then d.setRegBit .trlOffcl u b else d.setRegBit .trlOffch (u - 32) b
  | .fieldLane => if u < 32 then d.setRegBit .trlOfffl u b else d.setRegBit .trlOfffh (u - 32) b
  | .linkLane => d.setRegBit .trlOffx (4 + u) b
  | .dramStack => d.setRegBit .trlOffx u b

/-- Is a unit out of service? -/
def Device.isOffline (d : Device) (cls : UnitClass) (u : Nat) : Bool :=
  match cls with
  | .cluster => maskBit (d.reg .trlOffcl) (d.reg .trlOffch) u
  | .fieldLane => maskBit (d.reg .trlOfffl) (d.reg .trlOfffh) u
  | .linkLane => bit (d.reg .trlOffx) (4 + u)
  | .dramStack => bit (d.reg .trlOffx) u

/-- TRL.SVCST.STATE follows the unit of the last command (R406). -/
def Device.svcState (d : Device) (cls : UnitClass) (u n : Nat) : Device :=
  let c := match cls with | .cluster => 0 | .fieldLane => 1 | .linkLane => 2 | .dramStack => 3
  if fld (d.reg .trlSvcst) 0 8 = c * 64 + u then d.setRegFld .trlSvcst 8 3 n else d

/-- UNIT_ADMIT (R403): the offline bit clears, held partitions may be released, a lane waits for its frame boundary. -/
def Device.admitUnit (d : Device) (r : Returning) : Device :=
  let d := (d.setOffline r.cls r.unit false).svcState r.cls r.unit 5
  match r.cls with
  | .cluster =>
    let d := d.setRegBit (.cfgSpare r.unit) 11 false
    match d.clusterOwner r.unit with
    | some p => d.onPart p (fun x => { x with heldCluster := (d.partClusters p).any d.clusterDown })
    | none => d
  | .dramStack =>
    if r.unit = d.grade.stacks - 1 then { d with parts := d.parts.map (fun x => (x.1, { x.2 with heldStack := false })) } else d
  | .fieldLane => d.onLane r.unit (fun l => { l with reentry := true })
  | .linkLane => d

/-- Every returning unit whose self-test passed is admitted (R402, R403). -/
def Device.admitUnits (d : Device) : Device :=
  let ready := d.returning.filter (fun r => decide (r.state = .waitEpoch))
  foldDev (fun d r => d.admitUnit r) { d with returning := d.returning.filter (fun r => decide (r.state ≠ .waitEpoch)) } ready

/-! ### Watchdogs at an epoch (R408, R489) -/

/-- The epochs of a watchdog register; 0 acts as 1. -/
def wdPeriod (w : Word) : Nat := max 1 (fld w 0 16)

/-- One epoch passes for the watchdogs: the pre-expiry sources. -/
def Device.watchdogs (d : Device) : Device :=
  let w := d.reg .rstMwdctl
  let d := if bit w 31 then
      let d := { d with mwdCount := d.mwdCount + 1 }
      if wdPeriod w - d.mwdCount ≤ wdPeriod w / 8 ∧ !d.mwdPre then ({ d with mwdPre := true }).raise 0xA8 else d
    else d
  foldDev (fun d p =>
    let w := d.reg (.parWdctl p)
    if bit w 31 then
      let d := d.onPart p (fun x => { x with wdCount := x.wdCount + 1 })
      if wdPeriod w - (d.part p).wdCount ≤ wdPeriod w / 8 ∧ !(d.part p).wdPre then
        (d.onPart p (fun x => { x with wdPre := true })).raise (0xA9 + p)
      else d
    else d) d partNumbers

/-! ### The admission epoch (R310) -/

/-- Would partition p start in Paced with a page whose zero-fill has not completed: its release waits for that (R33, R189; log entry 85)? -/
def Device.fillPending (d : Device) (p : Nat) : Bool :=
  match (d.releaseMode p).1 with | .paced => d.unfilled.any (fun g => d.ownsPage p g) | _ => false

/-- Has stage 9 of Configure ended: every segment is read, every station has answered or is absent (R422, R451, R478)? -/
def Device.scanned (d : Device) : Bool := d.scanning.isEmpty && d.lanes.all (fun l => l.2.identPending.isEmpty)

/-- Stage 10 of Configure begins once stage 9 has ended (R478). -/
def Device.beginRelease (d : Device) : Device := if d.stage.isSome && d.scanned then { d with stage := none } else d

/-- May partition p be released now (R24, R33, R395, R478, R487)? -/
def Device.mayRelease (d : Device) (p : Nat) : Bool :=
  let x := d.part p
  d.valid p && !d.released p && !x.inCocoon && decide (d.phase = .running) && d.stage.isNone && !x.fence && !x.heldCluster && !x.heldStack &&
  !d.partCovered p && !d.fillPending p

/-- A Paced partition's engines that a narrow reset covered restart at the epoch (R483). -/
def Device.restartEngines (d : Device) (p : Nat) : Device :=
  let back := (d.partEngines p).filter (fun e => d.enginesReset.any (fun x => decide (x.1 = e)) && !d.engineCovered e)
  let d := foldDev (fun d e => d.startEngine e (d.entry p (d.part p).mode) true) d back
  if back.isEmpty then d else match (d.part p).mode with | .paced => d.wantVintage p | _ => d

/-- What the epoch does to one partition: release; judgement; recording (R357, R359, R363, R366, R369). -/
def Device.epochPart (d : Device) (p : Nat) : Device :=
  if !d.valid p || d.ejectStopped then d else
  let d := if d.mayRelease p then d.release p else d
  if !d.released p then d else
  let d := d.judge p
  let d := d.runDecant p
  let d := if d.pacedPart p then d.restartEngines p else d
  let low := decide ((d.part p).recorder.bytes < d.quota p / 2)
  let high := d.aboveHigh p
  let d := if d.pausedPart p then (if low then d.unpause p else d)
    else if decide (d.policy p = 2) && high && (d.part p).recorder.open_.isSome then d.pause p else d
  if d.pausedPart p then d
  else match (d.part p).recorder.open_ with
    | some v => if v.lastCkpt + 7812500000 ≤ d.vstep p then d.checkpoint p false else d
    | none => d.openVintage p

/-- At the first epoch of an eject drain the vintages close, the exports gain STALE, the links announce the drain and the engines
stop (R438, R502). -/
def Device.epochEject (d : Device) : Device :=
  match d.phase with
  | .ejectDrain =>
    if d.ejectStopped then d else
    let d := foldDev (fun d p => if d.released p then (d.closeVintage p 8).markExportsStale p else d) { d with ejectStopped := true } partNumbers
    let d := foldDev (fun d m => if bit (d.reg (.lnkStat m)) 0 then d.onLink m (fun l => { l with outbox := l.outbox ++ [.drain] }) else d) d
      (List.range 16)
    { d with engines := d.engines.map (fun (x : Nat × Engine) => (x.1, { x.2 with run := .held })) }
  | _ => d

/-- A stack out of service sends the Paced and Decant partitions with pages on it to Recovery (R401). A mode request that is pending is dropped unjudged, and
REASON stays (log entry 76). -/
def Device.stackLoss (d : Device) (p : Nat) : Device :=
  let hit := [0, 1, 2, 3].any (fun s => d.isOffline .dramStack s && (d.pageList p).any (fun g => decide (g / 1024 = s)))
  if hit && d.pacedPart p && (d.part p).changing.isNone then
    match (d.part p).mode with
    | .decant => d.endDecant p 4
    | _ => (d.beginChange p .recovery).onPart p (fun x => { x with pending := none })
  else d

/-- ADMISSION_EPOCH (R310): the epoch that has come takes effect, once. -/
def Device.admissionEpoch (d : Device) : Device :=
  if d.now < d.pace.epochNext * 65536 then d else
  let d := { d with pace := { d.pace with epochNext := d.now / 65536 + 1 } }
  let d := d.admitUnits.beginRelease
  let d := d.epochEject
  let d := d.watchdogs
  let d := foldDev (fun d p => d.stackLoss p) d partNumbers
  foldDev (fun d p => d.epochPart p) d partNumbers

/-! ### Cocoon (R37, R38, R191, R192, R495, R499) -/

/-- COCOON_REQUEST (R28, R34, R35, R499). -/
def Device.cocoonRequest (d : Device) : Device :=
  match d.phase with
  | .running =>
    if d.stage.isSome then d else
    let busy := partNumbers.any (fun p => d.valid p && d.released p &&
      !d.partCovered p && (d.pacedPart p || (d.part p).pending.isSome || (d.part p).changing.isSome))
    if busy then d.setRegBit .pwrCstat 1 true
    else
      let d := foldDev (fun d p => if d.released p then d.closeVintage p 7 else d) d partNumbers
      ({ d with phase := .cocoonDrain }).setRegBit .pwrCstat 0 true
  | _ => d

/-- Stop every engine: registers and results are lost, what they asked of targets too; numbers of contexts are not used again. -/
def Device.loseEngines (d : Device) : Device :=
  { d with engines := d.engines.map (fun x => (x.1, { nextCtx := x.2.nextCtx + 1 })), enginesReset := [], clusters := [], targets := [] }

/-- Set the state of a range of domains. -/
def Device.setDomains (d : Device) (lo n : Nat) (st : DomState) : Device :=
  foldDev (fun d k => { d with domains := Assoc.put d.domains (lo + k) st }) d (List.range n)

/-- Does a domain exist on the grade (R495)? -/
def Device.domainExists (d : Device) (n : Nat) : Bool := decide (n < 84) && !(Reg.pwrDom n).absent d.grade

/-- The state of a domain. -/
def Device.domain (d : Device) (n : Nat) : DomState := Assoc.get .off d.domains n

/-- Is what a domain feeds out of service or unused, so that it is off (R495)? -/
def Device.unfed (d : Device) (n : Nat) : Bool :=
  if n < 64 then d.isOffline .cluster n
  else if n < 68 then false
  else if n < 72 then d.isOffline .dramStack (n - 68)
  else if n < 80 then
    (List.range 8).all (fun i => !bit (d.reg (.fldLctl (8 * (n - 72) + i))) 0) || (List.range 8).all (fun i => d.isOffline .fieldLane (8 * (n - 72) + i))
  else if n < 82 then [0, 1].all (fun s => decide (s = 1 ∧ bit (d.reg (.stoPctl (n - 80))) 2 = false) || bit (d.reg (.stoPstat (n - 80) s)) 7)
  else if n = 82 then (List.range d.grade.linkLanes).all (fun m => !bit (d.reg (.lnkCtl m)) 0)
  else false

/-- The powered domains of a range that `which` names take a state; one that is off or in FAULT keeps it (R495, R498). -/
def Device.moveDomains (d : Device) (lo n : Nat) (which : Nat → Bool) (st : DomState) : Device :=
  foldDev (fun d k => match d.domain (lo + k) with
    | .off | .fault => d
    | _ => if which (lo + k) then d.setDomains (lo + k) 1 st else d) d (List.range n)

/-- The regulators of the domains of a range that stand off or at retention start, where what they feed is in service (R495, R496). -/
def Device.rampDomains (d : Device) (lo n : Nat) : Device :=
  foldDev (fun d k => match d.domain (lo + k) with
    | .off | .retain => if d.domainExists (lo + k) && !d.unfed (lo + k) then d.setDomains (lo + k) 1 .ramp else d
    | _ => d) d (List.range n)

/-- A lane whose group stays powered in Cocoon. -/
def Device.wakeLane (d : Device) (n : Nat) : Bool := bit (d.reg (.fldLctl n)) 7

/-- COCOON_ENTER (R37, R191, R495): the drain ends once every cask is committed. -/
def Device.cocoonEnter (d : Device) : Device :=
  if d.phase ≠ .cocoonDrain ∨ partNumbers.any (fun p => !(d.part p).recorder.casks.isEmpty) then d else
  let d := foldDev (fun d p => (((d.closeVintage p 7).writeBack p).dropProbes p).setRegBit .tmxStat (16 + p) false) d partNumbers
  let d := d.loseEngines
  let lost := fun (a : Nat) => match regionOf a with | some (.scratch _) => true | some (.dram _) => true | some .points => true | _ => false
  let d := { d with
    cache := [], phase := .cocoon, points := [], staleRanges := [], subs := [], routers := [], inFlight := [], namespaces := []
    lanes := d.lanes.map (fun (l : Nat × Lane) => (l.1, { l.2 with waiting := [], identPending := [], quiet := !d.wakeLane l.1 }))
    mem := d.mem.filter (fun c => !lost c.1)
    marks := d.marks.filter (fun c => !lost c.1)
    parts := d.parts.map (fun x => (x.1, if x.2.mode = .held then x.2 else { x.2 with mode := .held, inCocoon := true, scrubbing := false })) }
  let d := foldDev (fun d n => if d.wakeLane n then d else (d.setRegBit (.fldLstat n) 0 false).setRegBit (.fldLstat n) 4 false) d
    (List.range d.grade.fieldLanes)
  let d := foldDev (fun d m => d.setReg (.lnkStat m) 0) d (List.range 16)
  let d := foldDev (fun d p => foldDev (fun d r => d.setReg (.ptrSubuse p r) 0) d [0, 1, 2, 3]) d partNumbers
  let d := foldDev (fun d k => d.setReg (.stoPstat (k / 2) (k % 2)) 0) d [0, 1, 2, 3]
  let all := fun (_ : Nat) => true
  let asleep := fun (n : Nat) => !(List.range 8).any (fun i => d.wakeLane (8 * (n - 72) + i))
  let d := ((((d.moveDomains 0 64 all .retain).moveDomains 64 8 all .off).moveDomains 72 8 asleep .off).moveDomains 80 3 all .off)
  d.setRegBit .pwrCstat 0 false

/-- CSTAT.WAKE (R514). -/
def wakeCode : WakeCause → Nat | .laneFrame => 1 | .chipSelect => 2 | .alarm => 3 | .duringDrain => 4

/-- Is an address in a memory that Cocoon retains (R191)? -/
def retainedAddr (a : Nat) : Bool := match regionOf a with | some (.csram _) => true | some (.xram _) => true | _ => false

/-- The scrub of a wake (R192): errors struck in retention stand beside those from before; single-bit errors of the retained memories are corrected
and counted, uncorrectable ones counted and left. -/
def Device.wakeScrub (d : Device) (struck : List (Nat × Upset)) : Device :=
  let marks := struck.foldl (fun (m : Assoc Nat Upset) (x : Nat × Upset) =>
    if retainedAddr x.1 && decide (Assoc.get .single m (x.1 / 8 * 8) = .single) then Assoc.put m (x.1 / 8 * 8) x.2 else m) d.marks
  let mine := marks.filter (fun (m : Nat × Upset) => retainedAddr m.1)
  let single := (mine.filter (fun (m : Nat × Upset) => decide (m.2 = .single))).length
  let d := foldDev (fun d _ => d.bump .cfgEcccnt 0 16) d (List.range single)
  let d := foldDev (fun d _ => d.bump .cfgEcccnt 16 16) d (List.range (mine.length - single))
  { d with marks := marks.filter (fun (m : Nat × Upset) => !(retainedAddr m.1 && decide (m.2 = .single))) }

/-- WAKE (R38, R191, R192, R445): the memories are scrubbed, filled and cleared; a wake during the drain ends the drain. -/
def Device.wake (d : Device) (why : WakeCause) (struck : List (Nat × Upset)) : Device :=
  let busy := fun (d : Device) => { d with host := { d.host with busyLow := true } }
  match d.phase with
  | .cocoonDrain =>
    let d := foldDev (fun d p => if d.released p then
      ((d.dropProbes p).setRegBit .tmxStat (16 + p) false).onPart p (fun x => { x with mode := .held, inCocoon := true, scrubbing := false })
      else d) d partNumbers
    busy ((({ d.loseEngines with phase := .waking }).setRegBit .pwrCstat 0 false).setRegFld .pwrCstat 4 3 4)
  | .cocoon =>
    if why = .duringDrain then d else
    let d := if why = .chipSelect then d.raise 0xA6 else d
    let d := { d.wakeScrub struck with phase := .waking, unfilled := [] }
    busy ((d.rampDomains 0 83).setRegFld .pwrCstat 4 3 (wakeCode why))
  | _ => d

/-- COCOON_ALARM (R38, R499). -/
def Device.cocoonAlarm (d : Device) : Device :=
  if d.phase = .cocoon ∧ fld (d.reg .pwrCctl) 16 16 ≠ 0 then d.wake .alarm [] else d

/-- ENGINE_RESTART (R28, R33, R35, R192, R445): 150 µs after the wake the partitions restart in their start modes; the host port goes on holding BUSY#
while the partition that holds it does not. -/
def Device.engineRestart (d : Device) : Device :=
  if d.phase ≠ .waking then d else
  let d := { d with phase := .running, host := { d.host with busyLow := d.hostOwner.isSome }
                    lanes := d.lanes.map (fun (l : Nat × Lane) => (l.1, { l.2 with quiet := false })) }
  let d := d.moveDomains 0 72 (fun _ => true) .on
  foldDev (fun d p =>
    let x := d.part p
    if !x.inCocoon then d
    else if x.heldCluster || x.heldStack || x.fence || d.partCovered p || d.fillPending p then d.onPart p (fun x => { x with inCocoon := false })
    else d.release p) d partNumbers

/-- ADMISSION_EPOCH (R310). -/
def execAdmissionEpoch (s : State) : Host.Outcome State Fault Refusal := .next (s.onDev (fun d => d.admissionEpoch))
/-- MODE_REQUEST (R34). -/
def execModeRequest (p : Nat) (req : BitVec 3) (s : State) : Host.Outcome State Fault Refusal :=
  .next (s.onDev (fun d => d.modeRequest p req))
/-- DECANT_END (R382). -/
def execDecantEnd (p : Nat) (why : DecantCause) (s : State) : Host.Outcome State Fault Refusal :=
  .next (s.onDev (fun d => d.decantEnd p why))
/-- DECANT_LOAD_COMPLETE (R379). -/
def execDecantLoadComplete (p : Nat) (s : State) : Host.Outcome State Fault Refusal := .next (s.onDev (fun d => d.decantLoad p))
/-- COCOON_REQUEST (R499). -/
def execCocoonRequest (s : State) : Host.Outcome State Fault Refusal := .next (s.onDev (fun d => d.cocoonRequest))
/-- COCOON_ENTER (R37). -/
def execCocoonEnter (s : State) : Host.Outcome State Fault Refusal := .next (s.onDev (fun d => d.cocoonEnter))
/-- COCOON_ALARM (R499). -/
def execCocoonAlarm (s : State) : Host.Outcome State Fault Refusal := .next (s.onDev (fun d => d.cocoonAlarm))
/-- WAKE (R38). -/
def execWake (why : WakeEvent) (s : State) : Host.Outcome State Fault Refusal :=
  .next (s.onDev (fun d => d.wake why.cause why.struck))
/-- ENGINE_RESTART (R192). -/
def execEngineRestart (s : State) : Host.Outcome State Fault Refusal := .next (s.onDev (fun d => d.engineRestart))

end Sys2Proof.Machine
end

