-- ==== Sys2Proof/Machine/Lanes.lean ====
section
/-! DEFINITION. Field lanes: frames in and out, takes and sends, plain frames, identity (R18 to R22, R258 to R261, R348, R381,
R410 to R429, R451 to R454). -/

namespace Sys2Proof.Machine

/-! ### Errors of masters that are no engines (R393, R394) -/

/-- The status of an access of n bytes made on behalf of partition p (R393); 0 is OKAY. The registers that lie in the partition are those that its
ring 1 may reach (R196; log entry 93). -/
def Device.partStatus (d : Device) (p a n : Nat) (store : Bool) : Nat :=
  let foreign := fun (b : Bool) => if b then 0 else 4
  match regionOf a with
  | none => 1
  | some r =>
    if absentUnit d.grade a then 2
    else if d.offline a then 3
    else
      let own := match r with
        | .scratch e => foreign (d.ownsCluster p (e / 16))
        | .csram c => foreign (d.ownsCluster p c)
        | .xram c => foreign (d.ownsCluster p c)
        | .flash c => if d.ownsCluster p c then (if store then 6 else 0) else 4
        | .dram _ => foreign (d.ownsPage p ((a - 0x1000000000) / 0x1000000))
        | .mailbox => foreign (decide (d.hostOwner = some p))
        | .points => if (d.pointRange ((a - 0x4000000000) / 32)).map (·.2) ≠ some p then 4 else if store then 6 else 0
        | .device b => foreign (decide (d.regDetail b (Reg.ofAddr (a / 4 * 4)) 1 (some p) store = 0))
      if own = 0 ∧ d.uncorrectable a n then 9 else own

/-! ### Frames (R413 to R416) -/

/-- Byte i of a frame; beyond its end 0. -/
def at_ (f : List Byte) (i : Nat) : Nat := (f[i]?.map (·.toNat)).getD 0
/-- A little-endian number of n bytes at an offset. -/
def le (f : List Byte) (i n : Nat) : Nat := fromBytes ((f.drop i).take n)
/-- T: 4 where the frame carries an 802.1Q tag (R413). -/
def tagLen (f : List Byte) : Nat := if at_ f 12 = 0x81 ∧ at_ f 13 = 0 then 4 else 0
/-- Is the Ethertype Kryene's 0x88B5? -/
def isKryene (f : List Byte) : Bool := decide (at_ f (12 + tagLen f) = 0x88 ∧ at_ f (13 + tagLen f) = 0xB5)

/-- The Kryene header (R414). -/
structure Kryene where
  ver : Nat
  type : Nat
  first : Bool
  devflt : Bool
  reserved : Bool
  frame : Nat
  station : Nat
  pdlen : Nat
  cycle : Word
  idtag : Word
  data : List Byte
  deriving DecidableEq, Repr

/-- Read the header and the process data of a frame. -/
def kryeneOf (f : List Byte) : Kryene :=
  let h := 14 + tagLen f
  { ver := at_ f h / 16, type := at_ f h % 16, first := decide (at_ f (h + 1) % 2 = 1), devflt := decide (at_ f (h + 1) / 2 % 2 = 1)
    reserved := decide (4 ≤ at_ f (h + 1) ∨ at_ f (h + 3) ≠ 0), frame := at_ f (h + 2), station := le f (h + 4) 2, pdlen := le f (h + 6) 2
    cycle := word (le f (h + 8) 4), idtag := word (le f (h + 12) 4), data := f.drop (h + 16) }

/-- The stations of a lane's descriptors, in ascending frame index of first appearance (R453). -/
def Device.stations (d : Device) (n : Nat) : List Nat :=
  ((List.range 256).filter (fun f => (d.descriptor n f).used)).foldl
    (fun acc f => let s := (d.descriptor n f).station.toNat; if acc.contains s then acc else acc ++ [s]) []

/-! ### Lane state -/

/-- Count one event of a lane (R429). -/
def Device.count (d : Device) (n k : Nat) : Device := d.bump (.fldCnt n k)
def cntRXOK := 0
def cntUNARMED := 1
def cntBADFCS := 2
def cntBADHDR := 3
def cntDUP := 4
def cntCJUMP := 5
def cntLATE := 6
def cntOVERRUN := 7
def cntIDMIS := 8
def cntPLAINDROP := 9
def cntMUTED := 10
def cntTXOK := 11

/-- Is a lane up, in service and past its re-entry (R401, R403)? -/
def Device.laneUp (d : Device) (n : Nat) : Bool :=
  decide (n < d.grade.fieldLanes) && bit (d.reg (.fldLstat n)) 0 && !d.isOffline .fieldLane n && !(d.lane n).reentry && !(d.lane n).quiet

/-- Is a lane muted: does its partition stand in Decant (R380, R417)? -/
def Device.laneMuted (d : Device) (n : Nat) : Bool :=
  match d.laneOwner n with | some p => decide (d.modeNow p = .decant) | none => false

/-- Nanoseconds that a run of bytes takes on a lane (R410). -/
def Device.wireNs (d : Device) (n bytes : Nat) : Nat :=
  if bit (d.reg (.fldLctl n)) 1 then (8 * bytes + 24) / 25 else (8 * bytes + 9) / 10

/-- The timestamp of a frame that is checked now: the time of its first bit (R412, R417). -/
def Device.rxStamp (d : Device) (n len : Nat) : BitVec 48 := BitVec.ofNat 48 (d.timeNs - 40 - d.wireNs n (len + 4))

/-- Is a frame's length one the lane supports (R410)? The FCS is not counted. -/
def Device.lengthOk (d : Device) (n len : Nat) : Bool :=
  decide (60 ≤ len ∧ len ≤ if bit (d.reg (.fldLctl n)) 5 then 9018 else 1518)

/-- May a Kryene frame on lane n carry so many bytes of process data (R413)? -/
def Device.pdlenOk (d : Device) (n len : Nat) : Bool := decide (len ≤ maxPdlen (bit (d.reg (.fldLctl n)) 5))

/-- A frame goes out on lane n: the lane appends the FCS (R413, R425). -/
def Device.transmit (d : Device) (n : Nat) (bytes : List Byte) : Device :=
  (d.onLane n (fun l => { l with sent := bytes ++ toBytes 4 (crc32 bytes).toNat })).count n cntTXOK

/-- The address of a lane (FLD.MACn). -/
def Device.laneMac (d : Device) (n : Nat) : List Byte :=
  toBytes 4 (d.reg (.fldMacl n)).toNat ++ toBytes 2 (d.reg (.fldMach n)).toNat

/-- The broadcast address. -/
def broadcast : List Byte := [0xFF, 0xFF, 0xFF, 0xFF, 0xFF, 0xFF]

/-! ### Scatter (R260) -/

/-- The value of a slot of the process data (R258). -/
def slotValue (e : MapEntry) (pd : List Byte) : Word :=
  match e.width.toNat with
  | 0 => let v := BitVec.ofNat 8 (le pd e.offset 1); if e.sgn then v.signExtend 32 else v.setWidth 32
  | 1 => let v := BitVec.ofNat 16 (le pd e.offset 2); if e.sgn then v.signExtend 32 else v.setWidth 32
  | _ => word (le pd e.offset 4)

/-- The updates of a scatter, from the i-th entry on (R260). -/
def scatterUpdates (n f p now : Nat) (isPaced : Bool) (stamp : BitVec 48) (first : Bool) (pd : List Byte) :
    List MapEntry → Nat → List Update
  | [], _ => []
  | e :: es, i =>
    { point := e.point, aux := e.aux, value := slotValue e pd, part := p, origin := .scatter n f i stamp first, trig := now, posted := now
      arrive := if isPaced then some (now + i) else none, coalesced := false } ::
      scatterUpdates n f p now isPaced stamp first pd es (i + 1)

/-- SCATTER (R260): the frame's inbound entries are posted; the first frame after a re-entry carries FIRST (R403). -/
def Device.scatter (d : Device) (n f p : Nat) (bytes : List Byte) (stamp : BitVec 48) (first : Bool) : Device :=
  let ups := scatterUpdates n f p d.now (d.inPaced p) stamp first (kryeneOf bytes).data (d.entriesIn n f) 0
  let d := { d with inFlight := d.inFlight ++ ups }
  if (d.descriptor n f).ev then d.raise (2 * n) else d

/-- The scatter of a frame that lane n received. -/
def Device.scatterLive (d : Device) (n f p : Nat) (bytes : List Byte) (stamp : BitVec 48) : Device :=
  (d.onLane n (fun l => { l with rxFirst := false })).scatter n f p bytes stamp (d.lane n).rxFirst

/-- The payload of a FRAME_IN or ETH_IN record (R353). -/
def frameRecord (f : Nat) (stamp : BitVec 48) (bytes : List Byte) : List Byte :=
  wordsBytes [word (f + 65536 * bytes.length), stamp.setWidth 32, word (stamp.toNat / 2 ^ 32), 0] ++ bytes

/-! ### Identity (R422, R451 to R454) -/

/-- The state of the bytes of an identity record (R452, R453). -/
def identityState (bs : List Byte) : IdState :=
  let len := 8 * at_ bs 3
  let grp := at_ bs 11
  if le bs 0 2 ≠ 0x4449 ∨ at_ bs 2 ≠ 1 ∨ 26 < grp ∨ at_ bs 3 ≠ (36 + 8 * grp + 7) / 8 ∨ bs.length < len then .badFormat
  else if crc32 (bs.take (len - 4)) = word (le bs (len - 4) 4) then .ok else .badCrc

/-- Fill an identity entry with the bytes read; of a record of bad format up to 248 bytes (log entry 87). -/
def Device.fillIdentity (d : Device) (i : Nat) (bs : List Byte) : Device :=
  let st := identityState bs
  let len := if st = .badFormat then min 248 bs.length else 8 * at_ bs 3
  { d with ids := Assoc.put d.ids i { state := st, record := bs.take len } }

/-- An IDENT frame with process data from a station of the lane fills the station's entry (R422). -/
def Device.identResponse (d : Device) (n : Nat) (bytes : List Byte) : Device :=
  let k := kryeneOf bytes
  if !d.laneUp n || !isKryene bytes || k.ver ≠ 1 || k.type ≠ 2 || k.reserved || k.pdlen = 0 then d else
  match (d.stations n).findIdx? (fun s => decide (s = k.station)) with
  | none => d
  | some i =>
    (d.fillIdentity (64 + 32 * n + i) (k.data.take k.pdlen)).onLane n (fun l => { l with identPending := l.identPending.filter (· ≠ i) })

/-- IDENT_RESPONSE (R417, R422): in Decant the frame is ignored and counted. -/
def Device.identFrame (d : Device) (n : Nat) (bytes : List Byte) : Device :=
  if d.laneUp n && d.laneMuted n then d.count n cntMUTED else d.identResponse n bytes

/-- A frame that lane n sends to the station of a descriptor: destination, source, tag, Kryene header, process data, padded to 60 (R413 to R415). -/
def Device.kryeneFrame (d : Device) (n f type : Nat) (first : Bool) (cycle : Word) (pd : List Byte) : List Byte :=
  let desc := d.descriptor n f
  let tag : List Byte := if bit (d.reg (.fldLctl n)) 4 then
      [0x81, 0x00, BitVec.ofNat 8 (desc.tci.toNat / 256), BitVec.ofNat 8 desc.tci.toNat] else []
  let bs := desc.dmac.take 6 ++ d.laneMac n ++ tag ++ [0x88, 0xB5, BitVec.ofNat 8 (16 + type), if first then 1 else 0, BitVec.ofNat 8 f, 0] ++
    toBytes 2 desc.station.toNat ++ toBytes 2 pd.length ++ toBytes 4 cycle.toNat ++ toBytes 4 desc.idtag.toNat ++ pd
  bs ++ List.replicate (60 - bs.length) 0

/-- The frame index at which a station first appears in the descriptors of lane n. -/
def Device.stationFrame (d : Device) (n s : Nat) : Nat :=
  ((List.range 256).find? (fun f => (d.descriptor n f).used && decide ((d.descriptor n f).station.toNat = s))).getD 0

/-- IDENT_REQUEST (R422): one IDENT frame with PDLEN 0 to each station of the lane's descriptors (log entry 94); on a lane that cannot send, none, and no
station answers. A muted lane sends none, nor does that of a held partition but in Configure's stage 9 (R35, R380). -/
def Device.identRequest (d : Device) (n : Nat) (stage9 : Bool) : Device :=
  let ss := d.stations n
  let silent := !d.laneUp n || d.laneMuted n || (!stage9 && (match d.laneOwner n with | some p => d.heldNow p | none => false))
  (if silent then d else foldDev (fun d s => d.transmit n (d.kryeneFrame n (d.stationFrame n s) 2 false 0 [])) d ss).onLane n
    (fun l => { l with identPending := List.range ss.length, identDue := (l.identDue || stage9) && !d.laneUp n })

/-- IDENT_TIMEOUT (R422): a station that has not answered is ABSENT; its entry holds no record (log entry 87). -/
def Device.identTimeout (d : Device) (n k : Nat) : Device :=
  if k ∈ (d.lane n).identPending then
    ({ d with ids := Assoc.put d.ids (64 + 32 * n + k) { state := .absent, record := [] } }).onLane n
      (fun l => { l with identPending := l.identPending.filter (· ≠ k) })
  else d

/-! ### Receive (R417 to R419) -/

/-- CYCLE_CHECK (R418): does the frame pass, and is it a jump? -/
def cycleCheck (last : Option Word) (first : Bool) (cycle : Word) : Bool × Bool :=
  match last with
  | none => (true, false)
  | some l =>
    let dd := (cycle - l).toNat
    (first || decide (1 ≤ dd ∧ dd < 2 ^ 31), decide (2 ≤ dd))

/-- Accept a checked cyclic frame (R417 to R419). -/
def Device.acceptFrame (d : Device) (n p : Nat) (bytes : List Byte) (k : Kryene) (jump : Bool) : Device :=
  let f := k.frame
  let l := d.lane n
  let desc := d.descriptor n f
  let d := if jump then d.count n cntCJUMP else d
  let d := (d.count n cntRXOK).onLane n (fun l => { l with
    lastCycle := Assoc.put l.lastCycle f k.cycle, devflt := Assoc.put l.devflt f k.devflt })
  let d := if k.devflt && !(Assoc.get false l.devflt f) then d.raise (2 * n + 1) else d
  let d := if desc.idtag ≠ 0 ∧ k.idtag ≠ desc.idtag then (d.count n cntIDMIS).raise (2 * n + 1) else d
  let stamp := d.rxStamp n bytes.length
  if d.inPaced p then
    let d := if l.waiting.has f then d.count n cntOVERRUN else d
    d.onLane n (fun l => { l with waiting := Assoc.put l.waiting f { bytes := bytes, stamp := stamp } })
  else
    (d.scatterLive n f p bytes stamp).record p recFRAME_IN (srcLane n) (frameRecord f stamp bytes)

/-! ### Take (R19, R20) -/

/-- LATE_FRAME (R20): counted, and the mapped inbound points gain STALE. -/
def Device.lateTake (d : Device) (n f : Nat) : Device :=
  let d := foldDev (fun d (e : MapEntry) => d.onPoint e.point (fun x => { x with squal := x.squal ||| 2 })) d (d.entriesIn n f)
  let ns := d.stamp.toNat
  let d := (d.count n cntLATE).onLane n (fun l => { l with lateAt := Assoc.put l.lateAt f ns })
  if (d.descriptor n f).ev then d.raise (2 * n) else d

/-- The record of a frame of a lane at this step of a Decant, taken from those left (R380). -/
def Device.consumeFrame (d : Device) (p type src f : Nat) : Option (Record × Device) :=
  match d.decantOf p with
  | none => none
  | some r =>
    match r.left.find? (fun x => decide (x.type = type ∧ x.src = src ∧ x.vstep = r.vstep d.now ∧ fld (x.w 0) 0 8 = f)) with
    | none => none
    | some x => some (x, d.onPart p (fun q => { q with decant := some { r with left := dropRecord x r.left } }))

/-- A take of a Decant scatters the recorded frame, or repeats the recorded late one (R380, R382). -/
def Device.decantTake (d : Device) (n f p : Nat) : Device :=
  let src := srcLane (d.seenLane p n)
  match d.consumeFrame p recFRAME_IN src f with
  | some (r, d) =>
    let bytes := (r.payload.drop 16).take (fld (r.w 0) 16 16)
    let first := (d.decantOf p).any (fun r => r.rxFirst.contains n)
    (d.onPart p (fun q => { q with decant := q.decant.map (fun r => { r with rxFirst := r.rxFirst.filter (· ≠ n) }) })).scatter n f p bytes
      (BitVec.ofNat 48 ((r.w 1).toNat + 2 ^ 32 * (r.w 2).toNat)) first
  | none =>
    match d.consumeFrame p recFRAME_LATE src f with
    | some (_, d) => d.lateTake n f
    | none => d.missing p 2 none (some (d.seenLane p n, f))

/-- TAKE (R19, R20, R419): at the take step the waiting frame is scattered and recorded, or the frame is late. A lane out of
service marks its points at each take step (R401). -/
def Device.take (d : Device) (n f : Nat) : Device :=
  let desc := d.descriptor n f
  match d.laneOwner n with
  | none => d
  | some p =>
    if !desc.inbound || d.heldNow p || !d.atOffset p desc.take || (d.lane n).lastTake.any (fun x => decide (x = (f, d.now))) then d else
    let d := d.onLane n (fun l => { l with lastTake := Assoc.put l.lastTake f d.now })
    if (d.decantOf p).isSome then d.decantTake n f p
    else if !d.inPaced p then
      (if d.isOffline .fieldLane n then
        foldDev (fun d (e : MapEntry) => d.onPoint e.point (fun x => { x with squal := x.squal ||| 2 })) d (d.entriesIn n f)
      else d)
    else match (d.lane n).waiting.find? (fun x => decide (x.1 = f)) with
      | some (_, w) =>
        let d := d.onLane n (fun l => { l with waiting := Assoc.erase l.waiting f })
        (d.scatterLive n f p w.bytes w.stamp).record p recFRAME_IN (srcLane n) (frameRecord f w.stamp w.bytes)
      | none => (d.lateTake n f).record p recFRAME_LATE (srcLane n) (wordsBytes [word f])

/-! ### Send (R21, R22, R261, R348, R381, R420, R421) -/

/-- GATHER (R261): the slot of one outbound entry; a point never written gathers as zero. -/
def Device.gatherSlot (d : Device) (e : MapEntry) : List Byte :=
  let p := (d.point e.point).atStart d.now
  let v := if !p.valid then 0 else if e.aux then p.aux else p.value
  match e.width.toNat with | 0 => toBytes 1 v.toNat | 1 => toBytes 2 v.toNat | _ => toBytes 4 v.toNat

/-- The process data of an outbound frame: bytes that no entry maps are 0. -/
def Device.gather (d : Device) (n f len : Nat) : List Byte :=
  (d.entriesOut n f).foldl (fun pd e => splice pd e.offset (d.gatherSlot e)) (List.replicate len 0)

/-- The bytes of an outbound cyclic frame (R420, R421). -/
def Device.cyclicFrame (d : Device) (n f : Nat) : List Byte :=
  d.kryeneFrame n f 1 (!(d.lane n).txSent.contains f) (Assoc.get 0 (d.lane n).txCount f) (d.gather n f (d.descriptor n f).pdout)

/-- The payload of a DIGEST record (R348, R349, R353). -/
def digestRecord (f : Nat) (bytes : List Byte) : List Word :=
  let c := crc64 bytes
  [word (f + 65536 * bytes.length), 0, c.setWidth 32, word (c.toNat / 2 ^ 32)]

/-- DIGEST_COMPARE (R381, R382). -/
def Device.compareDigest (d : Device) (n f p : Nat) (bytes : List Byte) : Device :=
  let who := (d.lastWriter n f d.now).map (fun e => d.seenEngine e e)
  let loc := some (d.seenLane p n, f)
  match d.consumeFrame p recDIGEST (srcLane (d.seenLane p n)) f with
  | none => d.missing p 5 who loc
  | some (r, d) => if r.payload = wordsBytes (digestRecord f bytes) then d else d.diverge p 1 who loc

/-- A mode in which the lanes of a partition send cyclic frames, which a held partition's do not (R25, R26, R35, R420). -/
def Device.sends (d : Device) (p : Nat) : Bool :=
  (match d.modeNow p with | .free | .paced | .decant => true | _ => false) && !d.heldNow p && !d.ejectStopped

/-- SEND (R420): one frame of an OUT descriptor at its send step; none that the lane cannot carry (R413; log entry 66). A muted lane sends nothing and
compares the digest. -/
def Device.send (d : Device) (n f : Nat) : Device :=
  let desc := d.descriptor n f
  match d.laneOwner n with
  | none => d
  | some p =>
    if !desc.outbound || !d.sends p || !d.atOffset p desc.send || (d.lane n).lastSend.any (fun x => decide (x = (f, d.now))) then d else
    let bytes := d.cyclicFrame n f
    let went := fun (d : Device) => d.onLane n (fun l => { l with
      lastSend := Assoc.put l.lastSend f d.now, txCount := Assoc.put l.txCount f (Assoc.get 0 l.txCount f + 1), txSent := f :: l.txSent })
    let none_ := d.onLane n (fun l => { l with lastSend := Assoc.put l.lastSend f d.now })
    if !d.pdlenOk n desc.pdout then none_
    else if decide (d.modeNow p = .decant) then (if (d.decantOf p).isSome then (went d).compareDigest n f p bytes else d)
    else if !d.laneUp n then none_
    else ((went d).transmit n bytes).record p recDIGEST (srcLane n) (wordsBytes (digestRecord f bytes))

/-! ### Wake frames, links (R403, R423, R428) -/

/-- WAKE_FRAME (R38, R423). -/
def Device.wakeFrame (d : Device) (n : Nat) (bytes : List Byte) : Device :=
  let k := kryeneOf bytes
  let dst := bytes.take 6
  let mine := (d.phase = .cocoon ∨ d.phase = .cocoonDrain) ∧ dst ∈ [d.laneMac n, broadcast] ∧ k.ver = 1 ∧ k.type = 4 ∧
    !k.reserved ∧ word (le k.data 0 4) = d.reg (.fldWake n) ∧ 4 ≤ k.pdlen ∧ 4 ≤ k.data.length
  if d.laneUp n && d.wakeLane n && isKryene bytes && decide mine then d.wake .laneFrame [] else d

/-- LANE_LINK_UP (R410, R422, R428, R479): PCS block lock, and RS-FEC aligned where it is on at 25G. The IDENT requests of Configure
stage 9 go out once the lane can carry them. -/
def Device.laneLinkUp (d : Device) (n : Nat) : Device :=
  let c := d.reg (.fldLctl n)
  if decide (d.grade.fieldLanes ≤ n) || !bit c 0 || decide (Assoc.get .off d.domains (72 + n / 8) ≠ .on) then d
  else
    let d := (d.setRegBit (.fldLstat n) 0 true).setRegBit (.fldLstat n) 4 (bit c 1 && bit c 2)
    if (d.lane n).identDue then d.identRequest n true else d

/-- LANE_LINK_DOWN (R428). -/
def Device.laneLinkDown (d : Device) (n : Nat) : Device :=
  if d.grade.fieldLanes ≤ n then d else (d.setRegBit (.fldLstat n) 0 false).setRegBit (.fldLstat n) 4 false

/-- LANE_REENTRY (R403, R421, R422): at the first frame boundary after its admission the lane is back, with FIRST both ways. -/
def Device.laneReentry (d : Device) (n : Nat) : Device :=
  if !(d.lane n).reentry then d
  else (d.onLane n (fun l => { l with reentry := false, rxFirst := true, txSent := [] })).identRequest n false

/-- TAKE (R19). -/
def execTake (n f : Nat) (s : State) : Host.Outcome State Fault Refusal := .next (s.onDev (fun d => d.take n f))
/-- SEND (R420). -/
def execSend (n f : Nat) (s : State) : Host.Outcome State Fault Refusal := .next (s.onDev (fun d => d.send n f))
/-- IDENT_RESPONSE (R422). -/
def execIdentResponse (n : Nat) (f : List Byte) (s : State) : Host.Outcome State Fault Refusal :=
  .next (s.onDev (fun d => d.identFrame n f))
/-- IDENT_TIMEOUT (R422). -/
def execIdentTimeout (n k : Nat) (s : State) : Host.Outcome State Fault Refusal := .next (s.onDev (fun d => d.identTimeout n k))
/-- WAKE_FRAME (R423). -/
def execWakeFrame (n : Nat) (f : List Byte) (s : State) : Host.Outcome State Fault Refusal :=
  .next (s.onDev (fun d => d.wakeFrame n f))
/-- LANE_LINK_UP (R479). -/
def execLaneLinkUp (n : Nat) (s : State) : Host.Outcome State Fault Refusal := .next (s.onDev (fun d => d.laneLinkUp n))
/-- LANE_LINK_DOWN (R428). -/
def execLaneLinkDown (n : Nat) (s : State) : Host.Outcome State Fault Refusal := .next (s.onDev (fun d => d.laneLinkDown n))
/-- LANE_REENTRY (R403). -/
def execLaneReentry (n : Nat) (s : State) : Host.Outcome State Fault Refusal := .next (s.onDev (fun d => d.laneReentry n))

end Sys2Proof.Machine
end

