-- ==== Sys2Proof/Machine/Pacing.lean ====
section
/-! DEFINITION. The pace generator, TIM, cycle starts and grant windows (R309 to R338). -/

namespace Sys2Proof.Machine

/-! ### Cycle starts (R18, R333, R334) -/

/-- A cycle of partition p starts in this pace period; one that does not lie N steps after its predecessor is recorded. -/
def Device.startCycle (d : Device) (p : Nat) : Device :=
  let n := d.cycleLen p
  let d' := d.onPart p (fun x => { x with cycleAt := some d.now, cycleFree := false })
  match (d.part p).cycleAt with
  | some c => if d.now - c = n then d' else d'.record p recCYCLE srcModule (wordsBytes [word (d.now - c), word ((d.now - c) / 2 ^ 32)])
  | none => d'

/-- Does a cycle of the recording start in this step of a Decant (R334, R380)? A recorded CYCLE ends the cycle it names; any
other lasts N steps. -/
def Device.decantCycle (d : Device) (p : Nat) (r : DecantRun) : Device :=
  let v := r.vstep d.now
  let take := fun (d : Device) => d.onPart p (fun x => { x with cycleAt := some d.now })
  match (r.left ++ r.unread).find? (fun x => decide (x.type = recCYCLE)) with
  | some x =>
    let len := (x.w 0).toNat + 2 ^ 32 * (x.w 1).toNat
    if x.vstep = v ∧ x ∈ r.left then take (d.onPart p (fun q => { q with decant := some { r with left := dropRecord x r.left } }))
    else match (d.part p).cycleAt with
      | some c => if d.now - c = d.cycleLen p ∧ x.vstep - len ≠ v - (d.now - c) then take d else d
      | none => d
  | none => match (d.part p).cycleAt with
    | some c => if d.now - c = d.cycleLen p then take d else d
    | none => d

/-- CYCLE_START (R333): the next cycle-start tick of partition p has come; it is taken, or skipped and counted. -/
def Device.cycleStart (d : Device) (p : Nat) : Device :=
  if d.cycleLen p = 0 ∨ !d.released p ∨ bit (d.reg (.celStat p)) 3 then d else
  match d.decantOf p with
  | some r => if r.startAt.isSome then d.decantCycle p r else d
  | none =>
    match (d.part p).nextTick with
    | none => d
    | some t =>
      if d.pace.tick < t then d else
      let d := d.onPart p (fun x => { x with nextTick := some (t + d.cycleLen p) })
      let enough := match (d.part p).cycleAt with | some c => decide (d.cycleLen p ≤ d.now - c) | none => true
      if (d.part p).cycleFree || enough then d.startCycle p else d.bump (.timCskip p)

/-! ### PACE_LOSS (R320 to R327) -/

/-- PACE_LOSS_DETECT (R320, R322): the conditions now present, each 0 none, 1 the S = 2 row, 2 the S = 4 row. -/
def Device.paceLossDetect (d : Device) (supply temp margin : BitVec 2) : Device :=
  ({ d with pace := d.pace.change { d.pace with supply := supply, temp := temp, margin := margin } }).showPace

/-- REFCLK_LOSS (R321). -/
def Device.refclkLoss (d : Device) : Device :=
  (({ d with pace := d.pace.change { d.pace with refLost := true } }).setReg .timStat (d.reg .timStat ||| 3)).showPace

/-- REFCLK_RELOCK (R321). -/
def Device.refclkRelock (d : Device) : Device :=
  (({ d with pace := d.pace.change { d.pace with refLost := false } }).setRegBit .timStat 0 false).showPace

/-! ### TIM (R328 to R332, R336) -/

/-- Is any partition in Paced or Decant (R331)? -/
def Device.anyPaced (d : Device) : Bool := partNumbers.any (fun p => d.valid p && d.inPaced p)

/-- TIM.SETH and TIM.SETL. -/
def Device.timSetValue (d : Device) : Nat := (d.reg .timSetl).toNat + 2 ^ 32 * (d.reg .timSeth).toNat

/-- An accepted TIM.CMD moves TICK: it is a PTP correction, and the cycles are computed afresh (R332, R333). -/
def Device.moveTick (d : Device) (cmd tick : Nat) : Device :=
  let d := ({ d with pace := { d.pace with tick := tick % 2 ^ 64 } }).setRegBit .timStat 2 false
  let d := d.recordAll recPTP srcModule [word cmd, d.reg .timAdj, d.reg .timSetl, d.reg .timSeth]
  foldDev (fun d p => if d.valid p && d.released p then d.freshCycle p else d) d partNumbers

/-- TIM_SET (R328, R331): TIM.CMD 1. -/
def Device.timSet (d : Device) : Device :=
  if d.anyPaced then d.setRegBit .timStat 2 true else d.moveTick 2 ((d.timSetValue * 25 + 31) / 32)

/-- TIM_OFFSET (R331, R336): TIM.CMD 2; the signed offset in ticks, rounded toward zero. -/
def Device.timOffset (d : Device) : Device :=
  if d.anyPaced then d.setRegBit .timStat 2 true
  else
    let v := d.timSetValue
    if v < 2 ^ 63 then d.moveTick 3 (d.pace.tick + v * 25 / 32)
    else d.moveTick 3 (d.pace.tick + 2 ^ 64 - (2 ^ 64 - v) * 25 / 32)

/-- TIM_ADJ (R329): a value beyond 200 ppm is clamped; it takes effect at the next grant-window boundary. -/
def Device.timAdj (d : Device) (v : Word) : Device :=
  let lim := 0x00C80000#32
  let w := if v.toInt > lim.toInt then lim else if v.toInt < -lim.toInt then -lim else v
  let d := (d.setReg .timAdj w).setRegBit .timStat 3 (decide (w ≠ v))
  { d with pace := { d.pace with adjNext := d.pace.adjNext ++ [w] } }

/-- NS bits [31:0] for engine e; its bits [63:32] are latched for it (R332). -/
def Device.timNsl (d : Device) (e : Nat) : Word × Device :=
  (word d.timeNs, d.onEng e (fun x => { x with nsh := some (word (d.timeNs / 2 ^ 32)) }))

/-- NS bits [63:32] for engine e: those latched, or the current ones (R332). -/
def Device.timNsh (d : Device) (e : Nat) : Word × Device :=
  (((d.eng e).nsh).getD (word (d.timeNs / 2 ^ 32)), d.onEng e (fun x => { x with nsh := none }))

/-- A word load from register space is an input of the engine's partition: recorded, or in a Decant taken from the record
(R346, R380, R382). -/
def Device.inputLoad (d : Device) (e size a : Nat) (v st : Word) : (Word × Word) × Device :=
  let w0 := word (size + 256 * (a / 2 ^ 32 % 256))
  match d.engPart e with
  | none => ((v, st), d)
  | some p =>
    match d.decantOf p with
    | none => ((v, st), d.record p recLOAD e (wordsBytes [w0, word a, v, st]))
    | some _ =>
      let who := d.seenEngine e e
      match d.consume p recLOAD who with
      | some (r, d) => ((r.w 2, r.w 3), if r.w 0 = w0 ∧ r.w 1 = word a then d else d.diverge p 4 (some who) none)
      | none => ((0, 0), d.missing p 2 (some who) none)

/-- TIM_NSL_READ (R332): the load is an input stamped at its completion. -/
def Device.timNslRead (d : Device) (e : Nat) : Device :=
  let (v, d) := d.timNsl e
  let ((v, _), d) := d.inputLoad e 4 0xFF00700000 v 0
  { d with answer := v }

/-- TIM_NSH_READ (R332). -/
def Device.timNshRead (d : Device) (e : Nat) : Device :=
  let (v, d) := d.timNsh e
  let ((v, _), d) := d.inputLoad e 4 0xFF00700004 v 0
  { d with answer := v }

/-- CYCLE_START (R333). -/
def execCycleStart (p : Nat) (s : State) : Host.Outcome State Fault Refusal := .next (s.onDev (fun d => d.cycleStart p))
/-- GRANT_WINDOW (R338). -/
def execGrantWindow (s : State) : Host.Outcome State Fault Refusal := .next (s.onDev (fun d => d.grantWindow))
/-- PACE_LOSS_DETECT (R320). -/
def execPaceLossDetect (supply temp margin : BitVec 2) (s : State) : Host.Outcome State Fault Refusal :=
  .next (s.onDev (fun d => d.paceLossDetect supply temp margin))
/-- REFCLK_LOSS (R321). -/
def execRefclkLoss (s : State) : Host.Outcome State Fault Refusal := .next (s.onDev (fun d => d.refclkLoss))
/-- REFCLK_RELOCK (R321). -/
def execRefclkRelock (s : State) : Host.Outcome State Fault Refusal := .next (s.onDev (fun d => d.refclkRelock))
/-- TIM_SET (R336). -/
def execTimSet (s : State) : Host.Outcome State Fault Refusal := .next (s.onDev (fun d => d.timSet))
/-- TIM_OFFSET (R336). -/
def execTimOffset (s : State) : Host.Outcome State Fault Refusal := .next (s.onDev (fun d => d.timOffset))
/-- TIM_ADJ (R329). -/
def execTimAdj (v : Word) (s : State) : Host.Outcome State Fault Refusal := .next (s.onDev (fun d => d.timAdj v))
/-- TIM_NSL_READ (R332). -/
def execTimNslRead (e : Nat) (s : State) : Host.Outcome State Fault Refusal := .next (s.onDev (fun d => d.timNslRead e))
/-- TIM_NSH_READ (R332). -/
def execTimNshRead (e : Nat) (s : State) : Host.Outcome State Fault Refusal := .next (s.onDev (fun d => d.timNshRead e))

end Sys2Proof.Machine
end

