-- ==== Sys2Proof/Machine/Cellar.lean ====
section
/-! DEFINITION. The Cellar: commits of casks, the recording registers, the keys in configuration memory (R356, R357, R364 to R375,
R432, R433, R463, R476, R477). -/

namespace Sys2Proof.Machine

/-! ### Alternating sectors of the configuration memory (R463, R476) -/

/-- Is the sector at an address valid: its magic, and the CRC-32 of the bytes before the CRC (R463, R476)? -/
def Device.sectorOk (d : Device) (a magic crcAt : Nat) : Bool :=
  d.norPresent && decide (d.norWord a = magic) && decide (word (d.norWord (a + crcAt)) = crc32 (d.norBytes a crcAt))

/-- The valid one of two sectors: the one of the higher SEQ. -/
def Device.validSector (d : Device) (a size magic crcAt : Nat) : Option Nat :=
  match d.sectorOk a magic crcAt, d.sectorOk (a + size) magic crcAt with
  | true, true => if d.norWord (a + 4) < d.norWord (a + size + 4) then some (a + size) else some a
  | true, false => some a
  | false, true => some (a + size)
  | false, false => none

/-- A new record goes into the other sector, and only then is the old one erased (R463, R477). -/
def Device.writeOther (d : Device) (a size magic crcAt : Nat) (bs : List Byte) : Device :=
  let old := d.validSector a size magic crcAt
  let new := if old = some a then a + size else a
  let d := (d.norErase new size).norProgram new bs
  match old with | some o => d.norErase o size | none => d

/-! ### Wrapped keys (R356, R374, R476, R477) -/

/-- The first of the two key sectors of partition p. -/
def keyBase (p : Nat) : Nat := 0x200000 + 0x2000 * p

/-- The valid key sector of partition p. -/
def Device.keySector (d : Device) (p : Nat) : Option Nat := d.validSector (keyBase p) 0x1000 0x59454B57 0x38

/-- The TALLY bytes equal to 0 (R477). -/
def Device.tally (d : Device) (a : Nat) : Nat := ((d.norBytes (a + 0x100) 3840).filter (fun b => decide (b = 0))).length

/-- The bytes of a key sector (R476). -/
def keyBytes (seq ebase : Nat) (wkey : List Byte) : List Byte :=
  let body := toBytes 4 0x59454B57 ++ toBytes 4 seq ++ toBytes 4 (ebase % 2 ^ 24) ++ toBytes 4 0 ++
    (wkey ++ List.replicate (40 - wkey.length) 0).take 40
  body ++ toBytes 4 (crc32 body).toNat

/-- Configure steps partition p's recording epoch on, by one tally byte, or by the other sector where the tally is full; an
epoch of 2^24 − 1 cannot step (R477). -/
def Device.stepEpoch (d : Device) (p : Nat) : Option Nat × Device :=
  match d.keySector p with
  | none => (none, d)
  | some a =>
    let base := d.norWord (a + 8) % 2 ^ 24
    let n := d.tally a
    if 2 ^ 24 - 1 ≤ base + n then (none, d)
    else if n < 3840 then (some (base + n + 1), d.norProgram (a + 0x100 + n) [0])
    else
      let bs := keyBytes (d.norWord (a + 4) + 1) (base + 3840) (d.norBytes (a + 0x10) 40)
      let d := d.writeOther (keyBase p) 0x1000 0x59454B57 0x38 bs
      match d.keySector p with
      | some a => (some (base + 3841), d.norProgram (a + 0x100) [0])
      | none => (none, d)

/-- Partition p has no usable key or epoch (R356, R375). -/
def Device.noKey (d : Device) (p : Nat) : Device :=
  ((d.setRegBit (.celStat p) 5 true).setRegBit .celKstat p false).onRec p (fun r => { r with key := none })

/-- Partition p's key and epoch stand. -/
def Device.haveKey (d : Device) (p epoch : Nat) (k : List Word) : Device :=
  ((d.setRegBit (.celStat p) 5 false).setRegBit .celKstat p true).onRec p (fun r =>
    { r with key := some k, epoch := BitVec.ofNat 24 epoch, vintages := 0 })

/-- A partition's key wrapped under the cabinet key, and unwrapped (R374, R476). -/
def wrapKey (cab key : List Word) : List Byte := keyWrap (keyBytesOf cab) (keyBytesOf key)
def unwrapKey (cab : List Word) (bs : List Byte) : Option (List Word) :=
  (keyUnwrap (keyBytesOf cab) bs).map (fun k => (List.range 8).map (wordOf k))

/-- The key of partition p that the configuration memory holds, unwrapped under the cabinet key (R374, R375). -/
def Device.storedKey (d : Device) (p : Nat) : Option (List Word) :=
  match d.keySector p, d.keys.cabinet with
  | some a, some cab => unwrapKey cab (d.norBytes (a + 0x10) 40)
  | _, _ => none

/-- Stage 3 of Configure increments the recording epochs, whichever image runs afterwards; a key that does not unwrap leaves its sector untouched, and
an epoch that cannot be incremented leads to NOKEY (R356, R477). -/
def Device.stepEpochs (d : Device) : Device :=
  if !d.grade.hasCellar then d else
  foldDev (fun d p => match d.storedKey p with
    | none => d
    | some _ =>
      let x := d.stepEpoch p
      x.2.onRec p (fun r => { r with epoch := BitVec.ofNat 24 (x.1.getD 0) })) d partNumbers

/-- Configure unwraps the key of a recording partition, whose epoch stage 3 has stepped (R356, R375, R477). An epoch of 0 is one that could not be. -/
def Device.loadKey (d : Device) (p : Nat) : Device :=
  match d.storedKey p with
  | none => d.noKey p
  | some k => if (d.part p).recorder.epoch = 0 then d.noKey p else d.haveKey p (d.part p).recorder.epoch.toNat k

/-- Are key commands allowed: in Configure, or while every partition is in Recovery (R375)? -/
def Device.keysOpen (d : Device) : Bool :=
  d.grade.hasCellar &&
  (match d.phase with
   | .configure => true
   | .running => partNumbers.all (fun p => !d.valid p || decide ((d.part p).mode = .recovery))
   | _ => false)

/-- CEL.KSTAT.ERR (R385). -/
def Device.keyErr (d : Device) (b : Bool) : Device := d.setRegBit .celKstat 17 b

/-- ENROLL (R375): the cabinet key from CEL.KIN0 to CEL.KIN7. -/
def Device.enroll (d : Device) : Device :=
  if !d.keysOpen then d.keyErr true
  else ({ d with keys := { d.keys with cabinet := some ([0, 1, 2, 3, 4, 5, 6, 7].map (fun i => d.reg (.celKin i))) } }).keyErr false

/-- NEWKEY (R374, R375, R476): a new key for partition p, written wrapped, with a new recording epoch. -/
def Device.newkey (d : Device) (p : Nat) : Device :=
  match d.keys.cabinet with
  | none => d.keyErr true
  | some cab =>
    let (seq, epoch) := match d.keySector p with
      | some a => (d.norWord (a + 4) + 1, d.norWord (a + 8) % 2 ^ 24 + d.tally a + 1)
      | none => (1, 1)
    if !d.keysOpen ∨ 16 ≤ p ∨ !d.norPresent ∨ 2 ^ 24 ≤ epoch then d.keyErr true
    else
      let k := Config.freshKey d.fresh
      let d := { d with fresh := d.fresh + 1 }
      let d := d.writeOther (keyBase p) 0x1000 0x59454B57 0x38 (keyBytes seq epoch (wrapKey cab k))
      (d.haveKey p epoch k).keyErr false

/-- CLEAR (R375). -/
def Device.clearKey (d : Device) : Device :=
  if !d.keysOpen then d.keyErr true else ({ d with keys := { d.keys with cabinet := none } }).keyErr false

/-! ### Commit (R364, R370 to R373, R433) -/

/-- The first free slot of a circular log of n slots from the next one on, as its place in the log and in the namespaces (R370). -/
def freeSlotFrom (place : Nat → Option (Nat × Nat)) (n next : Nat) (taken : List (Nat × Nat)) : Option (Nat × (Nat × Nat)) :=
  (List.range (min n (taken.length + 1))).findSome? (fun i =>
    let k := (next + i) % n
    match place k with | some s => if s ∈ taken then none else some (k, s) | none => none)

/-- The slot that partition p's next cask takes, freeing the oldest sealed vintages while none is free (R372). -/
def Device.nextFree (d : Device) (p : Nat) : Option (Nat × (Nat × Nat)) × Recorder :=
  let place := slotAt d.namespaces (d.ownNamespaces p)
  let r := (d.part p).recorder
  r.makeRoom (d.inDecant p) (fun r => freeSlotFrom place (d.caskSlots p) r.nextSlot r.taken) r.closed.length

/-- A cask of a vintage is committed in a slot; the last one seals it and writes its index entry (R371, R372). -/
def Vintage.commit (v : Vintage) (c : Cask) (s : Nat × Nat) : Vintage :=
  let v := { v with committed := v.committed + 1, slots := v.slots ++ [s], isSealed := c.last
                    lastV := (c.records.getLast?.map (·.vstep)).getD v.lastV }
  if c.last then v.written else v

/-- May a cask be written now: a checkpoint's pages are copied after its step (R360)? -/
def Device.mayWrite (d : Device) (p : Nat) (c : Cask) : Bool := !c.ckpt || decide (c.step < d.vstep p)

/-- The Write of partition p's oldest cask completes (R370 to R373, R433). -/
def Device.caskWritten (d : Device) (p : Nat) (c : Cask) (cs : List Cask) : Device :=
  match d.nextFree p with
  | (none, r) => d.freed p r
  | (some (k, s), r) =>
    let mine := fun (v : Vintage) => if v.number = c.vintage then v.commit c s else v
    let d := (d.freed p r).onRec p (fun _ => { r with
      casks := cs, bytes := r.bytes - (if c.ckpt then 0 else c.bytes), nextSlot := k + 1, closed := r.closed.map mine, open_ := r.open_.map mine })
    let d := if c.last then foldDev (fun d v => if v.number = c.vintage then d.writeIndex v else d) d (d.part p).recorder.closed else d
    let d : Device := match r.key with
      | some key => { d with store := Assoc.put d.store s (c.encode p s.1 key) }
      | none => d
    let d := if c.ckpt && !cs.any (fun x => x.ckpt && decide (x.vintage = c.vintage ∧ x.step = c.step)) then d.checkpointDone p else d
    let port := ((d.namespaces[s.1]?).map (·.port)).getD 0
    ((d.askRing r.bytes (132 + port)).showUse p).raise (0xA0 + 2 * port)

/-- A Write fails: the first failure is retried, the second takes the namespace out of recording (R433). -/
def Device.caskFailed (d : Device) (p n : Nat) (c : Cask) (cs : List Cask) : Device :=
  match d.namespaces[n]? with
  | none => d
  | some x =>
    let d := d.bump (.stoErr x.port x.sub)
    if !c.retried then d.onRec p (fun r => { r with casks := { c with retried := true } :: cs })
    else
      let d := { d with namespaces := d.namespaces.modify n (fun y => { y with failed := true }) }
      let d := d.onRec p (fun r => { r with casks := { c with retried := false } :: cs })
      let gone := d.namespaces.all (fun y => decide (y.port ≠ x.port ∨ y.sub ≠ x.sub) || y.failed)
      let d := if gone then d.setRegBit (.stoPstat x.port x.sub) 7 true else d
      d.raise (0xA0 + 2 * x.port + 1)

/-- The store port of partition p's next slot cannot read the staging ring, whose stack is out of service: the Write has no data, and the port logs
the status (R393, R394). -/
def Device.caskUnread (d : Device) (p : Nat) : Device :=
  match (d.nextFree p).1 with
  | some (_, s) => d.askRing (d.part p).recorder.bytes (132 + ((d.namespaces[s.1]?).map (·.port)).getD 0)
  | none => d

/-- CASK_COMMIT (R372, R433): partition p's oldest cask is written, or its Write fails, in the namespace of its slot. -/
def Device.caskCommit (d : Device) (p : Nat) (ok : Bool) : Device :=
  match (d.part p).recorder.casks with
  | [] => d
  | c :: cs =>
    if !d.mayWrite p c then d
    else if d.ringOut then d.caskUnread p
    else if ok then d.caskWritten p c cs
    else match (d.nextFree p).1 with
      | some (_, s) => d.caskFailed p s.1 c cs
      | none => d

/-! ### Overload and enabling (R357, R358, R367, R368) -/

/-- LOW_WATER (R367): below half the quota a gap ends; a new vintage opens at the next admission epoch. -/
def Device.lowWater (d : Device) (p : Nat) : Device :=
  if (d.part p).recorder.bytes < d.quota p / 2 ∧ bit (d.reg (.celStat p)) 1 then
    (d.setRegBit (.celStat p) 1 false).wantVintage p
  else d

/-- REARM (R357, R368): STOP is left. -/
def Device.rearm (d : Device) (p : Nat) : Device :=
  if bit (d.reg (.celStat p)) 2 then (d.setRegBit (.celStat p) 2 false).wantVintage p else d

/-- CEL_ENABLE (R344, R357). -/
def Device.celEnable (d : Device) (p : Nat) : Device :=
  if !d.grade.hasCellar then d
  else
    let d := d.setRegBit (.celCtl p) 0 true
    if (d.part p).recorder.open_.isSome then d else d.wantVintage p

/-- CEL_DISABLE (R358). -/
def Device.celDisable (d : Device) (p : Nat) : Device :=
  if !d.grade.hasCellar then d else (d.setRegBit (.celCtl p) 0 false).closeVintage p 6

/-- LOW_WATER (R367). -/
def execLowWater (p : Nat) (s : State) : Host.Outcome State Fault Refusal := .next (s.onDev (fun d => d.lowWater p))
/-- CASK_COMMIT (R372). -/
def execCaskCommit (p : Nat) (ok : Bool) (s : State) : Host.Outcome State Fault Refusal := .next (s.onDev (fun d => d.caskCommit p ok))
/-- REARM (R357). -/
def execRearm (p : Nat) (s : State) : Host.Outcome State Fault Refusal := .next (s.onDev (fun d => d.rearm p))
/-- CEL_ENABLE (R357). -/
def execCelEnable (p : Nat) (s : State) : Host.Outcome State Fault Refusal := .next (s.onDev (fun d => d.celEnable p))
/-- CEL_DISABLE (R358). -/
def execCelDisable (p : Nat) (s : State) : Host.Outcome State Fault Refusal := .next (s.onDev (fun d => d.celDisable p))
/-- ENROLL (R375). -/
def execEnroll (s : State) : Host.Outcome State Fault Refusal := .next (s.onDev (fun d => d.enroll))
/-- NEWKEY (R375). -/
def execNewkey (p : Nat) (s : State) : Host.Outcome State Fault Refusal := .next (s.onDev (fun d => d.newkey p))
/-- CLEAR (R375). -/
def execClear (s : State) : Host.Outcome State Fault Refusal := .next (s.onDev (fun d => d.clearKey))

end Sys2Proof.Machine
end

