-- ==== Sys2Proof/Machine/Trellis.lean ====
section
/-! DEFINITION. The Trellis: grants at a target port, the default target, fences, and units that leave and return to service
(R72, R74, R188, R189, R235, R386 to R406). -/

namespace Sys2Proof.Machine

/-! ### Grants (R388, R389, R391) -/

/-- Mark the oldest lsu operation that waits for a target as granted. -/
def grantOldest (at_ : LsuRun → Bool) : List LsuRun → List LsuRun
  | [] => []
  | l :: ls => if !l.granted && at_ l then { l with granted := true } :: ls else l :: grantOldest at_ ls

/-- Is this pace period a reserved slot of engine e at target port t: toward other clusters one period in 4, on the I/O path one in 32 (R317)? -/
def slotNow (now t e : Nat) : Bool := if 32 ≤ t ∧ t < 96 then decide (now % 4 = e % 4) else decide (now % 32 = e % 32)

/-- A request of target port t is granted: the oldest lsu operation that waits there goes on, be its unit in service as when it asked or not. -/
def Device.granted (d : Device) (t : Nat) (r : TrellisReq) : Device :=
  match r.owner with
  | .lsu e =>
    let now := fun (l : LsuRun) => decide (d.targetFor (d.place e l.addr) = t)
    let then_ := fun (l : LsuRun) => decide (targetOf (d.place e l.addr) = t)
    let ls := (d.eng e).lsu.filter (fun l => !l.granted)
    d.onEng e (fun y => { y with lsu := grantOldest (if ls.any now then now else if ls.any then_ then then_ else fun _ => true) y.lsu })
  | _ => d

/-- The request that owns a reserved slot of target port t in this period (R317, R389). -/
def Device.slotRequest (d : Device) (t : Nat) : Option TrellisReq :=
  (d.target t).waiting.find? (fun r => r.slotted && r.owner.engine.any (slotNow d.now t))

/-- TARGET_GRANT (R318, R389) of target port t: the owner of a reserved slot, which counts in no round; else the port's choice of the others. -/
def Device.targetGrant (d : Device) (t : Nat) : Device :=
  match d.slotRequest t with
  | some r => (d.onTarget t (fun x => { x with waiting := x.waiting.erase r })).granted t r
  | none =>
    match d.choose (d.target t).inRound ((d.target t).waiting.filter (fun r => !r.slotted)) with
    | some r => (d.onTarget t (fun x => x.grant r)).granted t r
    | none => d

/-! ### The default target (R393, R394) -/

/-- The status of a request (R393); 0 where it goes to a target of its own. -/
def Device.requestStatus (d : Device) (part : Option Nat) (a : Nat) (write : Bool) : Nat :=
  match part with
  | some p => d.partStatus p a 1 write
  | none =>
    match regionOf a with
    | none => 1
    | some r =>
      if absentUnit d.grade a then 2 else if d.offline a then 3
      else match r with
        | .flash _ => if write then 6 else if d.uncorrectable a 1 then 9 else 0
        | .points => if write then 6 else if d.uncorrectable a 1 then 9 else 0
        | _ => if d.uncorrectable a 1 then 9 else 0

/-- DEFAULT_TARGET (R393, R394): data 0, no write, and the log of a master that is no engine. An uncorrectable error is the answer of the target
itself; of it only the log is left. -/
def Device.defaultTarget (d : Device) (master : Nat) (part : Option Nat) (a : Nat) (write : Bool) : Device :=
  let st := d.requestStatus part a write
  if st = 0 then d else
  let d := if write || decide (st = 9) then d else { d with answer := 0 }
  if master < 64 then d
  else if master ∈ [132, 133, 151, 152] then d.logError none master st a
  else match part with | some p => d.logError (some p) master st a | none => d

/-- FENCE_DRAIN_END (R395): no transaction of an earlier epoch of partition p remains. -/
def Device.fenceDrainEnd (d : Device) (p : Nat) : Device :=
  if (d.part p).fence then d.onPart p (fun x => { x with fence := false }) else d

/-! ### Units leave service (R74, R235, R401) -/

/-- Is a unit present in the grade? -/
def Device.unitPresent (d : Device) (cls : UnitClass) (u : Nat) : Bool :=
  match cls with
  | .cluster => decide (u < d.grade.clusters)
  | .fieldLane => decide (u < d.grade.fieldLanes)
  | .linkLane => decide (u < d.grade.linkLanes)
  | .dramStack => decide (u < d.grade.stacks)

/-- The domain that feeds a unit (R495). -/
def unitDomain (cls : UnitClass) (u : Nat) : Nat :=
  match cls with | .cluster => u | .fieldLane => 72 + u / 8 | .linkLane => 82 | .dramStack => 68 + u

/-- Every point of the inbound windows of link lane m gains STALE (R438). -/
def Device.staleWindows (d : Device) (m : Nat) : Device :=
  foldDev (fun d j =>
    let a := d.reg (.lnkXwa j)
    let b := d.reg (.lnkXwb j)
    if bit a 31 && bit a 30 && decide (fld b 16 4 = m) then d.markStale (fld a 0 25) (fld a 0 25 + fld b 0 16) else d) d (List.range 64)

/-- LNK.STATm changes; a change of UP raises the lane's status source (R299, R440). -/
def Device.linkStatus (d : Device) (m : Nat) (w : Word) : Device :=
  let was := bit (d.reg (.lnkStat m)) 0
  let d := d.setReg (.lnkStat m) w
  if was = bit w 0 then d else d.raise (0x80 + 2 * m + 1)

/-- Does partition p own or import a point range (R235)? -/
def Device.usesPoints (d : Device) (p : Nat) : Bool :=
  !(d.homeRouters p).isEmpty ||
  (List.range 256).any (fun n => bit (d.reg (.ptrIxb n)) 31 && decide (fld (d.reg (.ptrIxb n)) 16 4 = p))

/-- A unit leaves service (R401): it is marked, a return of it is abandoned (R404), and what depends on it is held or marked. -/
def Device.takeOut (d : Device) (cls : UnitClass) (u : Nat) : Device :=
  let d := d.setOffline cls u true
  let d := { d with returning := d.returning.filter (fun (r : Returning) => decide (r.cls ≠ cls ∨ r.unit ≠ u)) }
  match cls with
  | .cluster =>
    match d.clusterOwner u with
    | some p => ((d.resetPart p 3).setRegBit (.parCause p) 3 true).onPart p (fun x => { x with heldCluster := true })
    | none => d
  | .fieldLane => d.onLane u (fun l => { l with waiting := [], identPending := [] })
  | .linkLane => (d.staleWindows u).linkStatus u 0
  | .dramStack =>
    if u ≠ d.grade.stacks - 1 then d
    else foldDev (fun d p =>
      if d.valid p && d.usesPoints p then
        ((d.resetPart p 3).setRegBit (.parCause p) 4 true).onPart p (fun x => { x with heldStack := true })
      else d) d partNumbers

/-- The last command of TRL.SVC (R406). -/
def Device.svcCommand (d : Device) (cls : UnitClass) (u state : Nat) : Device :=
  let c := match cls with | .cluster => 0 | .fieldLane => 1 | .linkLane => 2 | .dramStack => 3
  d.setReg .trlSvcst (word (state * 256 + c * 64 + u))

/-- OUT_OF_SERVICE (R401, R404): TRL.SVC command 1. A unit that is out of service already leaves nothing; its return is abandoned. -/
def Device.outOfService (d : Device) (cls : UnitClass) (u : Nat) : Device :=
  if !d.unitPresent cls u then d
  else if d.isOffline cls u then
    { d.svcCommand cls u 0 with returning := d.returning.filter (fun (r : Returning) => decide (r.cls ≠ cls ∨ r.unit ≠ u)) }
  else (d.svcCommand cls u 0).takeOut cls u

/-! ### Units return (R72, R402) -/

/-- Move a returning unit to a state. -/
def Device.moveUnit (d : Device) (cls : UnitClass) (u : Nat) (s : SvcState) (n : Nat) : Device :=
  ({ d with returning := d.returning.map (fun (r : Returning) => if r.cls = cls ∧ r.unit = u then { r with state := s } else r) }).svcState cls u n

/-- Is a unit returning, in a state? -/
def Device.inReturn (d : Device) (cls : UnitClass) (u : Nat) (s : SvcState) : Bool :=
  d.returning.any (fun (r : Returning) => decide (r = { cls := cls, unit := u, state := s }))

/-- The domain of a returning unit is on: its zero-fill begins (R402). -/
def Device.startFill (d : Device) (cls : UnitClass) (u : Nat) : Device :=
  let d := d.moveUnit cls u .fill 2
  match cls with
  | .dramStack =>
    let d := d.evict (fun l => decide ((l.line * 64 - 0x1000000000) / 0x400000000 = u))
    { d with unfilled := d.unfilled.filter (fun g => decide (g / 1024 ≠ u)) ++ (List.range 1024).map (fun i => 1024 * u + i) }
  | _ => d

/-- RETURN (R402, R404): TRL.SVC command 2. -/
def Device.returnUnit (d : Device) (cls : UnitClass) (u : Nat) : Device :=
  if !d.unitPresent cls u then d
  else if !d.isOffline cls u then d.svcCommand cls u 7
  else if d.returning.any (fun r => decide (r.cls = cls ∧ r.unit = u)) then d
  else
    let d := { d with returning := d.returning ++ ([{ cls := cls, unit := u, state := .power }] : List Returning) }
    let d := d.svcCommand cls u 1
    match Assoc.get DomState.off d.domains (unitDomain cls u) with
    | .on => d.startFill cls u
    | .fault => d
    | _ => d.setDomains (unitDomain cls u) 1 .ramp

/-- The subscription tables and the point store are zero-filled, with their check bits (R189, R235). -/
def Device.fillPointStore (d : Device) : Device :=
  let d := { (d.dropMarks (pointAddr 0) 0x40000000) with points := [], staleRanges := [], subs := [] }
  foldDev (fun d p => foldDev (fun d r => d.setReg (.ptrSubuse p r) 0) d [0, 1, 2, 3]) d partNumbers

/-- The memories of cluster c are zero-filled (R188). -/
def Device.fillCluster (d : Device) (c : Nat) : Device :=
  ((d.zeroFill (0x100000000 + c * 0x100000) 0x100000).zeroFill (0x200000000 + c * 0x400000) 0x400000).zeroFill
    (0x280000000 + c * 0x10000) 0x10000

/-- What the image places into the code SRAM of cluster c. -/
def Device.codeFor (d : Device) (c : Nat) : List CodeCopy :=
  match d.image with | none => [] | some i => i.layout.codeCopies.filter (fun k => decide (k.cluster = c))

/-- The code of cluster c is placed into its code SRAM (R188, R478 stage 6); code flash that reads as uncorrectable is placed nowhere, and the
configuration engine logs the status (R394). -/
def Device.placeCode (d : Device) (c : Nat) : Device :=
  foldDev (fun d (k : CodeCopy) =>
    let a := 0x300000000 + c * 0x800000 + k.fromOff
    if d.uncorrectable a k.len then d.logError none 152 9 a
    else d.writeBytes (0x200000000 + c * 0x400000 + k.toOff) (d.bytes a k.len)) d (d.codeFor c)

/-- The configuration engine's requests for the code SRAM of a cluster out of service go to the default target, which discards them (R393, R394). -/
def Device.refuseCode (d : Device) (c : Nat) : Device :=
  match d.codeFor c with | [] => d | k :: _ => d.logStatus none 152 3 (0x200000000 + c * 0x400000 + k.toOff)

/-- Every page of a stack is filled: its self-test starts. -/
def Device.stackFilled (d : Device) (u : Nat) : Device :=
  if d.inReturn .dramStack u .fill && !d.unfilled.any (fun g => decide (g / 1024 = u)) then
    let d := d.moveUnit .dramStack u .test 3
    if u = d.grade.stacks - 1 then d.fillPointStore else d
  else d

/-- PAGE_FILL_COMPLETE (R189): a 16 MiB page is clear. -/
def Device.pageFillComplete (d : Device) (page : Nat) : Device :=
  if page ∉ d.unfilled then d else
  let d := d.zeroFill (0x1000000000 + page * 0x1000000) 0x1000000
  ({ d with unfilled := d.unfilled.filter (· ≠ page) }).stackFilled (page / 1024)

/-- ZERO_FILL_COMPLETE (R402): the zero-fill of a returning unit is done and its self-test starts. -/
def Device.zeroFillComplete (d : Device) (cls : UnitClass) (u : Nat) : Device :=
  if !d.inReturn cls u .fill then d else
  match cls with
  | .cluster => (d.fillCluster u).moveUnit cls u .test 3
  | .dramStack =>
    let d := d.zeroFill (0x1000000000 + u * 0x400000000) 0x400000000
    ({ d with unfilled := d.unfilled.filter (fun g => decide (g / 1024 ≠ u)) }).stackFilled u
  | _ => d.moveUnit cls u .test 3

/-- The local engine that the spare of cluster c serves, by fuse or by an earlier self-test (R72). -/
def Device.spareServes (d : Device) (c : Nat) : Option Nat :=
  match (d.fusedSpares.find? (fun x => decide (x.1 = c))).map (fun x => x.2.toNat) with
  | some l => some l
  | none => (d.failedSlots.find? (fun x => decide (x.1 = c))).map (·.2)

/-- SPARE_MAP (R72, R74, R75): the physical slots that a self-test of cluster c finds failed, 16 the spare; does the spare cover them? CLFAIL shows
that it does not. -/
def Device.spareMap (d : Device) (c : Nat) (failed : List Nat) : Bool × Device :=
  let served := d.spareServes c
  let spareGood := decide (16 ∉ failed)
  match (failed.filter (fun l => decide (l < 16 ∧ served ≠ some l))).dedup with
  | [] => if served.isNone || spareGood then (true, d) else (false, d.setRegBit (.cfgSpare c) 11 true)
  | [l] =>
    if served.isNone && spareGood then (true, { d with failedSlots := d.failedSlots ++ [(c, l)] })
    else (false, d.setRegBit (.cfgSpare c) 11 true)
  | _ => (false, d.setRegBit (.cfgSpare c) 11 true)

/-- SELF_TEST_COMPLETE (R402): the unit waits for its epoch, or it stays out and STATE reads FAILED. -/
def Device.selfTestComplete (d : Device) (cls : UnitClass) (u : Nat) (pass : Bool) (failed : List Nat) : Device :=
  if !d.inReturn cls u .test then d else
  let (covered, d) := match cls with | .cluster => d.spareMap u failed | _ => (true, d)
  if pass && covered then
    let d := match cls with | .cluster => d.placeCode u | _ => d
    d.moveUnit cls u .waitEpoch 4
  else ({ d with returning := d.returning.filter (fun (r : Returning) => decide (r.cls ≠ cls ∨ r.unit ≠ u)) }).svcState cls u 6

/-- DEFAULT_TARGET (R393). -/
def execDefaultTarget (m : Nat) (p : Option Nat) (a : Nat) (w : Bool) (s : State) : Host.Outcome State Fault Refusal :=
  .next (s.onDev (fun d => d.defaultTarget m p a w))
/-- TARGET_GRANT (R389). -/
def execTargetGrant (t : Nat) (s : State) : Host.Outcome State Fault Refusal := .next (s.onDev (fun d => d.targetGrant t))
/-- FENCE_DRAIN_END (R395). -/
def execFenceDrainEnd (p : Nat) (s : State) : Host.Outcome State Fault Refusal := .next (s.onDev (fun d => d.fenceDrainEnd p))
/-- OUT_OF_SERVICE (R401). -/
def execOutOfService (c : UnitClass) (u : Nat) (s : State) : Host.Outcome State Fault Refusal :=
  .next (s.onDev (fun d => d.outOfService c u))
/-- RETURN (R402). -/
def execReturnUnit (c : UnitClass) (u : Nat) (s : State) : Host.Outcome State Fault Refusal :=
  .next (s.onDev (fun d => d.returnUnit c u))
/-- SELF_TEST_COMPLETE (R402). -/
def execSelfTestComplete (c : UnitClass) (u : Nat) (ok : Bool) (f : List Nat) (s : State) : Host.Outcome State Fault Refusal :=
  .next (s.onDev (fun d => d.selfTestComplete c u ok f))
/-- PAGE_FILL_COMPLETE (R189). -/
def execPageFillComplete (g : Nat) (s : State) : Host.Outcome State Fault Refusal := .next (s.onDev (fun d => d.pageFillComplete g))
/-- ZERO_FILL_COMPLETE (R402). -/
def execZeroFillComplete (c : UnitClass) (u : Nat) (s : State) : Host.Outcome State Fault Refusal :=
  .next (s.onDev (fun d => d.zeroFillComplete c u))

end Sys2Proof.Machine
end

