-- ==== Sys2Proof/Machine/Image.lean ====
section
/-! DEFINITION. The configuration memory as Configure reads it: boot record, Plovgil image, verification, settings generations (R8, R33,
R233, R248, R259, R340, R369, R390, R397, R416, R437, R459 to R473). -/

namespace Sys2Proof.Machine

/-! ### The boot record (R463) -/

def bootMagic : Nat := 0x54424F42

/-- The address of the valid boot record. -/
def Device.bootRecord (d : Device) : Option Nat := d.validSector 0 0x1000 bootMagic 0x10

/-- A byte of the valid boot record. -/
def Device.bootByte (d : Device) (off dflt : Nat) : Nat :=
  match d.bootRecord with | some a => fromBytes (d.norBytes (a + off) 1) | none => dflt

/-- CUR, as slot B or not. -/
def Device.bootCur (d : Device) : Bool := decide (d.bootByte 8 0 = 1)
/-- NEXT. -/
def Device.bootNext (d : Device) : Option Bool := match d.bootByte 9 0xFF with | 0 => some false | 1 => some true | _ => none
/-- FELL: the last trial fell back. -/
def Device.bootFell (d : Device) : Bool := decide (d.bootByte 0xA 0xFF = 0)
/-- CGEN. -/
def Device.bootCgen (d : Device) : Nat := match d.bootRecord with | some a => d.norWord (a + 0xC) | none => 0
/-- ATT: the tally bytes equal to 0. -/
def Device.bootTally (d : Device) : Nat :=
  match d.bootRecord with | some a => ((d.norBytes (a + 0x40) 3).filter (fun b => decide (b = 0))).length | none => 0

/-- The bytes of a boot record with a tally. -/
def bootBytes (seq : Nat) (cur : Bool) (next : Option Bool) (fell : Bool) (cgen tally : Nat) : List Byte :=
  let body := toBytes 4 bootMagic ++ toBytes 4 seq ++
    ([if cur then 1 else 0, match next with | some true => 1 | some false => 0 | none => 0xFF, if fell then 0 else 0xFF, 0xFF] : List Byte) ++ toBytes 4 cgen
  body ++ toBytes 4 (crc32 body).toNat ++ List.replicate 44 0xFF ++ List.replicate tally 0

/-- Write a new boot record, into the other sector, with the next SEQ (R463). -/
def Device.writeBoot (d : Device) (cur : Bool) (next : Option Bool) (fell : Bool) (cgen tally : Nat) : Device :=
  let seq := match d.bootRecord with | some a => d.norWord (a + 4) + 1 | none => 1
  d.writeOther 0 0x1000 bootMagic 0x10 (bootBytes seq cur next fell cgen tally)

/-! ### The Plovgil header (R460, R461) -/

/-- The first address of a slot (R459). -/
def slotBase (b : Bool) : Nat := if b then 0x08000000 else 0x01000000
/-- 112 MiB, the size of a slot. -/
def slotSize : Nat := 0x7000000

/-- MAGIC and FORMAT of the image in a slot. -/
def Device.headerOk (d : Device) (b : Bool) : Bool :=
  decide (d.norWord (slotBase b) = 0x47564C50) && decide (d.norWord (slotBase b + 4) = 1)
/-- INSTAR of the image in a slot. -/
def Device.slotInstar (d : Device) (b : Bool) : Nat := d.norWord (slotBase b + 8)

/-- A section table entry. -/
structure Section where
  kind : Nat
  target : Nat
  off : Nat
  len : Nat
  digest : List Byte
  deriving DecidableEq, Repr

/-- The sections of the image at a slot base. -/
def Device.sections (d : Device) (base : Nat) : List Section :=
  (List.range (d.norWord (base + 0x20))).map (fun i =>
    let a := base + 0x80 + 48 * i
    { kind := d.norWord a, target := d.norWord (a + 4), off := d.norWord (a + 8), len := d.norWord (a + 12), digest := d.norBytes (a + 16) 32 })

/-- The bytes that code flash holds for a section. -/
def Device.flashBytes (d : Device) (s : Section) : List Byte :=
  if s.kind = 1 then d.bytes (0x300000000 + s.target * 0x800000) s.len
  else ((d.flashKept.find? (fun k => decide (k.1 = s.kind))).map (·.2)).getD []

/-- Does code flash hold a section's bytes (R466 item 5)? -/
def Device.flashHas (d : Device) (s : Section) : Bool := decide (sha256 (d.flashBytes s) = s.digest)

/-- May a section of a slot be programmed: inside the slot, at most 8 MiB for a window of a present cluster (R461)? -/
def Device.sectionFits (d : Device) (s : Section) : Bool :=
  decide (s.off + s.len ≤ slotSize) && (decide (s.kind ≠ 1) || (decide (s.len ≤ 0x800000) && decide (s.target < d.grade.clusters)))

/-! ### The checks of an image's layout (R466 item 7) -/

/-- A block that holds a layout's tables, as the checks read them. -/
def Device.withTables (d : Device) (l : Layout) : Device := { grade := d.grade, regs := l.tables }

/-- Are two masks disjoint for every two partitions? -/
def apart (t : Nat → Word) : Bool := partNumbers.all (fun p => partNumbers.all (fun q => decide (p = q) || decide (t p &&& t q = 0)))

/-- R23 and R397. -/
def Device.partitionsOk (t : Device) : Bool :=
  let v := partNumbers.filter (fun p => t.valid p)
  let own := fun (f : Nat → Reg) (p : Nat) => if t.valid p then t.reg (f p) else 0
  let top := t.grade.stacks * 1024 - 66 - (if t.grade.hasCellar then 512 else 0)
  let ranges := (v.map (fun p => [0, 1, 2, 3].filterMap (fun i =>
    let l := t.reg (.parDrl p i)
    if bit l 31 then some (p, fld (t.reg (.parDrb p i)) 0 12, fld l 0 12) else none))).flatten
  !v.isEmpty && v.all (fun p => !(t.partClusters p).isEmpty) &&
  apart (own .parCll) && apart (own .parClh) && apart (own .parFll) && apart (own .parFlh) && apart (own .parWays) &&
  apart (fun p => own .parOwn p &&& 0x1FFFF) &&
  ranges.all (fun r => decide (r.2.2 < top) &&
    ranges.all (fun s => decide (r.1 = s.1) || decide (r.2.2 < s.2.1) || decide (s.2.2 < r.2.1))) &&
  v.all (fun p => decide (fld (t.reg (.parQos p)) 4 4 ≤ fld (t.reg (.parQos p)) 0 4)) &&
  (t.grade.hasCellar || (List.range 128).all (fun n => decide (t.reg (.parNs n) &&& 0x80808080 = 0)))

/-- R233: the range table. -/
def Device.rangesOk (t : Device) : Bool :=
  let rs := (List.range 64).filterMap (fun n =>
    let l := t.reg (.ptrRl n)
    if bit l 31 then some (n, fld (t.reg (.ptrRb n)) 0 13, fld l 0 13, fld l 24 2) else none)
  rs.all (fun r => decide (r.2.1 ≤ r.2.2.1) && decide (r.2.2.2 < t.grade.dies) &&
    rs.all (fun s => decide (r.1 = s.1) || decide (r.2.2.1 < s.2.1) || decide (s.2.2.1 < r.2.1)))

/-- R23, R33 and R248: Paced start modes; shares: a slot belongs to one partition, so a period of the window has no more shares of a router than the
slots it offers (R247). -/
def Device.startOk (t : Device) (l : Layout) : Bool :=
  (List.range 4).all (fun r =>
    let mine := l.shareSlots.filter (fun s => decide (s.1 = r))
    decide (mine.length ≤ 128) && mine.all (fun s =>
      decide (s.2.2 < 64) && decide ((mine.filter (fun u => decide (u.2.2 = s.2.2))).length ≤ slotsOf s.2.2))) &&
  partNumbers.all (fun p => !t.valid p || decide (fld (t.reg (.parStart p)) 0 3 ≠ 2) ||
    (decide (p ∈ l.codeInSram) && (t.homeRouters p).all (fun r => l.shareSlots.any (fun s => decide (s.1 = r ∧ s.2.1 = p)))))

/-- Is a point in the run of an inbound window (R436), and of which link lane? -/
def Device.windowLane (t : Device) (pt : Nat) : Option Nat :=
  ((List.range 64).find? (fun j =>
    let a := t.reg (.lnkXwa j)
    bit a 31 && bit a 30 && decide (fld a 0 25 ≤ pt ∧ pt ≤ fld a 0 25 + fld (t.reg (.lnkXwb j)) 0 16))).map
    (fun j => fld (t.reg (.lnkXwb j)) 16 4)

/-- The bytes of a map entry's slot (R258). -/
def MapEntry.bytes (e : MapEntry) : Nat := 2 ^ e.width.toNat

/-- Do a descriptor's offsets lie in the cycle of n pace periods, and its lengths in the frames a lane can carry (R413, R416; log entry 66)? -/
def Descriptor.fits (x : Descriptor) (n : Nat) : Bool :=
  (decide (n = 0) || decide (x.take < n ∧ x.send < n)) && decide (x.pdin ≤ maxPdlen true ∧ x.pdout ≤ maxPdlen true)

/-- R258, R259 and R416: the maps and the descriptors of lane n; one with a reserved bit or value is refused (log entry 66). -/
def Device.laneMapOk (t : Device) (l : Layout) (n : Nat) : Bool :=
  let ins := (l.entriesIn n).filter (·.valid)
  let outs := (l.entriesOut n).filter (·.valid)
  let desc := fun (f : Nat) => l.descriptor n f
  let p := t.laneOwner n
  let mine := fun (pt : Nat) => decide (p ≠ none ∧ (t.pointRange pt).map (·.2) = p)
  let used := (List.range 256).filter (fun f => (desc f).used)
  let cycle := match p with | some p => fld (t.reg (.timCycle p)) 0 24 | none => 0
  decide ((Assoc.get [] l.mapIn n).length ≤ 8 * 65536) && decide ((Assoc.get [] l.mapOut n).length ≤ 8 * 65536) &&
  (ins ++ outs).all (fun e => !e.reserved) && (List.range 256).all (fun f => !(desc f).reserved) &&
  ins.all (fun e => mine e.point && (t.windowLane e.point).isNone && decide (e.offset + e.bytes ≤ (desc e.frame).pdin)) &&
  outs.all (fun e => mine e.point && decide (e.offset + e.bytes ≤ (desc e.frame).pdout)) &&
  decide ((used.map (fun f => (desc f).station)).dedup.length ≤ 32) &&
  used.all (fun f => (desc f).fits cycle && (!(desc f).outbound || decide (cycle ≠ 0)))

/-- R340: the grants of every cluster and its bmv reserve. -/
def Device.grantsOk (t : Device) (l : Layout) : Bool :=
  (List.range t.grade.clusters).all (fun c =>
    decide (((List.range 16).map (fun i => Assoc.get 0 l.grants (16 * c + i))).sum + (if c ∈ l.bmvReserve then 16 else 0) ≤ 320))

/-- R369: BLOCK only without lanes, host port, exports and imports. -/
def Device.blockOk (t : Device) (p : Nat) : Bool :=
  !t.valid p || decide (fld (t.reg (.celCtl p)) 2 2 ≠ 2) ||
  ((t.partLanes p).isEmpty && decide (t.hostOwner ≠ some p) &&
    (List.range 256).all (fun n => !bit (t.reg (.ptrIxb n)) 31 ||
      (decide (fld (t.reg (.ptrIxb n)) 16 4 ≠ p) && decide ((t.pointRange (fld (t.reg (.ptrIxa n)) 0 25)).map (·.2) ≠ some p))))

/-- R437: inbound windows lie in ranges of the partition that holds their lane, which does not record. -/
def Device.windowsOk (t : Device) (l : Layout) : Bool :=
  (List.range 64).all (fun j =>
    let a := t.reg (.lnkXwa j)
    let b := t.reg (.lnkXwb j)
    if bit a 31 && bit a 30 then
      match t.linkOwner (fld b 16 4) with
      | some p =>
        let lo := fld a 0 25 / 4096
        decide (p ∉ l.recording) && (List.range ((fld a 0 25 + fld b 0 16) / 4096 + 1 - lo)).all (fun k =>
          decide ((t.pointRange (4096 * (lo + k))).map (·.2) = some p))
      | none => false
    else true)

/-- Item 7 of R466; a grade without the Cellar records nothing (R343), and no register stands in the tables twice. -/
def Device.layoutOk (d : Device) (l : Layout) : Bool :=
  let t := d.withTables l
  decide ((l.tables.map (·.1)).Nodup) && t.partitionsOk && t.rangesOk && t.startOk l && t.grantsOk l && t.windowsOk l &&
  decide ((partNumbers.map (fun p => if t.valid p then fld (t.reg (.parQos p)) 8 6 else 0)).sum ≤ 60) &&
  partNumbers.all (fun p => t.blockOk p) && (List.range t.grade.fieldLanes).all (fun n => t.laneMapOk l n) &&
  decide (((l.mapIn ++ l.mapOut).map (fun x => x.2.length)).sum ≤ 8 * 4194304) && (t.grade.hasCellar || l.recording.isEmpty)

/-! ### Verification (R8, R462, R466) -/

/-- What stage 4 and stage 5 find: the reason of R490 (0 none), the layout, the defaults, and whether stage 5 ran. -/
structure Verified where
  dev : Device
  reason : Nat
  layout : Layout := {}
  defaults : List (Nat × Word) := []
  prog : Bool := false
  deriving DecidableEq, Repr

/-- R8: a required unit that is absent, or a size below the minimum. -/
def Device.unitsOk (d : Device) (base : Nat) : Bool :=
  let u := word (d.norWord (base + 0x10))
  let m := word (d.norWord (base + 0x14))
  decide (u &&& ~~~ d.grade.units = 0) &&
  [0, 8, 16, 24].all (fun i => decide (fld m i 8 ≤ fld d.grade.size i 8))

/-- R462: the signature, where an anchor is set. -/
def Device.signatureFits (d : Device) (base : Nat) : Bool :=
  match d.keys.anchor with
  | none => true
  | some a =>
    let key := d.norBytes (base + 0xE00) 97
    decide (sha256 key = a) && signatureOk key (d.norBytes (base + 0xF00) 96) (d.norBytes base 0xF00)

/-- Stage 5 programs a section that differs into code flash (R461, R466). IMGDIG is not recorded until all stand. -/
def Device.programSection (d : Device) (x : Section × List Byte) : Device :=
  let at_ := 0x300000000 + x.1.target * 0x800000
  let d : Device := { d with flashDig := [] }
  if x.1.kind = 1 then (d.zeroFill at_ 0x800000).writeBytes at_ x.2 else { d with flashKept := Assoc.put d.flashKept x.1.kind x.2 }

/-- Stage 5 (R466 item 6): the sections go into code flash, windows that none names are erased, IMGDIG comes last. -/
def Device.programFlash (d : Device) (held : List (Section × List Byte)) (dig : List Byte) : Device :=
  let d := d.zeroFill 0x300000000 0x20000000
  let d := foldDev (fun d (x : Section × List Byte) =>
    if x.1.kind = 1 then d.writeBytes (0x300000000 + x.1.target * 0x800000) x.2 else d) d held
  { d with flashKept := (held.filter (fun x => decide (x.1.kind ≠ 1))).map (fun x => (x.1.kind, x.2)), flashDig := dig }

/-- Stages 4 and 5 on a slot (R466). The first failure ends it; one of stage 5 leaves the sections before it programmed. -/
def Device.verify (d : Device) (b : Bool) : Verified :=
  let base := slotBase b
  let nsect := d.norWord (base + 0x20)
  if !d.headerOk b || decide (nsect = 0 ∨ 64 < nsect ∨ slotSize < d.norWord (base + 0x24)) then { dev := d, reason := 1 }
  else if !d.signatureFits base then { dev := d, reason := 2 }
  else
    let dig := d.norBytes (base + 0x40) 32
    if sha256 (d.norBytes (base + 0x80) 0xC00) ≠ dig then { dev := d, reason := 3 }
    else if !d.unitsOk base then { dev := d, reason := 4 }
    else
      let ss := d.sections base
      let differ := ss.filter (fun s => !d.flashHas s)
      let good := fun (s : Section) => d.sectionFits s && decide (sha256 (d.norBytes (base + s.off) s.len) = s.digest)
      if !differ.all good then
        { dev := foldDev (fun x s => x.programSection (s, d.norBytes (base + s.off) s.len)) d (differ.takeWhile good), reason := 5, prog := true }
      else
        let prog := !differ.isEmpty || decide (d.flashDig ≠ dig)
        let held := ss.map (fun s => (s, if d.flashHas s then d.flashBytes s else d.norBytes (base + s.off) s.len))
        let of_ := fun (k : Nat) => ((held.find? (fun x => decide (x.1.kind = k))).map (·.2))
        let d := if prog then d.programFlash held dig else d
        match (of_ 2).bind Config.parseLayout with
        | none => { dev := d, reason := 6, prog := prog }
        | some l =>
          if !d.layoutOk l then { dev := d, reason := 6, prog := prog }
          else { dev := d, reason := 0, layout := l, defaults := ((of_ 3).map Config.parseDefaults).getD [], prog := prog }

/-! ### Settings generations (R468 to R473) -/

/-- The bits of a register whose Reset column reads "settings". -/
def Reg.settingsMask : Reg → Word
  | .pwrCctl => 0xFFFF0000
  | .pwrDom n => if n < 68 then 0xFF00 else 0
  | .timCtl => 0x3
  | .fldLctl _ => 0xAF
  | .fldMacl _ => 0xFFFFFFFF
  | .fldMach _ => 0xFFFF
  | .fldWake _ => 0xFFFFFFFF
  | .lnkCtl _ => 0x3F
  | .lnkId => 0xF
  | .stoPctl _ => 0x7
  | .hstCtl => 0x1
  | .idnSeg _ => 0xF3
  | _ => 0

/-- The register with a settings field at an address of this grade. -/
def Device.settingReg (d : Device) (a : Nat) : Option Reg :=
  match Reg.ofAddr a with
  | some r => if r.settingsMask ≠ 0 ∧ !r.absent d.grade ∧ !blockAbsent d.grade r.block.number then some r else none
  | none => none

/-- The sectors of the settings store that hold a generation. -/
def Device.generations (d : Device) : List Nat :=
  if d.norPresent then ((List.range 16).map (fun i => 0x100000 + 0x10000 * i)).filter (fun a => decide (d.norWord a = 0x4E454753)) else []

/-- HWCNT and FWLEN of a generation. -/
def Device.hwCount (d : Device) (a : Nat) : Nat := d.norWord (a + 0x10)
def Device.fwLen (d : Device) (a : Nat) : Nat := d.norWord (a + 0x14)

/-- Is a generation's CRC correct, within its sector? -/
def Device.genOk (d : Device) (a : Nat) : Bool :=
  decide (d.hwCount a ≤ 512) && decide (0x40 + 8 * d.hwCount a + d.fwLen a ≤ 0x10000) &&
  decide (word (d.norWord (a + 0x18)) = crc32 (d.norBytes a 0x18 ++ d.norBytes (a + 0x40) (8 * d.hwCount a + d.fwLen a)))

/-- Is a generation committed (R469)? -/
def Device.genCommitted (d : Device) (a : Nat) : Bool :=
  decide (d.norBytes (a + 0x1C) 1 = [0]) || (decide (d.bootCgen ≠ 0) && decide (d.bootCgen = d.norWord (a + 4)))

/-- The sector of the highest GEN. -/
def Device.newest (d : Device) : List Nat → Option Nat
  | [] => none
  | a :: rest => match d.newest rest with
    | none => some a
    | some b => if d.norWord (b + 4) < d.norWord (a + 4) then some a else some b

/-- The current generation (R469). -/
def Device.currentGen (d : Device) : Option Nat := d.newest (d.generations.filter (fun a => d.genCommitted a && d.genOk a))

/-- The generation an instar uses (R471). -/
def Device.selectGen (d : Device) (instar : Nat) : Option Nat :=
  match d.newest (d.generations.filter (fun a => !d.genCommitted a && decide (d.norWord (a + 0xC) = instar))) with
  | some a => some a
  | none => d.currentGen

/-- The hardware section of a generation: addresses and values. -/
def Device.genEntries (d : Device) (a : Nat) : List (Nat × Word) :=
  (List.range (d.hwCount a)).map (fun i => (d.norWord (a + 0x40 + 8 * i), word (d.norWord (a + 0x44 + 8 * i))))

/-- The address of an entry: its 32 bits are bits [31:0] of a device register's address. -/
def entryAddr (w : Nat) : Nat := 0xFF00000000 + w % 2 ^ 32

/-- Is a generation usable (R423, R470, R473)? -/
def Device.genUsable (d : Device) (a low high : Nat) : Bool :=
  d.genOk a && decide (low ≤ d.norWord (a + 8) % 65536 ∧ d.norWord (a + 8) % 65536 ≤ high) &&
  (d.genEntries a).all (fun e => (d.settingReg (entryAddr e.1)).isSome) &&
  decide (((List.range 64).filter (fun n =>
    match ((d.genEntries a).filter (fun e => decide (entryAddr e.1 = (Reg.fldLctl n).addr))).getLast? with
    | some e => bit e.2 7 | none => false)).length ≤ 2)

/-- What the running image takes from the settings store: the generation in use (0 for defaults) and its entries; none where the image
may not run (R471, R473). -/
def Device.settings (d : Device) (b : Bool) : Option (Nat × List (Nat × Word)) :=
  let base := slotBase b
  let schemas := d.norWord (base + 0x18)
  let dflt := if d.norWord (base + 0xC) / 2 % 2 = 1 then some (0, []) else none
  match d.selectGen (d.slotInstar b) with
  | some a => if d.genUsable a (schemas % 65536) (schemas / 65536) then some (d.norWord (a + 4), d.genEntries a) else dflt
  | none => dflt

/-- A value as its register takes it: VSET is clamped (R497). -/
def settingValue (r : Reg) (v : Word) : Word :=
  match r with
  | .pwrDom _ => setFld v 8 8 (max 140 (min 170 (fld v 8 8)))
  | _ => v

/-- Load entries into the settings fields of the registers that `which` names (R470). -/
def Device.loadSettings (d : Device) (which : Reg → Bool) (es : List (Nat × Word)) : Device :=
  let d := { d with regs := d.regs.map (fun (x : Reg × Word) => if which x.1 then (x.1, x.2 &&& ~~~ x.1.settingsMask) else x) }
  foldDev (fun d (e : Nat × Word) =>
    match d.settingReg (entryAddr e.1) with
    | some r => if which r then d.setReg r ((d.reg r &&& ~~~ r.settingsMask) ||| (settingValue r e.2 &&& r.settingsMask)) else d
    | none => d) d es

/-- The blocks whose settings wait for their domains (R470). -/
def Reg.lateSetting (r : Reg) : Bool := match r.block with | .fld | .sto | .lnk => true | _ => false

end Sys2Proof.Machine
end

