-- ==== Sys2Proof/Machine/ConfigMem.lean ====
section
/-! DEFINITION. The configuration engine: Configure and the commands on the configuration memory (R457 to R481, R490). -/

namespace Sys2Proof.Machine

/-! ### CFG.BOOT (R490) -/

/-- CFG.BOOT shows the running image, the trial and the last verification failure. -/
def Device.showBoot (d : Device) : Device :=
  let w := d.reg .cfgBoot
  let (slot, trial) := match d.image with | some i => (i.slotB, i.trial) | none => (false, false)
  let w := setFld w 10 2 (if trial then d.bootTally else 0)
  let w := setBit (setBit w 8 d.bootFell) 0 slot
  let w := setFld w 4 2 (if d.phase = .noimage then 3 else if trial then 2 else 1)
  d.setReg .cfgBoot w

/-! ### Image selection (R464) -/

/-- A slot chosen to run. -/
structure Chosen where
  slotB : Bool
  trial : Bool
  layout : Layout
  defaults : List (Nat × Word)
  gen : Nat
  entries : List (Nat × Word)
  deriving DecidableEq, Repr

/-- Verify a slot and its settings (R466, R473); a failure is recorded in CFG.BOOT.REASON. -/
def Device.trySlot (d : Device) (b trial : Bool) : Option Chosen × Device :=
  let v := d.verify b
  let d := if v.prog then v.dev.setRegBit .cfgBoot 6 true else v.dev
  if v.reason ≠ 0 then (none, d.setRegFld .cfgBoot 16 4 v.reason)
  else match d.settings b with
    | none => (none, d.setRegFld .cfgBoot 16 4 7)
    | some s => (some { slotB := b, trial := trial, layout := v.layout, defaults := v.defaults, gen := s.1, entries := s.2 }, d)

/-- CUR is verified; where it fails the other slot is tried as a trial (R464). -/
def Device.tryCurrent (d : Device) : Option Chosen × Device :=
  match d.trySlot d.bootCur false with
  | (some c, d) => (some c, d)
  | (none, d) =>
    match d.trySlot (!d.bootCur) true with
    | (some c, d) => (some c, d.writeBoot d.bootCur (some c.slotB) d.bootFell d.bootCgen 1)
    | (none, d) => (none, d)

/-- A trial that fails falls back to CUR (R464). -/
def Device.tryTrial (d : Device) (b : Bool) : Option Chosen × Device :=
  match d.trySlot b true with
  | (some c, d) => (some c, d)
  | (none, d) => (d.writeBoot d.bootCur none true d.bootCgen 0).tryCurrent

/-- IMAGE_SELECT (R464) after a reset of Module or Cold reach. -/
def Device.selectImage (d : Device) : Option Chosen × Device :=
  match d.bootRecord, d.bootNext with
  | some a, some n =>
    if 3 ≤ d.bootTally then (d.writeBoot d.bootCur none true d.bootCgen 0).tryCurrent
    else (d.norProgram (a + 0x40 + d.bootTally) [0]).tryTrial n
  | _, _ => d.tryCurrent

/-- After a Core reset the running slot and its state are kept (R464). -/
def Device.reselect (d : Device) : Option Chosen × Device :=
  match d.image with
  | some i =>
    if i.trial then d.tryTrial i.slotB
    else match d.trySlot i.slotB false with
      | (some c, d) => (some c, d)
      | (none, d) => d.tryCurrent
  | none => d.tryCurrent

/-- A generation that the boot record names gets its COMMIT byte (R469). -/
def Device.programCommits (d : Device) : Device :=
  if d.bootCgen = 0 then d
  else foldDev (fun d a => if d.norWord (a + 4) = d.bootCgen then d.norProgram (a + 0x1C) [0] else d) d d.generations

/-! ### Tables (R396) -/

/-- The bits of a register that the configuration engine writes from the image's tables. The routes of the power and thermal sources belong to ring 0
(R493). -/
def Reg.imageMask : Reg → Word
  | .parNs _ => 0x8F8F8F8F
  | .parCll _ | .parClh _ | .parFll _ | .parFlh _ => 0xFFFFFFFF
  | .parOwn _ => 0x8001FFFF
  | .parQos _ => 0x3FFF
  | .parWays _ => 0xFFFF
  | .parStart _ => 0x7
  | .parDrb _ _ => 0xFFF
  | .parDrl _ _ => 0x80000FFF
  | .trlMqos _ => 0xF
  | .evrRoute n => if 0xC0 ≤ n ∧ n < 0xD0 then 0 else 0xF8000000
  | .evrTctl _ => 0xF8000000
  | .ptrRb _ => 0x1FFF
  | .ptrRl _ => 0x83F01FFF
  | .ptrIxa _ => 0x1FFFFFF
  | .ptrIxb _ => 0x800FFFFF
  | .ptrSubq _ _ => 0x1FFFFF
  | .timCycle _ | .timPhase _ => 0xFFFFFF
  | .celCtl _ => 0xD
  | .celQuota _ => 0x3F00FF
  | .fldLctl _ => 0x50
  | .lnkXwa _ => 0xC1FFFFFF
  | .lnkXwb _ => 0x3FFFFFF
  | _ => 0

/-- TABLE_LOCK (R248, R340, R342, R396): stage 7 writes the tables of this image, 0 where it lists none, and locks them. -/
def Device.loadTables (d : Device) (l : Layout) : Device :=
  let d := { d with regs := d.regs.map (fun (x : Reg × Word) => (x.1, x.2 &&& ~~~ x.1.imageMask)) }
  let d := foldDev (fun d (t : Reg × Word) =>
    if t.1.absent d.grade then d else d.setReg t.1 ((d.reg t.1 &&& ~~~ t.1.imageMask) ||| (t.2 &&& t.1.imageMask))) d l.tables
  let d := foldDev (fun d r => foldDev (fun d p =>
    d.setReg (.ptrShare r p) (word (l.shareSlots.filter (fun s => decide (s.1 = r ∧ s.2.1 = p))).length)) d partNumbers) d (List.range d.grade.dies)
  let d := foldDev (fun d c =>
    let sum := ((List.range 16).map (fun i => Assoc.get 0 l.grants (16 * c + i))).sum
    d.setReg (.pwrCgrant c) (setBit (word sum) 9 (decide (c ∈ l.bmvReserve)))) d (List.range d.grade.clusters)
  d.setReg .parLock 1

/-! ### The stages (R478 to R481) -/

/-- Stage 6 (R72, R74, R188, R481): the SRAMs are filled, each cluster is tested, code is placed. Pages and the point store follow in
stage 7 (R189, R235). -/
def Device.fillAndTest (d : Device) (found : List (Nat × Nat)) : Device :=
  let flash := fun (a : Nat) => match regionOf a with | some (.flash _) => true | _ => false
  let d := { d with mem := d.mem.filter (fun c => flash c.1), marks := d.marks.filter (fun m => flash m.1), unfilled := [], cache := [] }
  let d := d.fillPointStore
  foldDev (fun d c =>
    let (ok, d) := d.spareMap c ((found.filter (fun x => decide (x.1 = c))).map (·.2))
    let d := if !ok then d.setOffline .cluster c true else if bit (d.reg (.cfgSpare c)) 11 then d.setRegBit (.cfgSpare c) 11 false else d
    let d := if d.image.any (fun i => i.layout.codeCopies.any (fun k => decide (k.cluster = c))) then
        (d.askMaster none 152 (0x300000000 + c * 0x800000)).askMaster none 152 (0x200000000 + c * 0x400000)
      else d
    if d.isOffline .cluster c then d.refuseCode c else d.placeCode c) d (List.range d.grade.clusters)

/-- The units whose domains are in FAULT stand out of service: a Core reset clears the marks of R401, and powers no domain that cannot be held (R496,
R498). -/
def Device.markFaulty (d : Device) : Device :=
  let bad := fun (d : Device) (n : Nat) => decide (d.domain n = .fault)
  let d := foldDev (fun d c => if bad d c then d.setOffline .cluster c true else d) d (List.range d.grade.clusters)
  let d := foldDev (fun d s => if bad d (68 + s) then d.setOffline .dramStack s true else d) d (List.range d.grade.stacks)
  let d := foldDev (fun d n => if bad d (72 + n / 8) then d.setOffline .fieldLane n true else d) d (List.range d.grade.fieldLanes)
  foldDev (fun d m => if bad d 82 then d.setOffline .linkLane m true else d) d (List.range d.grade.linkLanes)

/-- The partitions that a failed cluster holds (R74, R481). -/
def Device.holdFailed (d : Device) : Device :=
  foldDev (fun d p =>
    if (d.partClusters p).any d.clusterDown then (d.setRegBit (.parCause p) 3 true).onPart p (fun x => { x with heldCluster := true })
    else d) d partNumbers

/-- Stage 8 (R496): lane groups with an enabled lane, store ports and links power up. -/
def Device.powerLanes (d : Device) : Device := d.rampDomains 72 11

/-- Stage 9 (R422, R451): the segments are scanned, and the lanes ask their stations. -/
def Device.scanAll (d : Device) : Device :=
  let segs := (List.range 8).filter (fun s => bit (d.reg (.idnSeg s)) 1)
  let d := { d with scanning := (segs.map (fun s => (List.range 8).map (fun a => (s, a)))).flatten }
  foldDev (fun d n => if bit (d.reg (.fldLctl n)) 0 then d.identRequest n true else d) d (List.range d.grade.fieldLanes)

/-- NOIMAGE (R467). -/
def Device.noImage (d : Device) : Device :=
  ({ d with phase := .noimage, image := none, host := { d.host with busyLow := true } }).showBoot

/-- The configuration engine's writes into code flash of stage 5 (R386, R466). -/
def Device.askFlash (d : Device) : Device :=
  if !bit (d.reg .cfgBoot) 6 then d
  else foldDev (fun d c => d.askMaster none 152 (0x300000000 + c * 0x800000)) d (List.range d.grade.clusters)

/-- CONFIGURE (R464 to R481) to stage 7 as one step; `full` after a reset of Module or Cold reach. Stages 8 and 9 run on, after a Core reset stage 9,
and the partitions are released at the first admission epoch after them (log entry 41). -/
def Device.configure (d : Device) (full : Bool) : Device :=
  let found := d.selfTest
  let d := { d with selfTest := [] }.setRegBit .cfgBoot 6 false
  if !d.norPresent then d.noImage else
  let d := d.programCommits.stepEpochs
  match (if full then d.selectImage else d.reselect) with
  | (none, d) => d.noImage
  | (some c, d) =>
    let base := slotBase c.slotB
    let other := !c.slotB
    let d := { d with image := some {
      slotB := c.slotB, trial := c.trial, instar := word (d.slotInstar c.slotB), isSigned := decide (d.norWord (base + 0xC) % 2 = 1)
      pubkey := d.norBytes (base + 0xE00) 97, layout := c.layout } }
    let d := d.setReg .cfgInstar (word (d.slotInstar c.slotB))
    let d := d.setReg .cfgOther (if d.headerOk other then word (d.slotInstar other) else 0)
    let d := (d.setReg .cfgSetg (word c.gen)).setRegBit .cfgBoot 9 (decide (c.gen = 0))
    let d := d.loadSettings (fun r => full || !r.lateSetting) (c.defaults ++ c.entries)
    let d := d.askFlash.markFaulty.fillAndTest found
    let d := (d.askMaster none 152 (Reg.parLock.addr)).loadTables c.layout
    let d := d.holdFailed
    let d := if d.grade.hasCellar then foldDev (fun d p => d.loadKey p) d c.layout.recording else d
    let d := if full then d.powerLanes else d
    let d := { d with phase := .running, stage := some (if full then 8 else 9) }
    let d := d.scanAll
    ({ d with host := { d.host with busyLow := d.hostOwner.isSome }, enginesReset := [] }).showBoot

/-- Does an asserted source of Core reach or wider hold the module (R486)? -/
def Device.wideHeld (d : Device) : Bool := d.sources.any (fun s => decide (4 ≤ s.reach))

/-- The domains that come up before supply good (R496). -/
def Device.mainDomains (d : Device) : List Nat :=
  List.range d.grade.clusters ++ (List.range d.grade.dies).map (64 + ·) ++ (List.range d.grade.stacks).map (68 + ·) ++ [83]

/-- The same in the groups that start one behind the other (R496). -/
def Device.startGroups (d : Device) : List (List Nat) :=
  [[83], (List.range d.grade.dies).map (64 + ·), (List.range d.grade.stacks).map (68 + ·), List.range d.grade.clusters]

/-- The regulators of the first group that is not all on start (R496). -/
def Device.startNext (d : Device) : Device :=
  match d.startGroups.find? (fun g => g.any (fun n => decide (d.domain n ≠ .on))) with
  | some g => foldDev (fun d n => if d.domain n = .off then d.setDomains n 1 .ramp else d) d g
  | none => d

/-- Are they all on? -/
def Device.allOn (d : Device) : Bool := d.mainDomains.all (fun n => decide (d.domain n = .on))

/-- Configure begins once every wide source has released, main is good and EJECT# is high (R478, R487, R503). The domains that an eject drain has
switched off come up first (R496, R502); so do, after a Core reset, those of the units that the reset returns to service (R483). -/
def Device.tryConfigure (d : Device) : Device :=
  if d.wideHeld then d else
  match d.phase with
  | .off =>
    if d.pins.ejectLow && d.ejectReset then { d with phase := .ejected, ejectReset := false, pins := { d.pins with removeOk := true } }
    else if d.pins.mainGood && !d.pins.ejectLow then
      ({ d with pace := { d.pace.restart with tick := d.pace.tick } }).configure true
    else if d.pins.bankFull && !d.pins.mainGood then d.startNext
    else d
  | .configure =>
    let d := d.rampDomains 0 80
    if d.mainDomains.all (fun n => decide (d.domain n = .on ∨ d.domain n = .fault)) then d.configure false else d
  | _ => d

/-! ### CFG.COMMIT, CFG.FALLBACK (R474, R475) -/

/-- Is the module in Trial? -/
def Device.inTrial (d : Device) : Bool := match d.image with | some i => i.trial | none => false

/-- The newest generation that an instar wrote (R474). -/
def Device.newestOf (d : Device) (instar : Word) : Option Nat :=
  d.newest (d.generations.filter (fun a => decide (word (d.norWord (a + 0xC)) = instar)))

/-- COMMIT (R474). -/
def Device.commitTrial (d : Device) (v : Word) : Device :=
  match d.image with
  | none => d
  | some i =>
    if v ≠ 0x434D ∨ !i.trial then d else
    let g := d.newestOf i.instar
    let d := d.writeBoot i.slotB none false (match g with | some a => d.norWord (a + 4) | none => 0) 0
    let d := match g with | some a => d.norProgram (a + 0x1C) [0] | none => d
    ({ d with image := some { i with trial := false } }).showBoot

/-- FALLBACK (R475). -/
def Device.fallBack (d : Device) (v : Word) : Device :=
  if v ≠ 0x4642 ∨ !d.inTrial then d
  else (d.writeBoot d.bootCur none true d.bootCgen 0).assertSource 21 5 0 false

/-! ### CFG.QCMD (R459, R462, R465, R472, R490) -/

/-- QADDR, down to a multiple of n (log entry 14). -/
def Device.qaddr (d : Device) (n : Nat) : Nat := fld (d.reg .cfgQaddr) 0 28 / n * n

/-- Does an address lie in a range of R459? -/
def inConfigRange (a : Nat) : Bool :=
  decide (a < 0x2000) || decide (0x100000 ≤ a ∧ a < 0x220000) || decide (0x1000000 ≤ a ∧ a < 0xF000000)

/-- Does R472 refuse a program or erase at an address? -/
def Device.protectedAt (d : Device) (a : Nat) : Bool :=
  if !inConfigRange a ∨ a < 0x2000 then true
  else if a < 0x200000 then
    let s := a / 0x10000 * 0x10000
    decide (d.currentGen = some s) || (d.inTrial && decide (s ∈ d.generations) && d.genCommitted s)
  else if a < 0x1000000 then true
  else d.inTrial || (match d.image with | some i => decide (i.slotB = decide (0x8000000 ≤ a)) | none => true)

/-- Is a command of CFG.QCMD refused? -/
def Device.qcmdRefused (d : Device) (c : QCmd) : Bool :=
  (match d.phase with | .off | .configure | .noimage => true | _ => d.stage.isSome) || !d.norPresent ||
  match c with
  | .read => !inConfigRange (d.qaddr 256)
  | .program => d.protectedAt (d.qaddr 256)
  | .erase4k => d.protectedAt (d.qaddr 0x1000)
  | .erase64k => d.protectedAt (d.qaddr 0x10000)
  | .armTrial =>
    match d.image with
    | some i => i.trial || !d.headerOk (!i.slotB) || decide (d.slotInstar (!i.slotB) ≤ i.instar.toNat)
    | none => true
  | .anchor => d.keys.anchor.isSome || (match d.image with | some i => !i.isSigned | none => true)

/-- The 64 words of the page buffer. -/
def Device.pageBuffer (d : Device) : List Byte := wordsBytes ((List.range 64).map (fun i => d.reg (.cfgQbuf i)))

/-- The granule of a command's address. -/
def QCmd.granule : QCmd → Nat | .erase4k => 0x1000 | .erase64k => 0x10000 | _ => 256

/-- A command of CFG.QCMD starts, is refused, or is ignored while one runs (R490). It takes its address and its page at its start, so that what R459
and R472 permit is what it acts on. -/
def Device.qcmdStart (d : Device) (c : QCmd) : Device :=
  if d.qcmd.isSome then d
  else if d.qcmdRefused c then d.setRegBit .cfgQstat 2 true
  else ({ d with qcmd := some c, qAddr := d.qaddr c.granule, qPage := d.pageBuffer }).setReg .cfgQstat 1

/-- n free bytes (log entry 5). -/
def Device.freeBytes (d : Device) (n : Nat) : List Byte × Device :=
  ((List.range n).map (fun i => (Config.freeWord (d.fresh + i)).setWidth 8), { d with fresh := d.fresh + n })

/-- A program that the device reports as failed leaves bytes on which nothing is promised, but it sets no bit (R457). -/
def Device.failProgram (d : Device) (a : Nat) (bs : List Byte) : Device :=
  let (fs, d) := d.freeBytes bs.length
  d.norProgram a (bs.zipWith (· ||| ·) fs)

/-- An erase that the device reports as failed leaves bytes on which nothing is promised, but it clears no bit. -/
def Device.failErase (d : Device) (a n : Nat) : Device :=
  let old := d.norBytes a n
  let (fs, d) := d.freeBytes n
  (d.norErase a n).norProgram a (old.zipWith (· ||| ·) fs)

/-- QCMD_COMPLETE (R490): the command takes effect and BUSY clears. -/
def Device.qcmdComplete (d : Device) (err : Bool) : Device :=
  match d.qcmd with
  | none => d
  | some c =>
    let bad := err && (match c with | .read | .anchor => false | _ => true)
    let d := ({ d with qcmd := none }).setReg .cfgQstat (if bad then 2 else 0)
    match c with
    | .read => foldDev (fun d i => d.setReg (.cfgQbuf i) (word (d.norWord (d.qAddr + 4 * i)))) d (List.range 64)
    | .program => if bad then d.failProgram d.qAddr d.qPage else d.norProgram d.qAddr d.qPage
    | .erase4k => if bad then d.failErase d.qAddr 0x1000 else d.norErase d.qAddr 0x1000
    | .erase64k => if bad then d.failErase d.qAddr 0x10000 else d.norErase d.qAddr 0x10000
    | .armTrial =>
      match d.image with
      | some i => if bad then d else (d.writeBoot d.bootCur (some (!i.slotB)) false d.bootCgen 0).showBoot
      | none => d
    | .anchor =>
      match d.image with
      | some i => { d with keys := { d.keys with anchor := some (sha256 i.pubkey) } }
      | none => d

/-- COMMIT (R474). -/
def execCommit (v : Word) (s : State) : Host.Outcome State Fault Refusal := .next (s.onDev (fun d => d.commitTrial v))
/-- FALLBACK (R475). -/
def execFallback (v : Word) (s : State) : Host.Outcome State Fault Refusal := .next (s.onDev (fun d => d.fallBack v))
/-- READ (R490). -/
def execRead (s : State) : Host.Outcome State Fault Refusal := .next (s.onDev (fun d => d.qcmdStart .read))
/-- PROGRAM (R472, R490). -/
def execProgram (s : State) : Host.Outcome State Fault Refusal := .next (s.onDev (fun d => d.qcmdStart .program))
/-- ERASE_4K (R472, R490). -/
def execErase4k (s : State) : Host.Outcome State Fault Refusal := .next (s.onDev (fun d => d.qcmdStart .erase4k))
/-- ERASE_64K (R472, R490). -/
def execErase64k (s : State) : Host.Outcome State Fault Refusal := .next (s.onDev (fun d => d.qcmdStart .erase64k))
/-- ARM_TRIAL (R465). -/
def execArmTrial (s : State) : Host.Outcome State Fault Refusal := .next (s.onDev (fun d => d.qcmdStart .armTrial))
/-- ANCHOR (R462). -/
def execAnchor (s : State) : Host.Outcome State Fault Refusal := .next (s.onDev (fun d => d.qcmdStart .anchor))
/-- QCMD_COMPLETE (R490). -/
def execQcmdComplete (e : Bool) (s : State) : Host.Outcome State Fault Refusal := .next (s.onDev (fun d => d.qcmdComplete e))

end Sys2Proof.Machine
end

