-- ==== Sys2Proof/Machine/Power.lean ====
section
/-! DEFINITION. Power domains, insertion, ejection and removal (R482, R491 to R506). -/

namespace Sys2Proof.Machine

/-! ### Domains (R495 to R498) -/

/-- The condition of every source of a cause (R482). -/
def Device.setCond (d : Device) (cause : Nat) (c : Bool) : Device :=
  { d with sources := d.sources.map (fun (s : Source) => if s.cause = cause then { s with cond := c } else s) }

/-- A controller of a store port leaves service (R430, R433): its link is down and its namespaces take no more casks. -/
def Device.loseController (d : Device) (n s : Nat) : Device :=
  let d := { d with namespaces := d.namespaces.map (fun (x : Namespace) => if x.port = n ∧ x.sub = s then { x with failed := true } else x) }
  d.setReg (.stoPstat n s) ((d.reg (.stoPstat n s) &&& 0x01FF0000) ||| 0x80)

/-- DOMAIN_FAULT (R498): the domain is in FAULT, 0x0C6 raises, and the fed units leave service. -/
def Device.domainFault (d : Device) (n : Nat) : Device :=
  if !d.domainExists n || decide (d.domain n = .off) || decide (d.domain n = .fault) then d else
  let d := (d.setDomains n 1 .fault).raise 0xC6
  if n < 64 then d.takeOut .cluster n
  else if n < 68 then ({ d with pins := { d.pins with mainGood := false } }).assertSource 18 5 0 true
  else if n < 72 then d.takeOut .dramStack (n - 68)
  else if n < 80 then foldDev (fun d i => d.takeOut .fieldLane (8 * (n - 72) + i)) d (List.range 8)
  else if n < 82 then foldDev (fun d s => d.loseController (n - 80) s) d [0, 1]
  else if n = 82 then foldDev (fun d m => d.takeOut .linkLane m) d (List.range d.grade.linkLanes)
  else ({ d with pins := { d.pins with mainGood := false } }).assertSource 18 5 0 true

/-- DOMAIN_ON (R402, R496, R498): the regulator reports good. A returning unit goes on to its zero-fill; the last main domain makes
supply good. -/
def Device.domainOn (d : Device) (n : Nat) : Device :=
  let users := d.returning.filter (fun (r : Returning) => decide (r.state = .power) && decide (unitDomain r.cls r.unit = n))
  let may := match d.domain n with | .ramp => true | .fault => !users.isEmpty || decide (d.phase = .off) | _ => false
  if !d.domainExists n || !may then d else
  let d := d.setDomains n 1 .on
  let d := foldDev (fun d (r : Returning) => d.startFill r.cls r.unit) d users
  if d.allOn && !d.pins.mainGood && decide (d.phase = .off) then
    (((({ d with pins := { d.pins with mainGood := true } }).setCond 0 false).setCond 18 false)).tryConfigure
  else if !d.pins.mainGood && decide (d.phase = .off) then d.startNext
  else match d.phase with | .configure => d.tryConfigure | _ => d

/-- May a domain go off (R495)? -/
def Device.mayGoOff (d : Device) (n : Nat) : Bool :=
  !(d.returning.any (fun (r : Returning) => decide (unitDomain r.cls r.unit = n))) && d.unfed n

/-- DOMAIN_OFF (R495, R496). -/
def Device.domainOff (d : Device) (n : Nat) : Device :=
  if d.domainExists n && (decide (d.domain n = .on) || decide (d.domain n = .ramp)) && d.mayGoOff n then d.setDomains n 1 .off else d

/-- VSET (R497): the set point is clamped; elsewhere the field reads 0. -/
def Device.vset (d : Device) (n : Nat) (v : BitVec 8) : Device :=
  if d.domainExists n && decide (n < 68) then d.setRegFld (.pwrDom n) 8 8 (max 140 (min 170 v.toNat)) else d

/-! ### Warnings (R493) -/

/-- The temperature of a die in 1/16 degree. -/
def Device.tj (d : Device) (k : Nat) : Int := ((d.reg (.pwrTemp k)).setWidth 16 : BitVec 16).toInt

/-- The compute dies, and with them the I/O die. -/
def Device.computeDies (d : Device) : List Nat := List.range d.grade.dies

/-- THERMAL_WARNING (R482, R493): a die's reading. Above 100 degrees 0x0C2 raises; when every die has fallen below 95, 0x0C3. -/
def Device.thermalWarning (d : Device) (k : Nat) (t : BitVec 16) : Device :=
  if k ≠ 4 ∧ d.grade.dies ≤ k then d else
  let dies := d.computeDies ++ [4]
  let was := d.tj k
  let cool := dies.all (fun i => decide (d.tj i < 1520))
  let d := d.setReg (.pwrTemp k) (t.setWidth 32)
  let d := if was ≤ 1600 ∧ 1600 < d.tj k then d.raise 0xC2 else d
  let d := if !cool && dies.all (fun i => decide (d.tj i < 1520)) then d.raise 0xC3 else d
  if d.computeDies.all (fun i => decide (d.tj i < 1520)) then d.setCond 17 false else d

/-- SUPPLY_WARNING (R493, R514). -/
def Device.supplyWarning (d : Device) (w : SupplyWarn) : Device :=
  match w with
  | .main v dw =>
    let d := (d.setReg .pwrVin (v.setWidth 32)).setReg .pwrPin (dw.setWidth 32)
    if v.toNat < 4200 ∨ 5800 < v.toNat then d.raise 0xC4 else d
  | .aux => d.raise 0xC5

/-! ### Insertion (R482, R501) -/

/-- POWER_ON_MAIN (R445, R482): no domain is up yet. -/
def Device.powerOnMain (d : Device) : Device :=
  ({ d with domains := [], pins := { d.pins with mainGood := false, bankFull := false } }).assertSource 0 5 0 true

/-- POWER_ON_AUX (R482, R501, R503). -/
def Device.powerOnAux (d : Device) : Device :=
  ({ d with pins := { d.pins with auxGood := true, removeOk := false } }).assertSource 1 6 0 false

/-- SEATING (R501, R506): SEAT# falls. During the seal that changes the pin alone. -/
def Device.seating (d : Device) : Device :=
  if d.pins.seatLow then d else
  let d := { d with pins := { d.pins with seatLow := true } }
  if d.phase = .sealing then d else d.assertSource 2 6 0 false

/-- SEAT_RISE (R501): SEAT# rises before supply good, and the insertion ends. During the seal, and where the module is drawn after its eject drain
(R505), that changes the pin alone. -/
def Device.seatRise (d : Device) : Device :=
  if !d.pins.seatLow then d
  else if d.phase = .sealing ∨ d.phase = .ejected then { d with pins := { d.pins with seatLow := false } }
  else if d.pins.mainGood then d
  else ({ d with domains := [], pins := { d.pins with seatLow := false, bankFull := false } }).assertSource 2 6 0 true

/-- BANK_CHARGED (R496, R501): seating has released, the regulators start. -/
def Device.bankCharged (d : Device) : Device :=
  if !d.pins.seatLow || d.pins.mainGood || d.sources.any (fun (s : Source) => decide (s.cause = 2)) then d
  else { d with pins := { d.pins with bankFull := true } }.startNext

/-! ### Ejection (R502 to R504) -/

/-- EJECT (R502, R504): EJECT# has been low for 1 ms. While stages 8 and 9 of Configure run it stops there (log entry 41), and where no image runs there is
nothing to drain (R467; log entry 100). -/
def Device.eject (d : Device) : Device :=
  if d.pins.ejectLow then d else
  let d := ({ d with pins := { d.pins with ejectLow := true } }).raise 0xC7
  let out := fun (d : Device) => { d with phase := .ejected, pins := { d.pins with removeOk := true } }
  match d.phase with
  | .off => if d.sources.any (fun (s : Source) => decide (5 ≤ s.reach)) then { d with ejectReset := true } else out d
  | .cocoon => out d
  | .cocoonDrain => ({ d with phase := .ejectDrain }).setRegBit .pwrCstat 0 false
  | .ejectDrain => d
  | .ejected => d
  | .sealing => d
  | .noimage => { d with pins := { d.pins with removeOk := true } }
  | _ => if d.stage.isSome then out { d with stage := none, scanning := [] } else { d with phase := .ejectDrain }

/-- EJECT_RELEASE (R503): EJECT# rises, and a Configure that waits for it goes on. -/
def Device.ejectRelease (d : Device) : Device :=
  if !d.pins.ejectLow then d
  else ({ d with ejectReset := false, pins := { d.pins with ejectLow := false } }).tryConfigure

/-- Every lane, link lane and store port is down. -/
def Device.portsDown (d : Device) : Device :=
  let d := foldDev (fun d n => (d.setRegBit (.fldLstat n) 0 false).setRegBit (.fldLstat n) 4 false) d (List.range d.grade.fieldLanes)
  let d := foldDev (fun d m => d.setReg (.lnkStat m) 0) d (List.range d.grade.linkLanes)
  if d.grade.hasCellar then foldDev (fun d k => d.setReg (.stoPstat (k / 2) (k % 2)) 0) { d with namespaces := [] } [0, 1, 2, 3] else d

/-- EJECT_DRAIN_END (R373, R502): step 4 has completed, or 800 ms have passed and what is not committed is truncated. -/
def Device.ejectDrainEnd (d : Device) (timedOut : Bool) : Device :=
  let waiting := partNumbers.any (fun p => !(d.part p).recorder.casks.isEmpty)
  if d.phase ≠ .ejectDrain ∨ !d.ejectStopped ∨ (waiting ∧ !timedOut) then d else
  let d := if timedOut then foldDev (fun d p => d.loseStaging p) d partNumbers else d
  let d := if timedOut then d.setRegBit .pwrHpstat 5 true else d
  let d := d.loseEngines.portsDown
  let d := d.moveDomains 0 83 (fun _ => true) .off
  { d with phase := .ejected, pins := { d.pins with removeOk := true, mainGood := false } }

/-! ### Removal (R373, R505, R506) -/

/-- SEAL (R505): SEAT# has been high for 50 µs without a completed eject drain. -/
def Device.seal (d : Device) : Device :=
  if !d.pins.seatLow ∨ !d.pins.mainGood ∨ d.phase = .ejected ∨ d.phase = .sealing then d else
  let d := foldDev (fun d p => d.truncateVintage p) d partNumbers
  let d := foldDev (fun d n => (d.setRegBit (.fldLstat n) 0 false).setRegBit (.fldLstat n) 4 false) d (List.range d.grade.fieldLanes)
  let d := foldDev (fun d m => d.setReg (.lnkStat m) 0) d (List.range d.grade.linkLanes)
  let all := fun (_ : Nat) => true
  let d := (d.moveDomains 0 64 all .off).moveDomains 72 8 all .off
  { d with phase := .sealing, stage := none, ejectStopped := true, timers := [], pins := { d.pins with seatLow := false }
           engines := d.engines.map (fun (x : Nat × Engine) => (x.1, { x.2 with run := .held })) }

/-- SEAL_COMPLETE (R506): the supply-fault source asserts, and the module stays in Cold reach until seating releases it. -/
def Device.sealComplete (d : Device) : Device :=
  if d.phase ≠ .sealing then d else
  let d := ({ d with phase := .off }.assertSource 2 6 0 (!d.pins.seatLow)).assertSource 18 5 0 false
  { d with domains := [], pins := { d.pins with mainGood := false, bankFull := false } }

/-- DOMAIN_FAULT (R498). -/
def execDomainFault (n : Nat) (s : State) : Host.Outcome State Fault Refusal := .next (s.onDev (fun d => d.domainFault n))
/-- VSET (R497). -/
def execVset (n : Nat) (v : BitVec 8) (s : State) : Host.Outcome State Fault Refusal := .next (s.onDev (fun d => d.vset n v))
/-- THERMAL_WARNING (R493). -/
def execThermalWarning (k : Nat) (t : BitVec 16) (s : State) : Host.Outcome State Fault Refusal :=
  .next (s.onDev (fun d => d.thermalWarning k t))
/-- SUPPLY_WARNING (R493). -/
def execSupplyWarning (w : SupplyWarn) (s : State) : Host.Outcome State Fault Refusal := .next (s.onDev (fun d => d.supplyWarning w))
/-- POWER_ON_MAIN (R482). -/
def execPowerOnMain (s : State) : Host.Outcome State Fault Refusal := .next (s.onDev (fun d => d.powerOnMain))
/-- POWER_ON_AUX (R482). -/
def execPowerOnAux (s : State) : Host.Outcome State Fault Refusal := .next (s.onDev (fun d => d.powerOnAux))
/-- SEATING (R501). -/
def execSeating (s : State) : Host.Outcome State Fault Refusal := .next (s.onDev (fun d => d.seating))
/-- SEAT_RISE (R501). -/
def execSeatRise (s : State) : Host.Outcome State Fault Refusal := .next (s.onDev (fun d => d.seatRise))
/-- BANK_CHARGED (R501). -/
def execBankCharged (s : State) : Host.Outcome State Fault Refusal := .next (s.onDev (fun d => d.bankCharged))
/-- EJECT (R502). -/
def execEject (s : State) : Host.Outcome State Fault Refusal := .next (s.onDev (fun d => d.eject))
/-- EJECT_RELEASE (R503). -/
def execEjectRelease (s : State) : Host.Outcome State Fault Refusal := .next (s.onDev (fun d => d.ejectRelease))
/-- EJECT_DRAIN_END (R502). -/
def execEjectDrainEnd (t : Bool) (s : State) : Host.Outcome State Fault Refusal := .next (s.onDev (fun d => d.ejectDrainEnd t))
/-- SEAL (R505). -/
def execSeal (s : State) : Host.Outcome State Fault Refusal := .next (s.onDev (fun d => d.seal))
/-- SEAL_COMPLETE (R506). -/
def execSealComplete (s : State) : Host.Outcome State Fault Refusal := .next (s.onDev (fun d => d.sealComplete))
/-- DOMAIN_ON (R496). -/
def execDomainOn (n : Nat) (s : State) : Host.Outcome State Fault Refusal := .next (s.onDev (fun d => d.domainOn n))
/-- DOMAIN_OFF (R496). -/
def execDomainOff (n : Nat) (s : State) : Host.Outcome State Fault Refusal := .next (s.onDev (fun d => d.domainOff n))

end Sys2Proof.Machine
end

