-- ==== Sys2Proof/Machine/Reset.lean ====
section
/-! DEFINITION. The reset controller: sources, watchdogs, software resets and release (R408, R482 to R489). -/

namespace Sys2Proof.Machine

/-! ### Pins (R482) -/

/-- RESET_PIN (R482): the source stands while RESET# is low. With its rise EXTEST, CLAMP and HIGHZ may end (R511). -/
def Device.resetPin (d : Device) (low : Bool) : Device :=
  let d := { d with pins := { d.pins with resetLow := low } }
  if low then d.assertSource 3 5 0 true else (d.setCond 3 false).closeScan

/-- LINE_RST (R482): the source stands while LINE_RST# is low. -/
def Device.lineRst (d : Device) (low : Bool) : Device :=
  let d := { d with pins := { d.pins with lineRstLow := low } }
  if low then d.assertSource 4 5 0 true else d.setCond 4 false

/-! ### Watchdogs (R408, R489) -/

/-- MODULE_WATCHDOG (R482, R489): PERIOD admission epochs have passed without a kick. -/
def Device.moduleWatchdog (d : Device) : Device :=
  if bit (d.reg .rstMwdctl) 31 ∧ wdPeriod (d.reg .rstMwdctl) ≤ d.mwdCount then d.assertSource 5 5 0 false else d

/-- PARTITION_WATCHDOG (R408, R482). -/
def Device.partitionWatchdog (d : Device) (p : Nat) : Device :=
  if d.valid p ∧ bit (d.reg (.parWdctl p)) 31 ∧ wdPeriod (d.reg (.parWdctl p)) ≤ (d.part p).wdCount then
    (d.assertSource 6 3 p false).setRegBit (.parCause p) 0 true
  else d

/-- MWDKICK (R489): KEY 0x5A restarts the count. -/
def Device.mwdKick (d : Device) (v : Word) : Device :=
  if fld v 0 8 = 0x5A then { d with mwdCount := 0, mwdPre := false } else d

/-- WDKICK (R408). -/
def Device.wdKick (d : Device) (p : Nat) (v : Word) : Device :=
  if fld v 0 8 = 0x5A ∧ p < 16 then d.onPart p (fun x => { x with wdCount := 0, wdPre := false }) else d

/-! ### Software resets and critical state (R484, R485) -/

/-- A scrub of partition p ends, its SCRUBBED bit clears, and the engines that it stopped begin at the Recovery entry (R509). -/
def Device.endScrub (d : Device) (p : Nat) : Device :=
  if !(d.part p).scrubbing && !bit (d.reg .tmxStat) (16 + p) then d else
  let d := (d.setRegBit .tmxStat (16 + p) false).onPart p (fun x => { x with scrubbing := false })
  foldDev (fun d e => if d.engineCovered e then d else d.startEngine e (d.entry p .recovery) true) d (d.partEngines p)

/-- A source of Engine or Cluster reach asserts: the partition is held, which ends the conditions of its probes and of its scrub (R24, R508 to R510). -/
def Device.narrowReset (d : Device) (cause reach target : Nat) : Device :=
  let d := d.assertSource cause reach target false
  match d.clusterOwner (if reach = 1 then target / 16 else target) with
  | some p => if d.released p then (d.dropProbes p).endScrub p else d
  | none => d

/-- A software reset of a reach; a target that is absent or invalid is ignored (R485). -/
def Device.swReset (d : Device) (reach target : Nat) : Device :=
  match reach with
  | 1 => if target < d.grade.engines then d.narrowReset 7 1 target else d
  | 2 => if target < d.grade.clusters then d.narrowReset 8 2 target else d
  | 3 => if d.valid target then (d.assertSource 9 3 target false).setRegBit (.parCause target) 2 true else d
  | 4 => d.assertSource 10 4 0 false
  | 5 => d.assertSource 11 5 0 false
  | 6 => d.assertSource 12 6 0 false
  | _ => d

/-- CRITICAL_STATE_ERROR (R187, R484): the reach that owns the state is reset; a corrected single-bit error is counted and resets nothing. -/
def Device.criticalError (d : Device) (st : CriticalState) (u : Nat) : Device :=
  match st with
  | .save => if u < d.grade.engines then (d.bump .cfgEcccnt 16 16).narrowReset 13 1 u else d
  | .dispatch => if u < d.grade.clusters then d.narrowReset 14 2 u else d
  | .tables => (d.bump .cfgEcccnt 16 16).assertSource 15 4 0 false
  | .config => d.assertSource 16 5 0 false
  | .saveSingle => if u < d.grade.engines then d.bump .cfgEcccnt 0 16 else d
  | .tablesSingle => d.bump .cfgEcccnt 0 16

/-- THERMAL_TRIP (R482): until every compute die is below 95 degrees. -/
def Device.thermalTrip (d : Device) : Device := d.assertSource 17 5 0 true

/-- SUPPLY_FAULT (R482). During the seal it does not assert (R506). -/
def Device.supplyFault (d : Device) : Device :=
  if d.phase = .sealing then d
  else ({ d with pins := { d.pins with mainGood := false } }).assertSource 18 5 0 false

/-! ### Release (R483, R486, R487) -/

/-- Engines of a Free or Recovery partition that no source covers any more restart at their next step; those of a Paced or Decant
partition at the next admission epoch (R483). A Free partition then wants a new vintage, since the reset closed its own (R357, R358, log entry 12).
In an eject drain the held parts stay held (R504). -/
def Device.restartFree (d : Device) : Device :=
  if d.phase = .ejectDrain ∨ d.phase = .sealing then d else
  foldDev (fun d (x : Nat × Nat) =>
    match d.engPart x.1 with
    | some p =>
      if d.released p && !d.pacedPart p && !d.engineCovered x.1 && (d.part p).changing.isNone && !(d.part p).scrubbing &&
        !bit (d.reg .tmxStat) (16 + p) then
        let d := d.startEngine x.1 (d.entry p (d.part p).mode) true
        match (d.part p).mode with | .free => d.wantVintage p | _ => d
      else d
    | none => d) d d.enginesReset

/-- A narrow source that releases after a wide one has: its part receives the fills and the code that the wide reach's restart gave the others, whatever its
source did to it in the meantime (R487). -/
def Device.refill (d : Device) (s : Source) : Device :=
  let c := if s.reach = 1 then s.target / 16 else s.target
  let wide := match d.clusterOwner c with | some p => !d.released p && decide (4 ≤ (d.part p).widest) | none => false
  if 2 < s.reach ∨ !wide ∨ d.wideHeld then d
  else if s.reach = 2 then (d.fillCluster c).placeCode c
  else
    let e := s.target
    ((d.zeroFill (0x100000000 + e * 0x10000) 0x10000).zeroFill (peerVector e) 128).zeroFill (chHeader e 0) 128

/-- RESET_RELEASE (R482, R483, R487) of the k-th asserted source, whose condition has ended and whose minimum hold has passed: what no
other source covers restarts as after the widest reach that covered it. -/
def Device.resetRelease (d : Device) (k : Nat) (failed : List (Nat × Nat)) : Device :=
  match d.sources[k]? with
  | none => d
  | some s =>
    if s.cond || (decide (s.reach = 3) && (d.part s.target).fence) then d else
    let d := { d with sources := d.sources.eraseIdx k, selfTest := if 4 ≤ s.reach then failed else d.selfTest }
    let d := if s.cause = 18 ∧ d.allOn then { d with pins := { d.pins with mainGood := true } } else d
    if d.wideHeld then d else (d.refill s).restartFree.tryConfigure

/-- RESET_PIN (R482). -/
def execResetPin (low : Bool) (s : State) : Host.Outcome State Fault Refusal := .next (s.onDev (fun d => d.resetPin low))
/-- LINE_RST (R482). -/
def execLineRst (low : Bool) (s : State) : Host.Outcome State Fault Refusal := .next (s.onDev (fun d => d.lineRst low))
/-- MODULE_WATCHDOG (R489). -/
def execModuleWatchdog (s : State) : Host.Outcome State Fault Refusal := .next (s.onDev (fun d => d.moduleWatchdog))
/-- PARTITION_WATCHDOG (R408). -/
def execPartitionWatchdog (p : Nat) (s : State) : Host.Outcome State Fault Refusal := .next (s.onDev (fun d => d.partitionWatchdog p))
/-- MWDKICK (R489). -/
def execMwdkick (v : Word) (s : State) : Host.Outcome State Fault Refusal := .next (s.onDev (fun d => d.mwdKick v))
/-- WDKICK (R408). -/
def execWdkick (p : Nat) (v : Word) (s : State) : Host.Outcome State Fault Refusal := .next (s.onDev (fun d => d.wdKick p v))
/-- SW_RESET_ENGINE (R485). -/
def execSwResetEngine (e : Nat) (s : State) : Host.Outcome State Fault Refusal := .next (s.onDev (fun d => d.swReset 1 e))
/-- SW_RESET_CLUSTER (R485). -/
def execSwResetCluster (c : Nat) (s : State) : Host.Outcome State Fault Refusal := .next (s.onDev (fun d => d.swReset 2 c))
/-- SW_RESET_PARTITION (R485). -/
def execSwResetPartition (p : Nat) (s : State) : Host.Outcome State Fault Refusal := .next (s.onDev (fun d => d.swReset 3 p))
/-- SW_RESET_CORE (R485). -/
def execSwResetCore (s : State) : Host.Outcome State Fault Refusal := .next (s.onDev (fun d => d.swReset 4 0))
/-- SW_RESET_MODULE (R485). -/
def execSwResetModule (s : State) : Host.Outcome State Fault Refusal := .next (s.onDev (fun d => d.swReset 5 0))
/-- SW_RESET_COLD (R485). -/
def execSwResetCold (s : State) : Host.Outcome State Fault Refusal := .next (s.onDev (fun d => d.swReset 6 0))
/-- CRITICAL_STATE_ERROR (R484). -/
def execCriticalStateError (st : CriticalState) (u : Nat) (s : State) : Host.Outcome State Fault Refusal :=
  .next (s.onDev (fun d => d.criticalError st u))
/-- THERMAL_TRIP (R482). -/
def execThermalTrip (s : State) : Host.Outcome State Fault Refusal := .next (s.onDev (fun d => d.thermalTrip))
/-- SUPPLY_FAULT (R482). -/
def execSupplyFault (s : State) : Host.Outcome State Fault Refusal := .next (s.onDev (fun d => d.supplyFault))
/-- RESET_RELEASE (R487). -/
def execResetRelease (k : Nat) (f : List (Nat × Nat)) (s : State) : Host.Outcome State Fault Refusal :=
  .next (s.onDev (fun d => d.resetRelease k f))

end Sys2Proof.Machine
end

