-- ==== Sys2Proof/Machine/Ports.lean ====
section
/-! DEFINITION. The host port, link lanes, store ports and identity (R178 to R185, R430 to R456, R479, R481). -/

namespace Sys2Proof.Machine

/-! ### The host port (R441 to R448) -/

/-- The first byte of the mailbox RAM (R161). -/
def mailboxBase : Nat := 0xFE00000000

/-- Is the port in Omtar mailbox mode? -/
def Device.omtar (d : Device) : Bool := bit (d.reg .hstCtl) 0

/-- The image of a host byte address and its offset in it (R442). -/
def Device.hostImage (d : Device) (a : Nat) : Nat × Nat := if d.omtar then (a / 0x1000, a % 0x1000) else (0, a)

/-- The offsets of the doorbell word and of the acknowledge word. -/
def Device.doorbell (d : Device) : Nat := if d.omtar then 0xFFE else 0xFFFE
def Device.ackWord (d : Device) : Nat := if d.omtar then 0xFFC else 0xFFFC

/-- A single-bit error of a mailbox word is corrected and counted (R184); an uncorrectable one is counted, and the host port logs its status for
the partition that holds it (R185, R394). -/
def Device.mailboxCheck (d : Device) (a : Nat) : Bool × Device :=
  let hit := d.marks.filter (fun m => decide (m.1 / 8 = a / 8))
  if hit.any (fun m => decide (m.2 = .uncorrectable)) then
    let d := d.eccError a
    (false, match d.hostOwner with | some p => d.logStatus (some p) 150 9 a | none => d)
  else if hit.isEmpty then (true, d)
  else (true, { d with marks := d.marks.filter (fun m => decide (m.1 / 8 ≠ a / 8)) }.bump .cfgEcccnt 0 16)

/-- The host lost a collision: a second BUSY# pulse, counted (R446). -/
def Device.pulse (d : Device) (hit : Collision) : Device :=
  let lost := decide (hit = .later)
  let d := { d with host := { d.host with collided := lost } }
  if lost then d.bump .hstStat 16 16 else d

/-- D[15:0] of the bytes at an even address: native mode drives the even byte on D[7:0], Omtar mode on D[15:8] (R442). -/
def Device.hostWord (d : Device) (even odd : Byte) : BitVec 16 := if d.omtar then even ++ odd else odd ++ even

/-- The even and the odd byte of D[15:0]. -/
def Device.hostBytes (d : Device) (v : BitVec 16) : Byte × Byte :=
  if d.omtar then (v.extractLsb' 8 8, v.extractLsb' 0 8) else (v.extractLsb' 0 8, v.extractLsb' 8 8)

/-- HOST_READ (R180, R442, R443, R445, R446). A strobe while BUSY# is low is ignored. A lane that is not enabled, a colliding read and an
uncorrectable word give a free value; a colliding read meets no check-bit error. -/
def Device.hostRead (d : Device) (a : BitVec 15) (be : BitVec 2) (hit : Collision) : Device :=
  if d.host.busyLow then d else
  let adr := mailboxBase + 2 * a.toNat
  let (good, d) := if hit = .none then d.mailboxCheck adr else (true, (d.portRead 0 adr 2 false hit).2)
  let (w, d) := if be = 3 && good && decide (hit = .none) then (0, d) else d.freeWord
  let pick := fun (i : Nat) => if be.getLsbD i && good && decide (hit = .none) then d.byte (adr + i) else w.extractLsb' (8 * i) 8
  ({ d with host := { d.host with data := d.hostWord (pick 0) (pick 1) } }).pulse hit

/-- The effects of a host write on the handshake words (R442, R448). -/
def Device.hostHandshake (d : Device) (a : Nat) : Device :=
  let (i, off) := d.hostImage a
  let d := if off = d.doorbell then (d.setRegBit .hstDbsrc i true).raise 0xA4 else d
  let d := if off = d.ackWord then d.setRegBit .hstInt i false else d
  if bit (d.reg .hstCtl) 1 then d.raise 0xA5 else d

/-- HOST_WRITE (R185, R442, R444 to R448). -/
def Device.hostWrite (d : Device) (a : BitVec 15) (be : BitVec 2) (v : BitVec 16) (hit : Collision) : Device :=
  if d.host.busyLow || decide (be = 0) then d else
  let adr := mailboxBase + 2 * a.toNat
  let (good, d) := d.mailboxCheck adr
  let (even, odd) := d.hostBytes v
  let store := fun (d : Device) =>
    let d := if be.getLsbD 0 then d.writeBytes adr [even] else d
    if be.getLsbD 1 then d.writeBytes (adr + 1) [odd] else d
  let d := if !good then d else (d.portWrite 0 adr 2 false hit store).2
  (d.hostHandshake (2 * a.toNat)).pulse hit

/-- PROTOCOL_ERROR (R448): 0x0A7 and HST.STAT.PROT; a read ended early returns a free value, a write is not performed. -/
def Device.protocolError (d : Device) (err : HostError) : Device :=
  if d.host.busyLow then d else
  let d := (d.bump .hstStat 0 16).raise 0xA7
  match err with
  | .readEndedEarly =>
    let (w, d) := d.freeWord
    { d with host := { d.host with data := w.setWidth 16 } }
  | _ => d

/-- INTSET (R447). -/
def Device.intSet (d : Device) (v : Word) : Device := d.setReg .hstInt (d.reg .hstInt ||| (v &&& 0xFFFF))

/-- Is INT# low (R447)? -/
def Device.intLow (d : Device) : Bool := decide (d.reg .hstInt ≠ 0)

/-! ### Link lanes (R435 to R440, R481) -/

/-- LINK_UPDATE (R436, R440, R481): one update for an inbound window, posted as a Free update, or dropped and counted. -/
def Device.linkUpdate (d : Device) (m : Nat) (u : LinkUpdate) : Device :=
  let a := d.reg (.lnkXwa u.window)
  let b := d.reg (.lnkXwb u.window)
  let pt := fld a 0 25 + u.offset
  let known := decide (u.window < 64) && bit a 31 && bit a 30 && decide (fld b 16 4 = m) && decide (u.offset ≤ fld b 0 16)
  if bit (d.reg (.lnkStat m)) 6 then d
  else match d.linkOwner m with
  | some p =>
    if !known || !d.released p then d.bump (.lnkBadwin m)
    else
      { d with inFlight := d.inFlight ++ [{
          point := pt, aux := false, value := u.value, part := p, origin := .link m u.aux u.quality u.stamp, trig := d.now, posted := d.now
          arrive := none, coalesced := false }] }
  | none => d.bump (.lnkBadwin m)

/-- The blocks that a block's acknowledgement covers are done; where the peer could not take the next, those from it on are replayed, which is counted
(R435; log entry 97). -/
def Device.linkAck (d : Device) (m : Nat) (b : LinkBlock) : Device :=
  if (d.link m).txSeq < b.ack then d else
  let d := d.onLink m (fun l => { l with unacked := l.unacked.filter (fun x => decide (b.ack ≤ x.1)) })
  if b.again then foldDev (fun d _ => d.bump (.lnkRetry m)) d (d.link m).unacked else d

/-- What waits to be sent on a link lane, in blocks: as many updates in one as 256 bytes hold (R435; log entry 97). -/
def packBlocks (ps : List LinkPayload) : List LinkPayload :=
  ps.foldr (fun p acc => match p, acc with
    | .updates us, .updates vs :: rest => if us.length + vs.length ≤ 12 then .updates (us ++ vs) :: rest else p :: acc
    | _, _ => p :: acc) []

/-- A link lane sends what waits (R435). -/
def Device.sendBlocks (d : Device) (m : Nat) : Device :=
  if !bit (d.reg (.lnkStat m)) 0 || d.isOffline .linkLane m || (d.link m).outbox.isEmpty then d
  else d.onLink m (fun l =>
    let bs := packBlocks l.outbox
    { l with outbox := [], txSeq := l.txSeq + bs.length, unacked := l.unacked ++ bs.zipIdx.map (fun x => (l.txSeq + x.2, x.1)) })

/-- A block for a lane out of service: its requests receive OFFLINE (R394, R401; log entry 98). -/
def Device.linkOffline (d : Device) (m : Nat) (b : LinkBlock) : Device :=
  match b.payload, d.linkOwner m with
  | .updates (u :: _), some p => d.logStatus (some p) (134 + m) 3 (pointAddr (fld (d.reg (.lnkXwa u.window)) 0 25 + u.offset))
  | _, _ => d

/-- LINK_BLOCK_RECEIVE (R435, R436, R438, R439): a block in order is acknowledged and taken; a bad one is replayed; one that was taken
already is acknowledged again. A line reset that comes before Configure has ended its stage 8 is ignored (R481). -/
def Device.linkBlock (d : Device) (m : Nat) (b : LinkBlock) : Device :=
  if decide (d.grade.linkLanes ≤ m) then d
  else if d.isOffline .linkLane m then d.linkOffline m b
  else if !bit (d.reg (.lnkStat m)) 0 then d
  else if !b.crcGood then d.bump (.lnkRetry m)
  else
    let d := d.linkAck m b
    if b.seq ≠ (d.link m).nextSeq then d.onLink m (fun l => { l with ackSent := l.nextSeq })
  else
    let d := d.onLink m (fun l => { l with nextSeq := l.nextSeq + 1, ackSent := l.nextSeq + 1 })
    match b.payload with
    | .updates us => (foldDev (fun d u => d.linkUpdate m u) d us).raise (0x80 + 2 * m)
    | .lineReset =>
      match d.phase, d.stage with
      | .off, _ | .configure, _ | .noimage, _ | _, some 8 => d
      | _, _ => if bit (d.reg (.lnkCtl m)) 1 then d.assertSource 20 5 0 false else d.bump (.lnkBadwin m)
    | .drain => d.staleWindows m

/-- LINK_DOWN (R438). -/
def Device.linkDown (d : Device) (m : Nat) (drain : Bool) : Device :=
  if decide (d.grade.linkLanes ≤ m) || !bit (d.reg (.lnkStat m)) 0 then d
  else
    let d := d.staleWindows m
    if drain then d else d.linkStatus m 0

/-- LINE_RESET (R439): a line reset goes out on lane m. -/
def Device.lineReset (d : Device) (m : Nat) : Device :=
  if decide (d.grade.linkLanes ≤ m) || !bit (d.reg (.lnkStat m)) 0 || d.isOffline .linkLane m then d
  else d.onLink m (fun l => { l with outbox := l.outbox ++ [.lineReset] })

/-- LINK_LANE_UP (R435, R440): training is complete; the peer announces its module number. The link layer begins anew: what waited to be sent is gone (log
entry 86). -/
def Device.linkLaneUp (d : Device) (m : Nat) (peer : BitVec 4) : Device :=
  let c := d.reg (.lnkCtl m)
  if decide (d.grade.linkLanes ≤ m) || !bit c 0 || d.isOffline .linkLane m || decide (d.domain 82 ≠ .on) then d
  else
    let st : Word := setFld 3 2 4 peer.toNat
    ({ d with links := Assoc.put d.links m {} }).linkStatus m (setBit st 6 (decide (fld c 2 4 ≠ peer.toNat)))

/-! ### Store ports (R430 to R434, R479) -/

/-- SURPRISE_DOWN (R430): the controller leaves service and source 2n + 1 of the store ports raises. -/
def Device.surpriseDown (d : Device) (n s : Nat) : Device :=
  if !d.grade.hasCellar || decide (2 ≤ n) || decide (2 ≤ s) || !bit (d.reg (.stoPstat n s)) 0 then d
  else (d.loseController n s).raise (0xA0 + 2 * n + 1)

/-- Is a namespace accepted (R432)? -/
def NamespaceInfo.accepted (x : NamespaceInfo) : Bool :=
  decide (x.blockBytes = 4096) && !x.metadata && !x.protection && decide (1042 ≤ x.lbas)

/-- Controller order, then ascending NSID (R432). -/
def Namespace.before (a b : Namespace) : Bool :=
  decide (a.port < b.port) || (decide (a.port = b.port) && (decide (a.sub < b.sub) || (decide (a.sub = b.sub) && decide (a.nsid < b.nsid))))

/-- Put a namespace in its place. -/
def insertNamespace (x : Namespace) : List Namespace → List Namespace
  | [] => [x]
  | y :: ys => if x.before y then x :: y :: ys else y :: insertNamespace x ys

/-- The header that an accepted namespace of a number holds, where a partition owns it (R370). -/
def Device.headerOf (d : Device) (x : Namespace) (n : Nat) : Option NamespaceHeader :=
  let w := d.reg (.parNs (n / 4))
  if bit w (8 * (n % 4) + 7) then some { part := fld w (8 * (n % 4)) 4, number := n, slots := x.slots } else none

/-- STORE_PORT_LINK_UP (R430, R432 to R434, R479): the controller is ready and its namespaces are accepted or counted; a namespace pushed beyond the 512th
leaves the count of its controller. A namespace that a partition owns holds its header (R370). The AER events and the failed commands of the link, one of them the failed disabling of the write cache, are counted. -/
def Device.storeLinkUp (d : Device) (n s : Nat) (speed : BitVec 2) (width : BitVec 3) (found : ControllerReport) : Device :=
  let c := d.reg (.stoPctl n)
  if !d.grade.hasCellar || decide (2 ≤ n) || decide (s ≠ 0 ∧ (s ≠ 1 ∨ !bit c 2)) || decide (d.domain (80 + n) ≠ .on) ||
    bit (d.reg (.stoPstat n s)) 7 then d
  else
    let good := found.spaces.filter NamespaceInfo.accepted
    let others := d.namespaces.filter (fun x => decide (x.port ≠ n ∨ x.sub ≠ s))
    let all := good.foldl (fun l x => insertNamespace
      { port := n, sub := s, nsid := x.nsid, lbas := x.lbas, failed := false, fua := !found.cacheOff } l) others
    let kept := all.take 512
    let rejected := found.spaces.length - good.length + (all.length - kept.length)
    let st := setFld (setFld (word 0x41) 4 2 (min speed.toNat (fld c 0 2))) 1 3 (min width.toNat (if bit c 2 then 3 else 4))
    let d := ({ d with namespaces := kept.zipIdx.map (fun (x : Namespace × Nat) => { x.1 with header := d.headerOf x.1 x.2 }) }).setReg (.stoPstat n s) st
    let d := foldDev (fun d (x : Namespace × Nat) => match d.headerOf x.1 x.2 with | some h => d.writeHeader x.2 h | none => d) d kept.zipIdx
    let d := foldDev (fun d (k : Nat × Nat) => d.setRegFld (.stoPstat k.1 k.2) 16 9
      (kept.filter (fun x => decide (x.port = k.1 ∧ x.sub = k.2))).length) d [(0, 0), (0, 1), (1, 0), (1, 1)]
    let d := foldDev (fun d _ => d.bump (.stoErr n s)) d (List.range (found.aer + found.failed + (if found.cacheOff then 0 else 1)))
    foldDev (fun d _ => d.bump .stoNsrej) d (List.range rejected)

/-! ### Identity (R451 to R456) -/

/-- IDENTITY_READ_COMPLETE (R451, R453, R454): the entry is replaced as its read completes; one without a record holds zero bytes (log entry 87). -/
def Device.identityRead (d : Device) (s a : Nat) (r : IdentityRead) : Device :=
  if (s, a) ∉ d.scanning then d else
  let d := { d with scanning := d.scanning.filter (fun x => decide (x ≠ (s, a))) }
  match r with
  | .noAck => { d with ids := Assoc.put d.ids (8 * s + a) { state := .absent, record := [] } }
  | .clockTimeout => { d with ids := Assoc.put d.ids (8 * s + a) { state := .timeout, record := [] } }
  | .data bs => d.fillIdentity (8 * s + a) bs

/-- RESCAN (R422, R455, R456): the writer's segments and lanes; ignored while a scan runs. -/
def Device.rescan (d : Device) (by_ : Option Nat) : Device :=
  if !d.scanning.isEmpty then d else
  let mine := fun (p : Option Nat) => match by_ with | none => true | some q => decide (p = some q)
  let segs := (List.range 8).filter (fun s => bit (d.reg (.idnSeg s)) 1 && mine (some (fld (d.reg (.idnSeg s)) 4 4)))
  let d := { d with scanning := (segs.map (fun s => (List.range 8).map (fun a => (s, a)))).flatten }
  foldDev (fun d n => if mine (d.laneOwner n) then d.identRequest n false else d) d (List.range d.grade.fieldLanes)

/-- HOST_READ (R443). -/
def execHostRead (a : BitVec 15) (be : BitVec 2) (h : Collision) (s : State) : Host.Outcome State Fault Refusal :=
  .next (s.onDev (fun d => d.hostRead a be h))
/-- HOST_WRITE (R444). -/
def execHostWrite (a : BitVec 15) (be : BitVec 2) (v : BitVec 16) (h : Collision) (s : State) : Host.Outcome State Fault Refusal :=
  .next (s.onDev (fun d => d.hostWrite a be v h))
/-- PROTOCOL_ERROR (R448). -/
def execProtocolError (e : HostError) (s : State) : Host.Outcome State Fault Refusal := .next (s.onDev (fun d => d.protocolError e))
/-- INTSET (R447). -/
def execIntset (v : Word) (s : State) : Host.Outcome State Fault Refusal := .next (s.onDev (fun d => d.intSet v))
/-- LINK_BLOCK_RECEIVE (R435). -/
def execLinkBlockReceive (m : Nat) (b : LinkBlock) (s : State) : Host.Outcome State Fault Refusal :=
  .next (s.onDev (fun d => d.linkBlock m b))
/-- LINK_DOWN (R438). -/
def execLinkDown (m : Nat) (drain : Bool) (s : State) : Host.Outcome State Fault Refusal := .next (s.onDev (fun d => d.linkDown m drain))
/-- LINE_RESET (R439). -/
def execLineReset (m : Nat) (s : State) : Host.Outcome State Fault Refusal := .next (s.onDev (fun d => d.lineReset m))
/-- LINK_LANE_UP (R440). -/
def execLinkLaneUp (m : Nat) (p : BitVec 4) (s : State) : Host.Outcome State Fault Refusal := .next (s.onDev (fun d => d.linkLaneUp m p))
/-- SURPRISE_DOWN (R430). -/
def execSurpriseDown (n k : Nat) (s : State) : Host.Outcome State Fault Refusal := .next (s.onDev (fun d => d.surpriseDown n k))
/-- STORE_PORT_LINK_UP (R479). -/
def execStorePortLinkUp (n k : Nat) (sp : BitVec 2) (w : BitVec 3) (xs : ControllerReport) (s : State) : Host.Outcome State Fault Refusal :=
  .next (s.onDev (fun d => d.storeLinkUp n k sp w xs))
/-- IDENTITY_READ_COMPLETE (R454). -/
def execIdentityReadComplete (k a : Nat) (r : IdentityRead) (s : State) : Host.Outcome State Fault Refusal :=
  .next (s.onDev (fun d => d.identityRead k a r))
/-- RESCAN (R456). -/
def execRescan (by_ : Option Nat) (s : State) : Host.Outcome State Fault Refusal := .next (s.onDev (fun d => d.rescan by_))

end Sys2Proof.Machine
end

