-- ==== Sys2Proof/Machine/TestAccess.lean ====
section
/-! DEFINITION. The test multiplexers, the scrub and the test access port (R507 to R512). -/

namespace Sys2Proof.Machine

/-! ### Probes (R507, R508) -/

/-- Is partition p in Recovery, no change under way and no reset covering a part of it (R24)? -/
def Device.inRecovery (d : Device) (p : Nat) : Bool :=
  decide ((d.part p).mode = .recovery) && (d.part p).changing.isNone && !d.partCovered p

/-- Has partition p been scrubbed (TMX.STAT.SCRUBBED)? -/
def Device.scrubbed (d : Device) (p : Nat) : Bool := bit (d.reg .tmxStat) (16 + p)

/-- May probe n be selected (R508)? -/
def Device.probeAllowed (d : Device) (n : Nat) : Bool :=
  if n < 8064 then
    match d.clusterOwner (n / 126) with
    | some p => decide (n / 126 < d.grade.clusters) && d.inRecovery p
    | none => false
  else partNumbers.all (fun p => !d.valid p || (d.inRecovery p && d.scrubbed p))

/-- TMX_SELECT (R508, R515): a selection that is not allowed leaves the register and sets REF. -/
def Device.tmxSelect (d : Device) (k : Nat) (v : Word) : Device :=
  if 8 ≤ k then d
  else if bit v 31 && !d.probeAllowed (fld v 0 13) then d.setRegBit .tmxStat k true
  else d.setReg (.tmxSel k) (v &&& 0x80007FFF)

/-! ### Scrub (R509) -/

/-- The zero-fill of a scrub: scratchpads, SRAMs, pages, and the descriptors of the point ranges. -/
def Device.scrubFill (d : Device) (p : Nat) : Device :=
  let inside := fun (a : Nat) => d.inPartMemory p a
  let mine := fun (pt : Nat) => decide ((d.pointRange pt).map (·.2) = some p)
  let d := d.dropSubs (fun s => mine s.point)
  let unstale := fun (d : Device) => foldDev (fun d n =>
    let lo := fld (d.reg (.ptrRb n)) 0 13 * 4096
    let hi := fld (d.reg (.ptrRl n)) 0 13 * 4096 + 4095
    if bit (d.reg (.ptrRl n)) 31 && decide (fld (d.reg (.ptrRl n)) 20 4 = p) then
      { d with staleRanges := (d.staleRanges.map (fun r => [(r.1, min r.2 (lo - 1)), (max r.1 (hi + 1), r.2)].filter (fun q =>
          decide (q.1 ≤ q.2) && (decide (q.2 < lo) || decide (hi < q.1))))).flatten }
    else d) d (List.range 64)
  let d := (unstale d).writeBack p
  { d with
    mem := d.mem.filter (fun c => !inside c.1)
    marks := d.marks.filter (fun m => !inside m.1)
    points := d.points.filter (fun x => !mine x.1) }

/-- SCRUB (R509): the engines stop at their reset values, pending updates and queued messages go, memory is cleared. -/
def Device.scrub (d : Device) (v : Word) : Device :=
  let p := fld v 0 4
  if fld v 24 8 ≠ 0xA5 then d
  else if !d.inRecovery p then d.setRegBit .tmxScrst 0 true
  else
    let es := d.partEngines p
    let keepU := fun (u : Update) => decide (u.part ≠ p)
    let d := { d with
      engines := d.engines.map (fun (x : Nat × Engine) => if x.1 ∈ es then
        (x.1, { step := x.2.step, period := x.2.period, tokens := x.2.tokens, nextCtx := x.2.nextCtx + 1, run := .stopped, events := x.2.events })
        else x)
      clusters := d.clusters.map (fun (x : Nat × Cluster) => if d.ownsCluster p x.1 then (x.1, { bmvTokens := x.2.bmvTokens }) else x)
      targets := d.targets.map (fun (t : Nat × Target) => (t.1, { t.2 with
        waiting := t.2.waiting.filter (fun w => !(w.owner.engine.any (fun e => decide (e ∈ es)))) }))
      inFlight := d.inFlight.filter keepU
      routers := d.routers.map (fun (r : Nat × Router) => (r.1, { r.2 with
        share := r.2.share.filter keepU, ring := r.2.ring.filter keepU, notices := r.2.notices.filter (fun n => decide (n.part ≠ p)) })) }
    (d.scrubFill p).onPart p (fun x => { x with scrubbing := true, forceQueue := [] })

/-- SCRUB_COMPLETE (R509): nothing written meanwhile is left, and SCRUBBED is set. -/
def Device.scrubComplete (d : Device) (p : Nat) : Device :=
  if (d.part p).scrubbing then ((d.scrubFill p).onPart p (fun x => { x with scrubbing := false })).setRegBit .tmxStat (16 + p) true else d

/-! ### The test access port (R511, R512) -/

/-- CFG.BOOT.STATE (R490): CONFIGURE while no image runs and none is missing. -/
def Device.bootState (d : Device) : Nat :=
  match d.phase with
  | .off => 0
  | .configure => 0
  | .noimage => 3
  | _ => if d.stage.isSome then 0 else if d.inTrial then 2 else if d.image.isSome then 1 else 0

/-- CFG.BOOT.STAGE (R490): the stage that runs, minus 1; the field holds no more than 7 (log entry 99). -/
def Device.bootStage (d : Device) : Nat := match d.stage with | some k => min 7 (k - 1) | none => 0

/-- MSTAT (R512). -/
def Device.mstatWord (d : Device) : Word :=
  let p := d.pins
  boolWord d.tap.refused <<< 6 ||| word (d.bootState * 16) ||| boolWord p.removeOk <<< 3 ||| boolWord p.seatLow <<< 2 |||
  boolWord p.mainGood <<< 1 ||| boolWord p.auxGood

/-- IDCODE of each grade (R512). -/
def idcodeOf : Grade → Word
  | .x1024P => 0x1A4015AF | .x1024C => 0x1A4025AF | .x512C => 0x1A4035AF | .x256E => 0x1A4045AF

/-- The instruction that a value of the instruction register selects (R511): the command of that name. -/
def TapIr.ofCode (v : BitVec 8) : TapIr :=
  match v.toNat with
  | 0x00 => .extest
  | 0x01 => .samplePreload
  | 0x02 => .idcode
  | 0x03 => .clamp
  | 0x04 => .highz
  | 0x10 => .mstat
  | _ => .bypass

/-- Hold an instruction in the port. -/
def Device.setTap (d : Device) (f : Tap → Tap) : Device := { d with tap := f d.tap }

/-- The contacts are captured: what they carry is a free value, and so is the order of the cells (log entry 15). -/
def Device.capture (d : Device) : Device :=
  let (w, d) := d.freeWord
  d.setTap (fun t => { t with out := w })

/-- EXTEST (R511). -/
def Device.extest (d : Device) (cells : List Bool) : Device :=
  if d.scanOpen then (d.setTap (fun t => { t with ir := .extest, cells := cells, refused := false })).capture
  else d.setTap (fun t => { t with ir := .bypass, refused := true })

/-- SAMPLE/PRELOAD (R511). -/
def Device.samplePreload (d : Device) (cells : List Bool) : Device :=
  (d.setTap (fun t => { t with ir := .samplePreload, cells := cells })).capture

/-- CLAMP and HIGHZ (R511). -/
def Device.holdPins (d : Device) (ir : TapIr) : Device :=
  if d.scanOpen then d.setTap (fun t => { t with ir := ir, refused := false })
  else d.setTap (fun t => { t with ir := .bypass, refused := true })

/-- IDCODE and MSTAT (R511, R512). -/
def Device.readTap (d : Device) (ir : TapIr) (w : Word) : Device := d.setTap (fun t => { t with ir := ir, out := w })

/-- TMX_SELECT (R508). -/
def execTmxSelect (k : Nat) (v : Word) (s : State) : Host.Outcome State Fault Refusal := .next (s.onDev (fun d => d.tmxSelect k v))
/-- SCRUB (R509). -/
def execScrub (v : Word) (s : State) : Host.Outcome State Fault Refusal := .next (s.onDev (fun d => d.scrub v))
/-- SCRUB_COMPLETE (R509). -/
def execScrubComplete (p : Nat) (s : State) : Host.Outcome State Fault Refusal := .next (s.onDev (fun d => d.scrubComplete p))
/-- EXTEST (R511). -/
def execExtest (c : List Bool) (s : State) : Host.Outcome State Fault Refusal := .next (s.onDev (fun d => d.extest c))
/-- SAMPLE_PRELOAD (R511). -/
def execSamplePreload (c : List Bool) (s : State) : Host.Outcome State Fault Refusal := .next (s.onDev (fun d => d.samplePreload c))
/-- IDCODE (R512). -/
def execIdcode (s : State) : Host.Outcome State Fault Refusal := .next (s.onDev (fun d => d.readTap .idcode (idcodeOf d.grade)))
/-- CLAMP (R511). -/
def execClamp (s : State) : Host.Outcome State Fault Refusal := .next (s.onDev (fun d => d.holdPins .clamp))
/-- HIGHZ (R511). -/
def execHighz (s : State) : Host.Outcome State Fault Refusal := .next (s.onDev (fun d => d.holdPins .highz))
/-- MSTAT (R512). -/
def execMstat (s : State) : Host.Outcome State Fault Refusal := .next (s.onDev (fun d => d.readTap .mstat d.mstatWord))
/-- BYPASS (R511). -/
def execBypass (s : State) : Host.Outcome State Fault Refusal := .next (s.onDev (fun d => d.setTap (fun t => { t with ir := .bypass })))

end Sys2Proof.Machine
end

