-- ==== Sys2Proof/Machine/Regs.lean ====
section
/-! DEFINITION. Reading and writing device registers: what each register reads as, what a read clears, and what a write of each
register does (R15, R196, and the register tables of every block). -/

namespace Sys2Proof.Machine

/-! ### Reads -/

/-- The code of a domain state (R514). -/
def DomState.code : DomState → Nat | .off => 0 | .ramp => 1 | .on => 2 | .retain => 3 | .fault => 4

/-- The code of an identity state (R453). -/
def IdState.code : IdState → Nat | .empty => 0 | .ok => 1 | .absent => 2 | .badCrc => 3 | .badFormat => 4 | .timeout => 5

/-- PAR.MODE.CUR (R409). -/
def Device.modeCode (d : Device) (p : Nat) : Nat :=
  if (d.part p).inCocoon then 5 else if d.partCovered p then 0 else (d.modeNow p).code

/-- PWR.HPSTAT (R514). -/
def Device.hpStat (d : Device) : Word :=
  (d.reg .pwrHpstat &&& 0x20) ||| boolWord d.pins.removeOk <<< 4 ||| boolWord (decide (d.phase = .ejectDrain)) <<< 3 |||
  boolWord d.pins.ejectLow <<< 2 ||| boolWord d.pins.seatLow <<< 1 ||| boolWord d.pins.mainGood

/-- Word w of identity entry i (R453, R455). -/
def Device.idWord (d : Device) (i w : Nat) : Word :=
  let x : IdEntry := Assoc.get {} d.ids i
  match w with
  | 0 => word x.state.code
  | 1 => 0
  | k + 2 => word (fromBytes ((x.record.drop (4 * k)).take 4))

/-- CFG.SPAREc (R75): what the fuses and the self-test have mapped, and CLFAIL. -/
def Device.spareWord (d : Device) (c : Nat) : Word :=
  let fused := d.fusedSpares.any (fun x => decide (x.1 = c))
  let field := !fused && d.failedSlots.any (fun x => decide (x.1 = c))
  (d.reg (.cfgSpare c) &&& 0x800) ||| word ((if field then 0x400 else 0) + (if fused then 0x200 else 0) +
    match d.spareServes c with | some l => 0x100 + l % 16 | none => 0)

/-- What a register reads as. -/
def Device.regValue (d : Device) (r : Reg) : Word :=
  match r with
  | .rstStat => setBit (d.reg .rstStat) 3 (!d.sources.isEmpty)
  | .pwrHpstat => d.hpStat
  | .pwrDom n => (d.reg (.pwrDom n) &&& (if n < 68 then 0xFF00 else 0)) ||| word (d.domain n).code
  | .cfgBoot => setFld (setFld (setBit (d.reg .cfgBoot) 7 d.keys.anchor.isSome) 4 2 d.bootState) 1 3 d.bootStage
  | .cfgSpare c => d.spareWord c
  | .cfgMrep c => Assoc.get 0 d.fusedColumns c &&& 0x3FFFFFFF
  | .parMode p => word ((d.part p).reason * 256 + (if (d.part p).pending.isSome then 128 else 0) + d.modeCode p * 16)
  | .parStat p =>
    boolWord (d.part p).fence <<< 9 ||| boolWord (!d.released p || d.partCovered p) <<< 8 ||| (d.part p).epoch.setWidth 32
  | .ptrRpend k => word (d.router k).ring.length
  | .ptrFstat p => (d.reg (.ptrFstat p) &&& 0x100) ||| word (d.part p).forces.length
  | .timNsl => word d.timeNs
  | .timNsh => word (d.timeNs / 2 ^ 32)
  | .celKstat => setBit (d.reg .celKstat) 16 d.keys.cabinet.isSome
  | .celStat p =>
    setBit (d.reg (.celStat p)) 4 ((d.part p).recorder.open_.any (fun (v : Vintage) => v.pace))
  | .fldLstat n => setBit (d.reg (.fldLstat n)) 3 (d.isOffline .fieldLane n)
  | .idnStat => boolWord (!d.scanning.isEmpty)
  | .idnEntry i w => d.idWord i w
  | .capUnits => d.grade.units
  | .capSize => d.grade.size
  | r => d.reg r &&& ~~~ r.access.hidden

/-- A read of a register: its value, and its RC bits cleared (R15). -/
def Device.regRead (d : Device) (r : Reg) : Word × Device :=
  (d.regValue r, if r.access.rc = 0 then d else d.setReg r (d.reg r &&& ~~~ r.access.rc))

/-- A word load of engine e from register space at a canonical address (R166, R332); an address that holds no register reads 0
(log entry 16). -/
def Device.regLoad (d : Device) (e a : Nat) : Word × Device :=
  match Reg.ofAddr a with
  | none => (0, d)
  | some .timNsl => d.timNsl e
  | some .timNsh => d.timNsh e
  | some r => d.regRead r

/-! ### Writes -/

/-- The masks of R15 applied to a write: RW and, until the lock, RWL bits take the datum; W1C bits written 1 clear. -/
def Access.apply (x : Access) (locked : Bool) (old v : Word) : Word :=
  let m := x.rw ||| x.hidden ||| (if locked then 0 else x.rwl)
  ((old &&& ~~~ m) ||| (v &&& m)) &&& ~~~ (v &&& x.w1c)

/-- Is the partition table locked, and with it every RWL field (R396)? -/
def Device.locked (d : Device) : Bool := bit (d.reg .parLock) 0

/-- A plain write of a register. -/
def Device.plainWrite (d : Device) (r : Reg) (v : Word) : Device :=
  d.setReg r (r.access.apply d.locked (d.reg r) v)

/-- A write of RST.MWDCTL: EN takes only 1, and starts the count (R489). -/
def Device.mwdCtl (d : Device) (v : Word) : Device :=
  let old := d.reg .rstMwdctl
  let d := d.setReg .rstMwdctl ((v &&& 0x8000FFFF) ||| (old &&& 0x80000000))
  if bit v 31 && !bit old 31 then { d with mwdCount := 0, mwdPre := false } else d

/-- A write of PAR.WDCTLp (R408). -/
def Device.wdCtl (d : Device) (p : Nat) (v : Word) : Device :=
  let old := d.reg (.parWdctl p)
  let d := d.setReg (.parWdctl p) ((v &&& 0x8000FFFF) ||| (old &&& 0x80000000))
  if bit v 31 && !bit old 31 then d.onPart p (fun x => { x with wdCount := 0, wdPre := false }) else d

/-- A write of TRL.SVC (R406). -/
def Device.svc (d : Device) (v : Word) : Device :=
  let cls := match fld v 16 2 with | 0 => UnitClass.cluster | 1 => .fieldLane | 2 => .linkLane | _ => .dramStack
  match fld v 24 2 with
  | 1 => d.outOfService cls (fld v 0 6)
  | 2 => d.returnUnit cls (fld v 0 6)
  | _ => d

/-- A write of CEL.KCTL (R375, R385). -/
def Device.keyCtl (d : Device) (v : Word) : Device :=
  match fld v 0 2 with
  | 1 => d.enroll
  | 2 => d.newkey (fld v 4 4)
  | 3 => d.clearKey
  | _ => d

/-- A write of CEL.CTLp: POLICY until the lock, REARM, and EN (R357, R358, R385). -/
def Device.celCtlWrite (d : Device) (p : Nat) (v : Word) : Device :=
  let was := bit (d.reg (.celCtl p)) 0
  let d := if d.locked then d else d.setRegFld (.celCtl p) 2 2 (fld v 2 2)
  let d := if bit v 1 then d.rearm p else d
  if bit v 0 && !was then d.celEnable p else if !bit v 0 && was then d.celDisable p else d

/-- The command of CFG.QCMD (R490). -/
def qcmdOf : Nat → Option QCmd
  | 1 => some .read | 2 => some .program | 3 => some .erase4k | 4 => some .erase64k | 5 => some .armTrial | 6 => some .anchor
  | _ => none

/-- Does a ring-1 write of EVR.ROUTEn name an engine outside the writer's partition (R307)? -/
def Device.routeForeign (d : Device) (w : Writer) (v : Word) : Bool :=
  decide (w.ring ≠ 0) && decide (d.engPart (fld v 0 10) ≠ w.part)

/-- May ring 1 of a partition write only the W1C bits of a register (R407)? Of the other fields of such a register a write of ring 1 changes none (log
entry 96). -/
def Reg.ringZeroFields : Reg → Bool
  | .parCll _ | .parClh _ | .parFll _ | .parFlh _ | .parOwn _ | .parQos _ | .parWays _ | .parStart _ | .parDrb _ _ | .parDrl _ _
  | .parStat _ | .parCause _ | .parDta _ | .parDtb _ => true
  | _ => false

/-- What a permitted write of a register does. -/
def Device.regWrite (d : Device) (w : Writer) (r : Reg) (v : Word) : Device :=
  match r with
  | .rstSwrst => if fld v 24 8 = 0xC3 then d.swReset (fld v 0 3) (fld v 10 10) else d
  | .rstMwdctl => d.mwdCtl v
  | .rstMwdkick => d.mwdKick v
  | .pwrCctl => let d := d.plainWrite r v; if bit v 0 then d.cocoonRequest else d
  | .pwrDom n => d.vset n (BitVec.ofNat 8 (fld v 8 8))
  | .cfgCommit => d.commitTrial v
  | .cfgFallback => d.fallBack v
  | .cfgQcmd => match qcmdOf (fld v 0 4) with | some c => d.qcmdStart c | none => d
  | .parMode p => d.modeRequest p (BitVec.ofNat 3 (fld v 0 3))
  | .parWdctl p => d.wdCtl p v
  | .parWdkick p => d.wdKick p v
  | .trlSvc => d.svc v
  | .evrRoute _ => if d.routeForeign w v then d else d.plainWrite r v
  | .evrTctl n => d.timerArm n false v
  | .evrTper n => d.timerArm n true v
  | .evrRaise p => d.softwareRaise p v
  | .ptrFctl p => match fld v 0 2 with | 1 => d.force p | 2 => d.forceRelease p | _ => d
  | .timAdj => d.timAdj v
  | .timCmd => match fld v 0 2 with | 1 => d.timSet | 2 => d.timOffset | _ => d
  | .celKctl => d.keyCtl v
  | .celCtl p => d.celCtlWrite p v
  | .fldRxb n => (d.plainWrite r v).onLane n (fun l => { l with rxStopped := false })
  | .fldTxb n => (d.plainWrite r v).onLane n (fun l => { l with txStopped := false })
  | .lnkCmd => if fld v 8 2 = 1 then d.lineReset (fld v 0 4) else d
  | .hstIntset => d.intSet v
  | .idnCmd => if bit v 0 then d.rescan (if w.ring = 0 then none else w.part) else d
  | .tmxSel k => d.tmxSelect k v
  | .tmxScrub => d.scrub v
  | r => if w.ring ≠ 0 && r.ringZeroFields then d.setReg r (d.reg r &&& ~~~ (v &&& r.access.w1c)) else d.plainWrite r v

/-- A word store into register space: nothing where no register stands (log entry 16). -/
def Device.regStore (d : Device) (w : Writer) (a : Nat) (v : Word) : Device :=
  match Reg.ofAddr a with | some r => d.regWrite w r v | none => d

/-- REGISTER_WRITE: a write that R10 and R196 permit takes effect; any other changes nothing (log entry 1). -/
def Device.registerWrite (d : Device) (w : Writer) (a : Nat) (v : Word) : Device :=
  match regionOf a with
  | some (.device b) =>
    if absentUnit d.grade a ∨ a % 4 ≠ 0 ∨ d.regDetail b (Reg.ofAddr a) w.ring.toNat w.part true ≠ 0 then d
    else d.regStore w a v
  | _ => d

/-- REGISTER_WRITE (R15). -/
def execRegisterWrite (w : Writer) (a : Nat) (v : Word) (s : State) : Host.Outcome State Fault Refusal :=
  .next (s.onDev (fun d => d.registerWrite w a v))

end Sys2Proof.Machine
end

