-- ==== Sys2Proof/Machine/Lsu.lean ====
section
/-! DEFINITION. The completion of lsu operations: loads, stores and atomics on every region, completion faults and their
cancellations, collisions, check bits and recorded inputs (R56, R164 to R192, R274, R346, R380, R520). -/

namespace Sys2Proof.Machine

/-- The result of a load from the number that its bytes form (R169). -/
def LsuOp.extend (op : LsuOp) (raw : Nat) : Word :=
  match op with
  | .ldh => (BitVec.ofNat 16 raw).signExtend 32
  | .ldb => (BitVec.ofNat 8 raw).signExtend 32
  | .ldhu => word (raw % 65536)
  | .ldbu => word (raw % 256)
  | _ => word raw

/-- What an atomic stores (R169); no flag is set. -/
def LsuOp.combine (op : LsuOp) (old t : Word) : Word :=
  match op with
  | .aadd => old + t
  | .aand => old &&& t
  | .aor => old ||| t
  | _ => t

/-- A store of an engine into memory. Into the first two words of a queue header it enables, or empties, the channel (R274). -/
def Device.engineStore (d : Device) (a size : Nat) (v : Word) : Device :=
  let bs := toBytes size v.toNat
  match regionOf a with
  | some (.xram _) =>
    let off := a % 0x10000
    if 0x800 ≤ off ∧ off < 0x1000 then
      let h := a / 16 * 16
      let was := bit (d.loadWord h) 31
      let d := d.writeBytes a bs
      if was then d.chEmpty h
      else if bit (d.loadWord h) 31 then (d.storeWord (h + 8) 0).storeWord (h + 12) 0
      else d
    else d.writeBytes a bs
  | _ => (d.noteStore none a size).writeBytes a bs

/-- The oldest lsu operation of an engine, where it can complete by the step that begins: at its exact step in Paced; in Free mode
one step after the operation before it, once its target has granted it and its page is filled (R56, R174, R177, R189). -/
def Device.lsuHead (d : Device) (e : Nat) : Option LsuRun :=
  match (d.eng e).lsu with
  | [] => none
  | l :: _ => if l.due ≤ d.nowStep e ∧ (d.paced e ∨ ((d.eng e).lsuLast < d.nowStep e ∧ !d.lsuWaits e l)) then some l else none

/-- The completion step of an operation that completes now. -/
def Device.lsuStep (d : Device) (e : Nat) (l : LsuRun) : Nat := if d.paced e then l.due else d.nowStep e

/-- The head operation leaves the queue at a completion step, which orders and spaces the next ones (R56, R168, R175). -/
def Engine.lsuDone (x : Engine) (l : LsuRun) (s : Nat) : Engine :=
  { x with
    lsu := x.lsu.drop 1
    lsuLast := s
    lsuNear := if l.cls = .near then some s else x.lsuNear
    lsuIo := if l.cls = .io then some s else x.lsuIo }

/-- An operation completes with `lsu.r` and `lsu.st` (R169, R171). -/
def Device.lsuAnswer (d : Device) (e : Nat) (l : LsuRun) (v st : Word) : Device :=
  let s := d.lsuStep e l
  d.onEng e (fun x => (x.commit l.ctx [(.lsuR, v), (.lsuSt, st)]).lsuDone l s)

/-- A completion fault (R168): the later operations of the same context are cancelled, those of another are ordered from the failing one (R56),
the window of the result before ends (R58), and the fault stays pending for its context or the one that answers for it (R520); it goes with a
context that a change of mode ended (R29). -/
def Device.lsuFail (d : Device) (e : Nat) (l : LsuRun) (code detail : Nat) : Device :=
  let s := d.lsuStep e l
  d.onEng e (fun x =>
    let x := ((x.lsuDone l s).closeIn l.ctx .lsuR).closeIn l.ctx .lsuSt
    let ctx := x.heir l.ctx
    { x with
      lsu := redue (d.paced e) s x.lsuNear x.lsuIo (x.lsu.filter (fun k => decide (k.ctx ≠ l.ctx)))
      pendingFaults := x.pendingFaults ++ (if ctx = x.ctx ∨ (x.setOf ctx).isSome then
        [{ at_ := l.due, trig := l.trig, code := code, detail := detail, sfa := l.issue, ctx := ctx, completion := true }] else []) })

/-- A completion fault or a corrected bit is an input (R346): it is recorded, and in a Decant taken from the record (R380, R382). -/
def Device.hwStatus (d : Device) (e : Nat) (l : LsuRun) (fault : Option (Nat × Nat)) (cor : Bool) : (Option (Nat × Nat) × Bool) × Device :=
  match d.engPart e with
  | none => ((fault, cor), d)
  | some p =>
    match d.decantOf p with
    | none =>
      match fault with
      | some (c, x) => ((fault, false), d.record p recHWSTAT e (wordsBytes [word (2 + 256 * c + 65536 * x), l.issue]))
      | none => ((none, cor), if cor then d.record p recHWSTAT e (wordsBytes [1, l.issue]) else d)
    | some _ =>
      let who := d.seenEngine e e
      match d.consume p recHWSTAT who with
      | some (r, d) =>
        let d := if r.w 1 = l.issue then d else d.diverge p 4 (some who) none
        if fld (r.w 0) 0 8 = 2 then ((some (fld (r.w 0) 8 8, fld (r.w 0) 16 8), false), d)
        else ((fault, true), if fault.isSome then d.diverge p 6 (some who) none else d)
      | none => ((fault, false), if fault.isSome then d.missing p 6 (some who) none else d)

/-- The datum of a register store of a shadow that decants, with the engine of a route and the number of a raised source in its own numbers (R378, log
entry 75). -/
def Device.placeDatum (d : Device) (e ca : Nat) (v : Word) : Word :=
  match d.engPart e with
  | none => v
  | some p => match d.recorded p with
    | none => v
    | some q => match Reg.ofAddr ca with
      | some (.evrRoute _) => setFld v 0 10 (d.mapEngine q p (fld v 0 10))
      | some (.evrRaise _) => word (mapList (d.ownedSources q) (d.ownedSources p) v.toNat)
      | some (.ptrFpnt _) => setFld v 0 25 (d.mapPoint q p (fld v 0 25))
      | _ => v

/-- Is the thing at an address one of the recorded partition, for which the shadow has none: its loads take their records, and nothing of a store reaches
it (R378, R380; log entry 75)? -/
def Device.onlyRecorded (d : Device) (e ca : Nat) : Bool :=
  match (d.engPart e).bind d.recorded with
  | none => false
  | some q =>
    match regionOf ca with
    | some .mailbox => decide (d.hostOwner = some q)
    | some (.device _) => (match Reg.ofAddr (ca / 4 * 4) with | some r => decide (d.regScope r = .ofPart q) | none => false)
    | _ => false

/-- An operation on register space completes (R166, R346): a load is an input of the partition in every block but CAP, with the value of the pace period
of its completion, TIM.NSL's too (R332; log entry 82). -/
def Device.lsuDevice (d : Device) (e : Nat) (l : LsuRun) (ca b : Nat) : Device :=
  match l.op.kind with
  | .load =>
    let replay := match d.engPart e with | some p => (d.decantOf p).isSome | none => false
    let (v, d) := if replay && decide (b ≠ 15) then (0, d) else d.regLoad e ca
    let ((v, st), d) := if b = 15 then ((v, 0), d) else d.inputLoad e 4 l.addr v 0
    d.lsuAnswer e l v st
  | _ =>
    if d.onlyRecorded e ca then d.lsuAnswer e l 0 0
    else (d.regStore { ring := l.ring, part := d.engPart e } ca (d.placeDatum e ca l.datum)).lsuAnswer e l 0 0

/-- The effect of an operation on memory that does not fail, with its `lsu.st` (R169, R180, R346). `hit` says how it met the other port. -/
def Device.lsuMemory (d : Device) (e : Nat) (l : LsuRun) (ca : Nat) (hit : Collision) (st : Word) : Device :=
  let portB := !ownCluster e ca
  let input := fun (d : Device) (v : Word) => match regionOf ca with
    | some .mailbox => d.inputLoad e l.op.size l.addr v st
    | _ => ((v, st), d)
  match l.op.kind with
  | .load =>
    let d := (d.portRead l.posted ca l.op.size portB hit).2.throughCache (d.engPart e) ca false
    let (raw, d) := if hit = .none then (fromBytes (d.windowBytes ca l.op.size), d)
      else let (w, d) := d.freeWord; (w.toNat % 256 ^ l.op.size, d)
    let ((v, st), d) := input d (l.op.extend raw)
    d.lsuAnswer e l v st
  | .store =>
    if d.onlyRecorded e ca then d.lsuAnswer e l 0 st else
    let d := d.throughCache (d.engPart e) ca true
    ((d.portWrite l.posted ca l.op.size portB hit (fun d => d.engineStore ca l.op.size l.datum)).2).lsuAnswer e l 0 st
  | .atomic =>
    let ((old, st), d) := input d (d.loadWord ca)
    if d.onlyRecorded e ca then d.lsuAnswer e l old st else
    ((d.throughCache (d.engPart e) ca true).engineStore ca 4 (l.op.combine old l.datum)).lsuAnswer e l old st

/-- An operation on memory completes: what has struck its check word, what the completion reports, and its effect. -/
def Device.lsuOnMemory (d : Device) (e : Nat) (l : LsuRun) (ca : Nat) (hit : Collision) (upset : Option Upset) : Device :=
  let mailbox := inMailbox ca
  let load := match l.op.kind with | .load => true | _ => false
  let replay := match d.engPart e with | some p => (d.decantOf p).isSome | none => false
  let unread := replay && mailbox && load
  let hit := if decide (l.op.kind = .atomic) || unread then .none
    else if inXram ca || mailbox then meets ((checkWords ca l.op.size).map (fun w => d.verdict l.posted w (!ownCluster e ca) (!load) hit)) else .none
  let blind := unread || (decide (hit ≠ .none) && load)
  let d := match upset with
    | some u => if unread || d.uncorrectable (ca / 8 * 8) 8 then d else { d with marks := Assoc.put d.marks (ca / 8 * 8) u }
    | none => d
  let bad := !blind && d.uncorrectable ca l.op.size
  let live : Option (Nat × Nat) := if d.offline ca then some (3, 3) else if bad then some (0x0D, 0) else none
  let d := if !d.offline ca && bad then d.eccError ca else d
  let (cor, d) := if live.isNone && !blind then d.correct ca l.op.size else (false, d)
  let ((fault, cor), d) := d.hwStatus e l live cor
  match fault with
  | some (code, detail) => d.lsuFail e l code detail
  | none => d.lsuMemory e l ca hit (boolWord cor ||| (boolWord (decide (hit = .later)) <<< 1))

/-- LSU_COMPLETE (R56): the oldest lsu operation of engine e completes. `hit` says how it met the other port of a dual-port
memory, `upset` what has struck a check word it reads. -/
def Device.lsuComplete (d : Device) (e : Nat) (hit : Collision) (upset : Option Upset) : Device :=
  match d.lsuHead e with
  | none => d
  | some l =>
    let ca := d.place e l.addr
    let d := if l.cls = .none then d else d.dropRequest (d.targetFor ca) (.lsu e)
    match regionOf ca with
    | some (.device b) => d.lsuDevice e l ca b
    | _ => d.lsuOnMemory e l ca hit upset

/-- LSU_COMPLETE (R56). -/
def execLsuComplete (e : Nat) (h : Collision) (u : Option Upset) (s : State) : Host.Outcome State Fault Refusal :=
  .next (s.onDev (fun d => d.lsuComplete e h u))

end Sys2Proof.Machine
end

