-- ==== Sys2Proof/Machine/Rings.lean ====
section
/-! DEFINITION. What a field lane receives and the rings of plain frames: the checks of a received frame, the receive ring, the transmit ring (R411,
R417, R424, R425, R428). -/

namespace Sys2Proof.Machine

/-! ### The accesses of a ring -/

/-- A lane's write on behalf of partition p: in register space each word is a register write of its ring 1 (log entry 93). -/
def Device.ringWrite (d : Device) (n p a : Nat) (bs : List Byte) : Device :=
  match regionOf a with
  | some (.device _) =>
    foldDev (fun d i => d.registerWrite { ring := 1, part := some p } (a + 4 * i) (wordOf bs i)) d (List.range ((bs.length + 3) / 4))
  | _ => d.masterWrite d.now a bs.length (fun d => d.storeFor (some p) (68 + n) a bs)

/-- The words of the registers from an address on that partition p's ring 1 may read. -/
def Device.registerRun (d : Device) (p a : Nat) : Nat → List Word × Device
  | 0 => ([], d)
  | k + 1 =>
    let (w, d) := match Reg.ofAddr a with
      | some r => if d.regDetail (a % 0x1000000 / 0x100000) (some r) 1 (some p) false = 0 then d.regRead r else (0, d)
      | none => (0, d)
    let x := d.registerRun p (a + 4) k
    (w :: x.1, x.2)

/-- A lane's read on behalf of partition p. -/
def Device.ringRead (d : Device) (p a len : Nat) : List Byte × Device :=
  match regionOf a with
  | some (.device _) => let (ws, d) := d.registerRun p a ((len + 3) / 4); ((wordsBytes ws).take len, d)
  | _ => (d.readOver a len).masterRead a len

/-! ### Plain receive (R424, R425) -/

/-- Bytes of a ring slot. -/
def Device.ringSlot (d : Device) (n : Nat) : Nat := if bit (d.reg (.fldLctl n)) 5 then 16384 else 2048

/-- Slots of a ring with a K from 3 to 12; none otherwise (R428). -/
def ringCount (b : Word) : Option Nat := if 3 ≤ fld b 28 4 ∧ fld b 28 4 ≤ 12 then some (2 ^ fld b 28 4) else none

/-- The physical address of slot i of a ring. -/
def Device.slotAddr (d : Device) (n : Nat) (b : Word) (i : Nat) : Nat := fld b 0 28 * 4096 + i * d.ringSlot n

/-- The status of an access to a run of n bytes of a ring slot: its first byte, then its last (a slot meets at most two regions, R428). -/
def Device.slotStatus (d : Device) (p a n : Nat) (store : Bool) : Nat :=
  let st := d.partStatus p a n store
  if st = 0 then d.partStatus p (a + n - 1) 1 store else st

/-- A plain frame is written into the slot at HEAD, and HEAD advances (R425); a full ring drops it, a failed access stops the
ring (R428). -/
def Device.plainDeliver (d : Device) (n p : Nat) (bytes : List Byte) (stamp : BitVec 48) : Device :=
  let b := d.reg (.fldRxb n)
  match ringCount b with
  | none => d.count n cntPLAINDROP
  | some k =>
    let head := fld (d.reg (.fldRxh n)) 0 16 % k
    let tail := fld (d.reg (.fldRxh n)) 16 16 % k
    let a := d.slotAddr n b head
    if (head + 1) % k = tail || (d.lane n).rxStopped then d.count n cntPLAINDROP else
    let st := d.slotStatus p a (16 + bytes.length) true
    if st ≠ 0 then
      ((d.logError (some p) (68 + n) st a).onLane n (fun l => { l with rxStopped := true })).count n cntPLAINDROP
    else
      let hdr := wordsBytes [word bytes.length, stamp.setWidth 32, word (stamp.toNat / 2 ^ 32), 0]
      ((d.askMaster (some p) (68 + n) a).ringWrite n p a (hdr ++ bytes)).setRegFld (.fldRxh n) 0 16 ((head + 1) % k)

/-- Is a frame PAUSE or PFC (R411): a MAC control frame, Ethertype 0x8808, of opcode 0x0001 or 0x0101 (IEEE 802.3, log entry 61)? -/
def isPause (f : List Byte) : Bool :=
  decide (at_ f 12 = 0x88 ∧ at_ f 13 = 0x08) && decide (at_ f 14 = 0 ∨ at_ f 14 = 1) && decide (at_ f 15 = 1)

/-- PLAIN_RECEIVE (R411, R424). -/
def Device.plainReceive (d : Device) (n : Nat) (bytes : List Byte) : Device :=
  let dst := bytes.take 6
  let wanted := dst = d.laneMac n ∨ dst = broadcast ∨ dst = [0x01, 0x1B, 0x19, 0, 0, 0] ∨ dst = [0x01, 0x80, 0xC2, 0, 0, 0x0E]
  match d.laneOwner n with
  | none => d.count n cntPLAINDROP
  | some p =>
    if !bit (d.reg (.fldLctl n)) 6 || !bit (d.reg (.fldLstat n)) 1 || d.heldNow p || !decide wanted || isPause bytes then d.count n cntPLAINDROP
    else
      let stamp := d.rxStamp n bytes.length
      let head := fld (d.reg (.fldRxh n)) 0 16
      let d := d.plainDeliver n p bytes stamp
      if fld (d.reg (.fldRxh n)) 0 16 = head then d else d.record p recETH_IN (srcLane n) (frameRecord 0 stamp bytes)

/-! ### Receive (R417) -/

/-- The checks of R417 for a frame with a good FCS and Kryene's Ethertype. -/
def Device.kryeneReceive (d : Device) (n : Nat) (bytes : List Byte) : Device :=
  let k := kryeneOf bytes
  let desc := d.descriptor n k.frame
  if k.ver ≠ 1 ∨ k.type = 0 ∨ 4 < k.type ∨ k.reserved then d.count n cntBADHDR
  else if k.type = 3 then d.plainReceive n bytes
  else if k.type = 2 then d.identResponse n bytes
  else if k.type = 4 then d
  else match d.laneOwner n with
    | none => d.count n cntUNARMED
    | some p =>
      if d.heldNow p || !bit (d.reg (.fldLstat n)) 1 then d.count n cntUNARMED
      else if !desc.inbound || !d.pdlenOk n k.pdlen ||
          decide (k.station ≠ desc.station.toNat ∨ k.pdlen ≠ desc.pdin ∨ k.data.length < k.pdlen) then
        d.count n cntBADHDR
      else
        let last := ((d.lane n).lastCycle.find? (fun x => decide (x.1 = k.frame))).map (·.2)
        let (pass, jump) := cycleCheck last k.first k.cycle
        if !pass then d.count n cntDUP
        else if d.inPaced p && (d.lane n).lateAt.any (fun x => decide (x.1 = k.frame ∧ (d.rxStamp n bytes.length).toNat < x.2)) then d
        else d.acceptFrame n p bytes k jump

/-- FRAME_RECEIVE (R417). -/
def Device.frameReceive (d : Device) (n : Nat) (bytes : List Byte) (fcsGood : Bool) : Device :=
  if !d.laneUp n || !d.lengthOk n bytes.length then d
  else if d.laneMuted n then d.count n cntMUTED
  else if !fcsGood then d.count n cntBADFCS
  else if !isKryene bytes then d.plainReceive n bytes
  else d.kryeneReceive n bytes

/-! ### Plain transmit (R425) -/

/-- Would a plain frame of so many bytes delay a send step of the lane (R425)? -/
def Device.wouldDelay (d : Device) (n p bytes : Nat) : Bool :=
  match (d.part p).cycleAt with
  | none => false
  | some c =>
    (List.range 256).any (fun f =>
      let desc := d.descriptor n f
      desc.outbound && [c + desc.send, c + d.cycleLen p + desc.send].any (fun k =>
        decide (d.now ≤ k) && decide ((k - d.now) * d.pace.s * 32 / 25 < d.wireNs n (bytes + 24))))

/-- PLAIN_TRANSMIT (R348, R425, R428): the slot at HEAD is sent, its timestamp is written, HEAD advances. A slot whose LEN the lane cannot carry is passed
over (R410; log entry 95). -/
def Device.plainTransmit (d : Device) (n : Nat) : Device :=
  let b := d.reg (.fldTxb n)
  match d.laneOwner n, ringCount b with
  | some p, some k =>
    let head := fld (d.reg (.fldTxh n)) 0 16 % k
    let tail := fld (d.reg (.fldTxh n)) 16 16 % k
    let a := d.slotAddr n b head
    let replay := (d.decantOf p).isSome
    if d.heldNow p || d.ejectStopped || decide (head = tail) || (d.lane n).txStopped || (!replay && (!d.laneUp n || decide (d.modeNow p = .decant))) then d else
    let st := d.slotStatus p a (16 + fld (d.loadWord a) 0 14) false
    let st := if st = 0 then d.partStatus p a 16 true else st
    if st ≠ 0 then (d.logError (some p) (68 + n) st a).onLane n (fun l => { l with txStopped := true })
    else if !replay && d.wouldDelay n p (fld (d.loadWord a) 0 14) then d else
    let (hdr, d) := (d.askMaster (some p) (68 + n) a).ringRead p a 16
    let (bytes, d) := d.ringRead p (a + 16) (fld (wordOf hdr 0) 0 14)
    let stamp := d.partStamp p
    let next := fun (d : Device) => d.setRegFld (.fldTxh n) 0 16 ((head + 1) % k)
    let done := fun (d : Device) => next (d.ringWrite n p (a + 4) (wordsBytes [stamp.setWidth 32, word (stamp.toNat / 2 ^ 32)]))
    if !d.lengthOk n bytes.length then next d
    else if replay then
      match d.consumeFrame p recDIGEST (srcLane (d.seenLane p n)) 0 with
      | none => d
      | some (r, d) => if r.payload = wordsBytes (digestRecord 0 bytes) then done d else (done d).diverge p 1 none (some (d.seenLane p n, 0))
    else ((done d).transmit n bytes).record p recDIGEST (srcLane n) (wordsBytes (digestRecord 0 bytes))
  | _, _ => d

/-- FRAME_RECEIVE (R417). -/
def execFrameReceive (n : Nat) (f : List Byte) (g : Bool) (s : State) : Host.Outcome State Fault Refusal :=
  .next (s.onDev (fun d => d.frameReceive n f g))
/-- PLAIN_TRANSMIT (R425). -/
def execPlainTransmit (n : Nat) (s : State) : Host.Outcome State Fault Refusal := .next (s.onDev (fun d => d.plainTransmit n))

end Sys2Proof.Machine
end

