-- ==== Sys2Proof/Machine/Dispatch.lean ====
section
/-! DEFINITION. The one dispatch: each command to its meaning. -/

namespace Sys2Proof.Machine

/-- The effect of a command on everything but the queue. -/
def exec (i : Instr) (s : State) : Host.Outcome State Fault Refusal :=
  match i with
  | .issuePair e => Sys2Proof.Machine.execIssuePair e s
  | .repeatIteration e => Sys2Proof.Machine.execRepeatIteration e s
  | .lineDelivery e line => Sys2Proof.Machine.execLineDelivery e line s
  | .barrierRelease e => Sys2Proof.Machine.execBarrierRelease e s
  | .shortOpComplete e => Sys2Proof.Machine.execShortOpComplete e s
  | .divRetire e => Sys2Proof.Machine.execDivRetire e s
  | .fpuLongRetire e => Sys2Proof.Machine.execFpuLongRetire e s
  | .lsuComplete e hit upset => Sys2Proof.Machine.execLsuComplete e hit upset s
  | .sharedRequestStart c u => Sys2Proof.Machine.execSharedRequestStart c u s
  | .kinComplete c => Sys2Proof.Machine.execKinComplete c s
  | .iplComplete c => Sys2Proof.Machine.execIplComplete c s
  | .bmvComplete c => Sys2Proof.Machine.execBmvComplete c s
  | .bmvSuspend c => Sys2Proof.Machine.execBmvSuspend c s
  | .waitLimitExpire e => Sys2Proof.Machine.execWaitLimitExpire e s
  | .chPost e => Sys2Proof.Machine.execChPost e s
  | .chSendComplete e => Sys2Proof.Machine.execChSendComplete e s
  | .chRecvComplete e => Sys2Proof.Machine.execChRecvComplete e s
  | .evWaitComplete e => Sys2Proof.Machine.execEvWaitComplete e s
  | .taskLanding c => Sys2Proof.Machine.execTaskLanding c s
  | .routeDelivery => Sys2Proof.Machine.execRouteDelivery s
  | .softwareRaise p v => Sys2Proof.Machine.execSoftwareRaise p v s
  | .timerArm n per v => Sys2Proof.Machine.execTimerArm n per v s
  | .timerExpire n => Sys2Proof.Machine.execTimerExpire n s
  | .updateArrive k => Sys2Proof.Machine.execUpdateArrive k s
  | .updateApply r p => Sys2Proof.Machine.execUpdateApply r p s
  | .deliveryRecordWrite r => Sys2Proof.Machine.execDeliveryRecordWrite r s
  | .subscriberLineRaise r => Sys2Proof.Machine.execSubscriberLineRaise r s
  | .ptReadComplete e => Sys2Proof.Machine.execPtReadComplete e s
  | .ptSubComplete e => Sys2Proof.Machine.execPtSubComplete e s
  | .force p => Sys2Proof.Machine.execForce p s
  | .forceRelease p => Sys2Proof.Machine.execForceRelease p s
  | .forceApply p => Sys2Proof.Machine.execForceApply p s
  | .frameReceive n frame fcsGood => Sys2Proof.Machine.execFrameReceive n frame fcsGood s
  | .take n f => Sys2Proof.Machine.execTake n f s
  | .send n f => Sys2Proof.Machine.execSend n f s
  | .plainTransmit n => Sys2Proof.Machine.execPlainTransmit n s
  | .identResponse n frame => Sys2Proof.Machine.execIdentResponse n frame s
  | .identTimeout n k => Sys2Proof.Machine.execIdentTimeout n k s
  | .wakeFrame n frame => Sys2Proof.Machine.execWakeFrame n frame s
  | .laneLinkUp n => Sys2Proof.Machine.execLaneLinkUp n s
  | .laneReentry n => Sys2Proof.Machine.execLaneReentry n s
  | .cycleStart p => Sys2Proof.Machine.execCycleStart p s
  | .grantWindow => Sys2Proof.Machine.execGrantWindow s
  | .admissionEpoch => Sys2Proof.Machine.execAdmissionEpoch s
  | .paceLossDetect supply temp margin => Sys2Proof.Machine.execPaceLossDetect supply temp margin s
  | .refclkLoss => Sys2Proof.Machine.execRefclkLoss s
  | .refclkRelock => Sys2Proof.Machine.execRefclkRelock s
  | .timSet => Sys2Proof.Machine.execTimSet s
  | .timOffset => Sys2Proof.Machine.execTimOffset s
  | .timAdj v => Sys2Proof.Machine.execTimAdj v s
  | .timNslRead e => Sys2Proof.Machine.execTimNslRead e s
  | .timNshRead e => Sys2Proof.Machine.execTimNshRead e s
  | .modeRequest p req => Sys2Proof.Machine.execModeRequest p req s
  | .decantEnd p why => Sys2Proof.Machine.execDecantEnd p why s
  | .cocoonRequest => Sys2Proof.Machine.execCocoonRequest s
  | .cocoonEnter => Sys2Proof.Machine.execCocoonEnter s
  | .cocoonAlarm => Sys2Proof.Machine.execCocoonAlarm s
  | .wake why => Sys2Proof.Machine.execWake why s
  | .engineRestart => Sys2Proof.Machine.execEngineRestart s
  | .lowWater p => Sys2Proof.Machine.execLowWater p s
  | .caskCommit p ok => Sys2Proof.Machine.execCaskCommit p ok s
  | .rearm p => Sys2Proof.Machine.execRearm p s
  | .celEnable p => Sys2Proof.Machine.execCelEnable p s
  | .celDisable p => Sys2Proof.Machine.execCelDisable p s
  | .enroll => Sys2Proof.Machine.execEnroll s
  | .newkey p => Sys2Proof.Machine.execNewkey p s
  | .clear => Sys2Proof.Machine.execClear s
  | .defaultTarget master part addr write => Sys2Proof.Machine.execDefaultTarget master part addr write s
  | .targetGrant t => Sys2Proof.Machine.execTargetGrant t s
  | .fenceDrainEnd p => Sys2Proof.Machine.execFenceDrainEnd p s
  | .outOfService cls u => Sys2Proof.Machine.execOutOfService cls u s
  | .returnUnit cls u => Sys2Proof.Machine.execReturnUnit cls u s
  | .selfTestComplete cls u pass failed => Sys2Proof.Machine.execSelfTestComplete cls u pass failed s
  | .pageFillComplete page => Sys2Proof.Machine.execPageFillComplete page s
  | .domainFault n => Sys2Proof.Machine.execDomainFault n s
  | .vset n v => Sys2Proof.Machine.execVset n v s
  | .thermalWarning d tj => Sys2Proof.Machine.execThermalWarning d tj s
  | .supplyWarning w => Sys2Proof.Machine.execSupplyWarning w s
  | .powerOnMain => Sys2Proof.Machine.execPowerOnMain s
  | .powerOnAux => Sys2Proof.Machine.execPowerOnAux s
  | .seating => Sys2Proof.Machine.execSeating s
  | .bankCharged => Sys2Proof.Machine.execBankCharged s
  | .resetPin low => Sys2Proof.Machine.execResetPin low s
  | .lineRst low => Sys2Proof.Machine.execLineRst low s
  | .moduleWatchdog => Sys2Proof.Machine.execModuleWatchdog s
  | .partitionWatchdog p => Sys2Proof.Machine.execPartitionWatchdog p s
  | .mwdkick v => Sys2Proof.Machine.execMwdkick v s
  | .wdkick p v => Sys2Proof.Machine.execWdkick p v s
  | .swResetEngine e => Sys2Proof.Machine.execSwResetEngine e s
  | .swResetCluster c => Sys2Proof.Machine.execSwResetCluster c s
  | .swResetPartition p => Sys2Proof.Machine.execSwResetPartition p s
  | .swResetCore => Sys2Proof.Machine.execSwResetCore s
  | .swResetModule => Sys2Proof.Machine.execSwResetModule s
  | .swResetCold => Sys2Proof.Machine.execSwResetCold s
  | .criticalStateError st u => Sys2Proof.Machine.execCriticalStateError st u s
  | .thermalTrip => Sys2Proof.Machine.execThermalTrip s
  | .supplyFault => Sys2Proof.Machine.execSupplyFault s
  | .resetRelease k failed => Sys2Proof.Machine.execResetRelease k failed s
  | .rescan by_ => Sys2Proof.Machine.execRescan by_ s
  | .commit v => Sys2Proof.Machine.execCommit v s
  | .fallback v => Sys2Proof.Machine.execFallback v s
  | .read => Sys2Proof.Machine.execRead s
  | .program => Sys2Proof.Machine.execProgram s
  | .erase4k => Sys2Proof.Machine.execErase4k s
  | .erase64k => Sys2Proof.Machine.execErase64k s
  | .armTrial => Sys2Proof.Machine.execArmTrial s
  | .anchor => Sys2Proof.Machine.execAnchor s
  | .qcmdComplete err => Sys2Proof.Machine.execQcmdComplete err s
  | .hostRead a be hit => Sys2Proof.Machine.execHostRead a be hit s
  | .hostWrite a be v hit => Sys2Proof.Machine.execHostWrite a be v hit s
  | .protocolError err => Sys2Proof.Machine.execProtocolError err s
  | .intset v => Sys2Proof.Machine.execIntset v s
  | .linkBlockReceive m b => Sys2Proof.Machine.execLinkBlockReceive m b s
  | .linkDown m drain => Sys2Proof.Machine.execLinkDown m drain s
  | .lineReset m => Sys2Proof.Machine.execLineReset m s
  | .surpriseDown n sub => Sys2Proof.Machine.execSurpriseDown n sub s
  | .eject => Sys2Proof.Machine.execEject s
  | .ejectDrainEnd timedOut => Sys2Proof.Machine.execEjectDrainEnd timedOut s
  | .seal => Sys2Proof.Machine.execSeal s
  | .sealComplete => Sys2Proof.Machine.execSealComplete s
  | .tmxSelect k v => Sys2Proof.Machine.execTmxSelect k v s
  | .scrub v => Sys2Proof.Machine.execScrub v s
  | .scrubComplete p => Sys2Proof.Machine.execScrubComplete p s
  | .extest cells => Sys2Proof.Machine.execExtest cells s
  | .samplePreload cells => Sys2Proof.Machine.execSamplePreload cells s
  | .idcode => Sys2Proof.Machine.execIdcode s
  | .clamp => Sys2Proof.Machine.execClamp s
  | .highz => Sys2Proof.Machine.execHighz s
  | .mstat => Sys2Proof.Machine.execMstat s
  | .bypass => Sys2Proof.Machine.execBypass s
  | .registerWrite w addr v => Sys2Proof.Machine.execRegisterWrite w addr v s
  | .linkLaneUp m peer => Sys2Proof.Machine.execLinkLaneUp m peer s
  | .laneLinkDown n => Sys2Proof.Machine.execLaneLinkDown n s
  | .storePortLinkUp n sub speed width spaces => Sys2Proof.Machine.execStorePortLinkUp n sub speed width spaces s
  | .identityReadComplete sub a r => Sys2Proof.Machine.execIdentityReadComplete sub a r s
  | .domainOn n => Sys2Proof.Machine.execDomainOn n s
  | .domainOff n => Sys2Proof.Machine.execDomainOff n s
  | .zeroFillComplete cls u => Sys2Proof.Machine.execZeroFillComplete cls u s
  | .seatRise => Sys2Proof.Machine.execSeatRise s
  | .ejectRelease => Sys2Proof.Machine.execEjectRelease s
  | .decantLoadComplete p => Sys2Proof.Machine.execDecantLoadComplete p s

end Sys2Proof.Machine
end

