-- ==== Sys2Proof/Machine/Period.lean ====
section
/-! DEFINITION. The pace period that passes while no command waits: what it owes, what a Decant replays in it, and the step of PCNT and TICK (R309 to
R311, R345, R380; log entry 6). -/

namespace Sys2Proof.Machine

/-! ### A pace period passes (R309 to R311) -/

/-- Change the run of partition p's Decant. -/
def Device.onDecant (d : Device) (p : Nat) (f : DecantRun → DecantRun) : Device := d.onPart p (fun x => { x with decant := x.decant.map f })

/-- One recorded input that a Decant replays by itself (R380). A PTP and a PACE record move the TIM and the S of the recording (R383). -/
def Device.replayRecord (d : Device) (p : Nat) (r : Record) : Device :=
  let eng := fun (k : Nat) => d.placeEngine ((d.partEngines p).headD 0) k
  let pt := fun (k : Nat) => d.placePoint ((d.partEngines p).headD 0) k
  if r.type = recEVENT then d.raiseLine (eng r.src) (fld (r.w 0) 16 8)
  else if r.type = recIMPORT_DLV then
    let e := eng r.src
    let off := (r.w 1).toNat
    let d := d.storeBytes (xramBase (e / 16) + off) (r.payload.drop 16)
    match d.subs.find? (fun s => decide (s.engine = e ∧ s.point = pt (r.w 0).toNat ∧ s.dlv = some (off / 16))) with
    | some s => { d with lineDue := d.lineDue ++ [(d.now + 1, e, s.line)] }
    | none => d.diverge p 4 (some r.src) none
  else if r.type = recFORCE then
    let q := pt (r.w 1).toNat
    if fld (r.w 0) 0 2 = 1 then
      (d.onPart p (fun x => { x with forces := (x.forces.filter (fun f => decide (f.1 ≠ q))) ++ [(q, r.w 2)] })).applyUpdate
        { point := q, aux := false, value := r.w 2, part := p, origin := .force, trig := 0, posted := d.now, arrive := none, coalesced := false }
    else
      (d.onPart p (fun x => { x with forces := x.forces.filter (fun f => decide (f.1 ≠ q)) })).onPoint q
        (fun x => { x with squal := x.squal &&& 0xFFF7 })
  else if r.type = recETH_IN then
    let n := mapList (d.partLanes ((d.recorded p).getD p)) (d.partLanes p) (r.src - 0x400)
    d.plainDeliver n p ((r.payload.drop 16).take (fld (r.w 0) 16 16)) (BitVec.ofNat 48 ((r.w 1).toNat + 2 ^ 32 * (r.w 2).toNat))
  else if r.type = recPTP then d.onDecant p (fun x => { x with tick := r.tickAfter x.tick })
  else if r.type = recPACE then d.onDecant p (fun x => { x with stretch := (r.w 0).toNat })
  else d

/-- The records of this step that a Decant replays by itself: EVENT, IMPORT_DLV, FORCE, ETH_IN, PTP, PACE (R380). -/
def Device.replay (d : Device) (p : Nat) : Device :=
  match d.decantOf p with
  | none => d
  | some r =>
    if r.startAt.isNone then d else
    let auto := [recEVENT, recIMPORT_DLV, recFORCE, recETH_IN, recPTP, recPACE]
    let due := fun (x : Record) => decide (x.vstep = r.vstep d.now) && auto.contains x.type
    let rs := r.left.filter due
    foldDev (fun d x => d.replayRecord p x)
      (d.onPart p (fun x => { x with decant := some { r with left := r.left.filter (fun x => !due x) } })) rs

/-- The casks of partition p's Decant that are read in by the end of a period, in their order, as many as the store ports deliver and the staging quota
has room for (R383); how many is free (log entry 102). -/
def Device.readAhead (d : Device) (p : Nat) : Device :=
  match d.decantOf p with
  | none => d
  | some r =>
    if r.unread.isEmpty then d else
    let (w, d) := d.freeWord
    let room := d.quota p - (r.left.map Record.size).sum
    d.onDecant p (fun r => r.readCasks (min w.toNat r.unread.length) room)

/-- Line raises whose pace period has come. -/
def Device.raiseDue (d : Device) : Device :=
  let due := d.lineDue.filter (fun x => decide (x.1 ≤ d.now))
  foldDev (fun d (x : Nat × Nat × Nat) => d.raiseLine x.2.1 x.2.2) { d with lineDue := d.lineDue.filter (fun x => decide (d.now < x.1)) } due

/-- Does time pass: is no reset of Module or Cold reach asserted, and the module powered (R310, R328)? -/
def Device.paceRuns (d : Device) : Bool :=
  decide (d.phase ≠ .off) && !(d.sources.any (fun s => decide (5 ≤ s.reach)))

/-- The cycle start and the records of a Decant's step (R334, R380). -/
def Device.decantStep (d : Device) (p : Nat) : Device :=
  match d.decantOf p with
  | some r => if r.startAt.isSome then (if d.cycleLen p = 0 then d else d.decantCycle p r).replay p else d
  | none => d

/-- The state of each partition that may record at the end of the step before an admission epoch is kept, for the checkpoint that may stand there
(R360): CEL.CTL.EN may still be set in the period of the epoch. -/
def Device.keepBefore (d : Device) : Device :=
  if d.now % 65536 ≠ 0 then d else
  foldDev (fun d p =>
    if d.grade.hasCellar && d.released p && d.declaresRecording p then
      let s := d.snapshot p
      d.onRec p (fun r => { r with before := some s })
    else d) d partNumbers

/-- The takes and sends that this pace period owes partition p and that no command has made happen (R19, R420). -/
def Device.settleLanes (d : Device) (p : Nat) : Device :=
  if (d.part p).cycleAt.isNone then d else
  let d := foldDev (fun d (x : Nat × Nat) => d.take x.1 x.2) d (d.takesDue p)
  foldDev (fun d n => foldDev (fun d f =>
    let x := d.descriptor n f
    if x.outbound && d.atOffset p x.send then d.send n f else d) d (List.range 256)) d (d.partLanes p)

/-- What the period that ends still owes: takes and sends, the updates, records and lines of its slots, the blocks that transfers have moved and those
that link lanes send, the receives and reads taken at its end, the divergences of a Decant's step and the casks read ahead for it, the comparison of the
occupancy (R19, R242, R248, R249, R252, R339, R366, R382, R383, R420, R435). -/
def Device.endPeriod (d : Device) : Device :=
  let d := foldDev (fun d p => d.decantStep p) d partNumbers
  let d := foldDev (fun d p => d.settleLanes p) d partNumbers
  let d := d.settleRouters.settleFree.settleNotices.chargeMoved
  let d := foldDev (fun d m => d.sendBlocks m) d (List.range d.grade.linkLanes)
  let d := foldDev (fun d (x : Nat × Engine) => (d.takeReceives x.1).takeReads x.1) d d.engines
  let d := foldDev (fun d p => (d.unusedRecords p).readAhead p) d partNumbers
  foldDev (fun d p => d.highWater p) d partNumbers

/-- One pace period passes (log entry 6): what it owes happens, PCNT and TICK step on, and what comes at the start of the new period happens. -/
def Device.passPeriod (d : Device) : Device :=
  if !d.paceRuns then d else
  let d := d.endPeriod
  let d := { d with pace := { d.pace with pcnt := d.pace.pcnt + 1, tick := (d.pace.tick + d.pace.s) % 2 ^ 64, raw := d.pace.raw + d.pace.s } }
  let d := d.keepBefore.raiseDue
  let d := foldDev (fun d p => (d.onDecant p (fun r => if r.startAt.isSome then { r with tick := r.tick + r.stretch } else r)).decantStep p) d partNumbers
  foldDev (fun d p => d.tryResume p) d partNumbers

end Sys2Proof.Machine
end

