-- ==== Sys2Proof/Safety.lean ====
section
/-! DEFINITION. What counts as a sound state of the module, in the terms the claims use. -/

namespace Sys2Proof.Machine

/-- Both memories stand in canonical form: addresses strictly rising, no listed byte equal to what an unlisted one reads as. -/
def Device.canonical (d : Device) : Bool := Memory.wf physBlank d.mem && Memory.wf norBlank d.nor

/-- A state is safe where both memories of its block are canonical. -/
def State.safe (s : State) : Bool := s.dev.canonical

/-! Frames: what differs between two states, with everything else equal. -/

/-- Nothing but the named registers differs. -/
def OnlyRegs (s t : State) (rs : List Reg) : Prop :=
  t.pending = s.pending ∧ { t.dev with regs := s.dev.regs } = s.dev ∧ ∀ r, r ∉ rs → t.dev.reg r = s.dev.reg r

/-- Nothing but engine e differs. -/
def OnlyEngine (s t : State) (e : Nat) : Prop :=
  t.pending = s.pending ∧ { t.dev with engines := s.dev.engines } = s.dev ∧ ∀ k, k ≠ e → t.dev.eng k = s.dev.eng k

/-- Nothing but cluster c differs. -/
def OnlyCluster (s t : State) (c : Nat) : Prop :=
  t.pending = s.pending ∧ { t.dev with clusters := s.dev.clusters } = s.dev ∧ ∀ k, k ≠ c → t.dev.cluster k = s.dev.cluster k

/-- Nothing but partition p's state differs. -/
def OnlyPart (s t : State) (p : Nat) : Prop :=
  t.pending = s.pending ∧ { t.dev with parts := s.dev.parts } = s.dev ∧ ∀ k, k ≠ p → t.dev.part k = s.dev.part k

/-! What the statements ask of a state before an event. -/

/-- Engine e issues the instruction of slot i alone in its next step: it may step, it waits for nothing, nothing is taken instead, and no port it names
belongs to an absent unit (R9, R99). -/
def Device.issuesAlone (d : Device) (e : Nat) (i : Slot) (m : Move) : Prop :=
  let x := d.eng e
  d.mayStep e = true ∧ d.draining e = false ∧ x.rep = none ∧ x.wait = none ∧ x.redirect = none ∧ x.bar = false ∧ x.pendingFaults = [] ∧
  x.waitFault = none ∧ x.resumeRep = 0 ∧ x.readyAt ≤ d.nowStep e ∧ (d.paced e && inFlash x.pc) = false ∧ d.eventLine e = none ∧
  d.form e x.pc.toNat = .go i none ∧ i.got = .move m ∧ i.bad = false ∧ m.pre.rep = none ∧ m.waits = none ∧ m.body.dst.absent d.grade = false ∧
  ∀ p, m.body.operand = .port p → p.absent d.grade = false

/-- The handler entry of an index can be read and is valid: it names a target and a ring (R208 to R210). -/
def Device.handlerReady (d : Device) (e index : Nat) (target : Word) (ring : Nat) : Prop :=
  ∃ bs, d.tableRead e (d.handlerAt e index) 8 = some bs ∧ target = word (fromBytes (bs.take 4)) ∧
    (let w1 := word (fromBytes (bs.drop 4)); bit w1 2 = true ∧ fld w1 3 29 = 0 ∧ fld w1 0 2 ≠ 3 ∧ ring = fld w1 0 2)

/-- No access of another port meets one of cluster c to the n blocks from an address: none is noted, and where they lie in paced exchange RAM no other
is on its way (R180, R182). -/
def Device.blocksAlone (d : Device) (c a n : Nat) : Prop :=
  d.accesses = [] ∧
  ((∀ k < n, inXram (a + 64 * k) = true → d.pacedWord ((a + 64 * k) / 8) = false) ∨
   ((∀ x ∈ d.engines, x.2.lsu = [] ∧ x.2.ch = []) ∧ ∀ x ∈ d.clusters, x.1 ≠ c → x.2.bmv.service = none))

/-- The first n blocks of a transfer move: both ends are in service, nothing has been stored to them since it began, nothing meets them, and a copy's
source, aligned, lies apart from its destination (R55, R180, R519). -/
def Device.blocksReady (d : Device) (c : Nat) (r : Request) (n : Nat) : Prop :=
  let served := fun (a : Nat) => (∀ k < n, d.place r.engine (a + 64 * k) = a + 64 * k ∧ d.offline (a + 64 * k) = false) ∧ d.blocksAlone c a n
  r.stored = [] ∧ r.old = [] ∧ served r.dst ∧
  (r.op = .bmv .fill ∨
   r.op = .bmv .copy ∧ r.src % 64 = 0 ∧ served r.src ∧ (r.src + 64 * n ≤ r.dst ∨ r.dst + 64 * n ≤ r.src))

/-- What block k of a transfer brings: the fill value, or the bytes of its source. -/
def Device.blockData (d : Device) (r : Request) (k : Nat) : List Byte :=
  if r.op = .bmv .copy then d.windowBytes (r.src + 64 * k) 64 else (List.replicate 16 (toBytes 4 r.a.toNat)).flatten

/-- What meets an access of engine e to memory is settled: it is no exchange RAM or mailbox word, or none is noted there and none on its way in Paced
(R180, R182). -/
def Device.accessAlone (d : Device) (e a n : Nat) : Prop :=
  (inXram a = false ∧ inMailbox a = false) ∨
  d.accesses = [] ∧ ∀ w ∈ checkWords a n, d.pacedWord w = true → ∀ b, d.mayMeet w (!ownCluster e a) b = false

end Sys2Proof.Machine
end

