-- ==== Sys2Proof/Certificates/Slice0/Obligations.lean ====
section
/-! DEFINITION. The statements for the provers. Each is a proposition about the machine, from the numbered rules of the spec;
where one rests on a choice of the model, its docstring names the log entry. -/

section

open Sys2Proof Sys2Proof.Machine

/-! ### The queue -/

/-- A step takes the command at the front of the queue and runs it on the state with the rest of the queue. -/
def Obligations.StepRunsFrontCommand : Prop :=
  ∀ (s : State) (c : Instr) (rest : List Instr), s.pending = c :: rest → step s = exec c { s with pending := rest }

/-- Every command completes in every state and leaves the queue as it stands: one whose event cannot happen in the state changes nothing, which is
the model's choice (log entry 1). -/
def Obligations.EveryCommandLeavesQueue : Prop :=
  ∀ (c : Instr) (s : State), ∃ t, exec c s = .next t ∧ t.pending = s.pending

/-! ### Operations of an engine: trigger, and SHORT_OP_COMPLETE one or three steps later -/

/-- R114: an alu trigger with no other short operation under way. Once its completion is due, SHORT_OP_COMPLETE leaves the
result the table gives in the unit's result port, readable, sets V or SAT where the table does, and changes nothing else. -/
def Obligations.AluResultAndFlags : Prop :=
  ∀ (s : State) (e k issue : Nat) (m : Move) (second : Bool) (op : AluOp) (datum : Word),
    let x := s.dev.eng e
    let a := x.opndVal (if second then .alu1A else .alu0A)
    let sa := a.toInt
    let st := datum.toInt
    let out := fun (v : Int) => v < -2 ^ 31 ∨ 2 ^ 31 - 1 < v
    x.short = [] → k + 1 ≤ s.dev.nowStep e →
    ∃ t, exec (.shortOpComplete e) (s.onDev (fun d => d.fire e k issue m (.alu second op) datum)) = .next t ∧
      OnlyEngine s t e ∧
      (∃ r f, t.dev.eng e = { x with
          res := Assoc.put x.res (if second then .alu1R else .alu0R) { value := r, readable := true }
          acst := x.acst ||| f, flagsAt := k + 1, flagsNew := if x.flagsAt = k + 1 then x.flagsNew ||| f else f } ∧
        match op with
        | .add => r = BitVec.ofInt 32 (sa + st) ∧ (out (sa + st) → f = flagV) ∧ (¬ out (sa + st) → f = 0)
        | .sub => r = BitVec.ofInt 32 (sa - st) ∧ (out (sa - st) → f = flagV) ∧ (¬ out (sa - st) → f = 0)
        | .rsub => r = BitVec.ofInt 32 (st - sa) ∧ (out (st - sa) → f = flagV) ∧ (¬ out (st - sa) → f = 0)
        | .adds => r.toInt = max (-2 ^ 31) (min (2 ^ 31 - 1) (sa + st)) ∧ (out (sa + st) → f = flagSAT) ∧ (¬ out (sa + st) → f = 0)
        | .subs => r.toInt = max (-2 ^ 31) (min (2 ^ 31 - 1) (sa - st)) ∧ (out (sa - st) → f = flagSAT) ∧ (¬ out (sa - st) → f = 0)
        | .and => r = a &&& datum ∧ f = 0
        | .or => r = a ||| datum ∧ f = 0
        | .xor => r = a ^^^ datum ∧ f = 0
        | .andn => r = a &&& ~~~ datum ∧ f = 0
        | .neg => r = BitVec.ofInt 32 (-st) ∧ (datum = 0x80000000 → f = flagV) ∧ (datum ≠ 0x80000000 → f = 0)
        | .abs => r = BitVec.ofInt 32 |st| ∧ (datum = 0x80000000 → f = flagV) ∧ (datum ≠ 0x80000000 → f = 0)
        | .min => r = (if sa < st then a else datum) ∧ f = 0
        | .max => r = (if sa > st then a else datum) ∧ f = 0
        | .minu => r = (if a.toNat < datum.toNat then a else datum) ∧ f = 0
        | .maxu => r = (if a.toNat > datum.toNat then a else datum) ∧ f = 0)

/-- R115: a shf trigger and its completion, in the arithmetic of the rule. No flag is set. -/
def Obligations.ShiftResult : Prop :=
  ∀ (s : State) (e k issue : Nat) (m : Move) (op : ShfOp) (datum : Word),
    let x := s.dev.eng e
    let a := x.opndVal .shfA
    let c := datum.toNat
    let n := c % 32
    x.short = [] → k + 1 ≤ s.dev.nowStep e →
    ∃ t, exec (.shortOpComplete e) (s.onDev (fun d => d.fire e k issue m (.shf op) datum)) = .next t ∧
      OnlyEngine s t e ∧ (t.dev.eng e).acst = x.acst ∧ (t.dev.eng e).short = [] ∧
      (∀ p, p ≠ .shfR → (t.dev.eng e).result p = x.result p) ∧
      (t.dev.eng e).result .shfR = { readable := true, value := match op with
        | .shl => if 32 ≤ c then 0 else BitVec.ofNat 32 (a.toNat * 2 ^ c)
        | .shr => if 32 ≤ c then 0 else BitVec.ofNat 32 (a.toNat / 2 ^ c)
        | .sar => if 32 ≤ c then (if a.getLsbD 31 then 0xFFFFFFFF else 0) else BitVec.ofInt 32 (a.toInt / 2 ^ c)
        | .rol => BitVec.ofNat 32 (a.toNat * 2 ^ n) ||| BitVec.ofNat 32 (a.toNat / 2 ^ (32 - n))
        | .ror => BitVec.ofNat 32 (a.toNat / 2 ^ n) ||| BitVec.ofNat 32 (a.toNat * 2 ^ (32 - n)) }

/-- R118: a mul trigger puts ACC in place at once; three steps after it SHORT_OP_COMPLETE leaves both words of the result, and
SAT where a clamp has happened. -/
def Obligations.MulResultsAndAccumulator : Prop :=
  ∀ (s : State) (e k issue : Nat) (m : Move) (op : MulOp) (datum : Word),
    let x := s.dev.eng e
    let a := x.opndVal .mulA
    let round := fun (p : Int) => (p + 2 ^ 30) / 2 ^ 31
    let clamp32 := fun (v : Int) => max (-2 ^ 31) (min (2 ^ 31 - 1) v)
    let clamp64 := fun (v : Int) => max (-2 ^ 63) (min (2 ^ 63 - 1) v)
    x.short = [] → k + 3 ≤ s.dev.nowStep e →
    ∃ t, exec (.shortOpComplete e) (s.onDev (fun d => d.fire e k issue m (.mul op) datum)) = .next t ∧
      OnlyEngine s t e ∧ (t.dev.eng e).short = [] ∧
      (∀ p, p ≠ .mulRl → p ≠ .mulRh → (t.dev.eng e).result p = x.result p) ∧
      ∃ rl rh, (t.dev.eng e).result .mulRl = { value := rl, readable := true } ∧
        (t.dev.eng e).result .mulRh = { value := rh, readable := true } ∧
        match op with
        | .mul => (rh ++ rl).toInt = a.toInt * datum.toInt ∧ (t.dev.eng e).acc = x.acc ∧ (t.dev.eng e).acst = x.acst
        | .mulu => (rh ++ rl).toNat = a.toNat * datum.toNat ∧ (t.dev.eng e).acc = x.acc ∧ (t.dev.eng e).acst = x.acst
        | .mulq =>
          let p := a.toInt * datum.toInt
          rl.toInt = clamp32 (round p) ∧ rh = (BitVec.ofInt 64 p).extractLsb' 32 32 ∧ (t.dev.eng e).acc = x.acc ∧
            (t.dev.eng e).acst = if clamp32 (round p) = round p then x.acst else x.acst ||| flagSAT
        | .macq =>
          let v := x.acc.toInt + a.toInt * datum.toInt
          (t.dev.eng e).acc.toInt = clamp64 v ∧ rl.toInt = clamp32 (round (clamp64 v)) ∧
            rh = (t.dev.eng e).acc.extractLsb' 32 32 ∧
            (t.dev.eng e).acst = if clamp64 v = v ∧ clamp32 (round v) = round v then x.acst else x.acst ||| flagSAT
        | .ldacc => (t.dev.eng e).acc.toInt = datum.toInt * 2 ^ 31 ∧ rl = datum ∧
            rh = (t.dev.eng e).acc.extractLsb' 32 32 ∧ (t.dev.eng e).acst = x.acst

/-- R120, R122, R152, R153: a div trigger, and DIV_RETIRE once its steps have passed, with no other deferred fault pending. A zero divisor sets DZ and
gives the results of the table; with DZT of SYS.ACTL set it leaves besides a deferred fault DIVIDE_BY_ZERO (0x0C).
R116, R82, R44: a cmp trigger judges its condition, sets its guard at the end of its step (g0 takes nothing) and no flag; SHORT_OP_COMPLETE leaves
1 or 0 in cmp.r. -/
def Obligations.DivisionAndComparison : Prop :=
  (∀ (s : State) (e k issue : Nat) (m : Move) (op : DivOp) (datum : Word),
     let x := s.dev.eng e
     let a := x.opndVal .divA
     x.pendingFaults = [] → k + 34 ≤ s.dev.nowStep e →
     ∃ t, exec (.divRetire e) (s.onDev (fun d => d.fire e k issue m (.div op) datum)) = .next t ∧
       OnlyEngine s t e ∧ (t.dev.eng e).div = none ∧
       (¬ (datum = 0 ∧ x.actl.getLsbD 2 = true) → (t.dev.eng e).pendingFaults = []) ∧
       (datum = 0 → x.actl.getLsbD 2 = true → ∃ f, (t.dev.eng e).pendingFaults = [f] ∧ f.code = 0x0C ∧ f.trig = k ∧ f.sfa = word issue ∧
         f.ctx = x.ctx ∧ f.completion = false ∧ k ≤ f.at_ ∧ f.at_ ≤ k + 34) ∧
       (∀ p, p ≠ .divQ → p ≠ .divM → (t.dev.eng e).result p = x.result p) ∧
       ∃ q r, (t.dev.eng e).result .divQ = { value := q, readable := true } ∧
         (t.dev.eng e).result .divM = { value := r, readable := true } ∧
         match op with
         | .divs =>
           if datum = 0 then q = (if 0 ≤ a.toInt then 0x7FFFFFFF else 0x80000000) ∧ r = a ∧ (t.dev.eng e).acst = x.acst ||| flagDZ
           else if a = 0x80000000 ∧ datum = 0xFFFFFFFF then q = 0x80000000 ∧ r = 0 ∧ (t.dev.eng e).acst = x.acst ||| flagV
           else q.toInt = a.toInt.tdiv datum.toInt ∧ r.toInt = a.toInt - q.toInt * datum.toInt ∧ (t.dev.eng e).acst = x.acst
         | .divu =>
           if datum = 0 then q = 0xFFFFFFFF ∧ r = a ∧ (t.dev.eng e).acst = x.acst ||| flagDZ
           else q.toNat = a.toNat / datum.toNat ∧ r.toNat = a.toNat % datum.toNat ∧ (t.dev.eng e).acst = x.acst) ∧
  (∀ (s : State) (e k issue : Nat) (m : Move) (cc : Cc) (g : BitVec 3) (datum : Word),
     let x := s.dev.eng e
     let a := x.opndVal .cmpA
     let c : Prop := match cc with
       | .eq => a = datum | .ne => a ≠ datum | .lt => a.toInt < datum.toInt | .ge => datum.toInt ≤ a.toInt
       | .ltu => a.toNat < datum.toNat | .geu => datum.toNat ≤ a.toNat
       | .bs => ∃ i < 32, a.getLsbD i = true ∧ datum.getLsbD i = true
       | .bc => ∀ i < 32, ¬ (a.getLsbD i = true ∧ datum.getLsbD i = true)
     x.short = [] → k + 1 ≤ s.dev.nowStep e →
     ∃ t, exec (.shortOpComplete e) (s.onDev (fun d => d.fire e k issue m (.cmp cc g) datum)) = .next t ∧
       OnlyEngine s t e ∧ (t.dev.eng e).acst = x.acst ∧ (t.dev.eng e).short = [] ∧
       (∀ p, p ≠ .cmpR → (t.dev.eng e).result p = x.result p) ∧
       (∀ j, j ≠ g → (t.dev.eng e).guard j = x.guard j) ∧ (t.dev.eng e).guard 0 = true ∧
       (g ≠ 0 → ((t.dev.eng e).guard g = true ↔ c)) ∧
       (c → (t.dev.eng e).result .cmpR = { value := 1, readable := true }) ∧
       (¬ c → (t.dev.eng e).result .cmpR = { value := 0, readable := true }))

/-! ### Issue, fetch and the barrier -/

/-- R40 to R44, R99: an engine that may step, waits for nothing and takes nothing issues a pair of moves between registers whose
guards hold. Both read what stood before the step; both destinations are written; the next issue point is the end of the pair. -/
def Obligations.PairOfRegisterMovesIssues : Prop :=
  ∀ (s : State) (e : Nat) (m0 m1 : Slot) (a b : Move) (i j : BitVec 6) (va vb : Word),
    let d := s.dev
    let x := d.eng e
    d.mayStep e = true → d.draining e = false → x.rep = none → x.wait = none → x.redirect = none → x.bar = false →
    x.pendingFaults = [] → x.waitFault = none → x.resumeRep = 0 → x.readyAt ≤ d.nowStep e →
    (d.paced e && inFlash x.pc) = false → d.eventLine e = none →
    d.form e x.pc.toNat = .go m0 (some m1) → m0.got = .move a → m1.got = .move b → m0.bad = false → m1.bad = false →
    a.pre.rep = none → x.guardHolds a = true → x.guardHolds b = true → a.waits = none → b.waits = none →
    a.body.dst = .d i → b.body.dst = .d j → i ≠ j →
    (∀ p, a.body.operand = .port p → p.absent d.grade = false) → (∀ p, b.body.operand = .port p → p.absent d.grade = false) →
    x.operand a = some va → x.operand b = some vb →
    ∃ t, exec (.issuePair e) s = .next t ∧ t.pending = s.pending ∧
      (t.dev.eng e).d = Assoc.put (Assoc.put x.d i va) j vb ∧
      (t.dev.eng e).pc = word (m1.addr + m1.len) ∧ (t.dev.eng e).step = d.nowStep e ∧
      (t.dev.eng e).readyAt = d.nowStep e + 1 ∧
      (t.dev.eng e).res = x.res ∧ (t.dev.eng e).g = x.g ∧ (t.dev.eng e).opnd = x.opnd ∧ (t.dev.eng e).st = x.st ∧
      (t.dev.eng e).acst = x.acst ∧ (t.dev.eng e).acc = x.acc ∧ (t.dev.eng e).save = x.save ∧
      (∀ k, k ≠ e → t.dev.eng k = d.eng k) ∧ (∀ k, t.dev.byte k = d.byte k)

/-- R155, R90: an iteration of a repeated move into a register. It reads and writes as one move; while iterations are left the
issue point stays, and after the last one it lies behind the instruction. -/
def Obligations.RepeatIterationExecutesOnce : Prop :=
  ∀ (s : State) (e n : Nat) (r : RepRun) (i : BitVec 6) (v : Word),
    let d := s.dev
    let x := d.eng e
    x.rep = some r → r.left = n + 1 → d.mayStep e = true → x.redirect = none → x.wait = none → x.pendingFaults = [] → x.waitFault = none →
    x.readyAt ≤ d.nowStep e → d.eventLine e = none → x.guardHolds r.move = true → r.move.waits = none →
    r.move.body.dst = .d i → (∀ p, r.move.body.operand = .port p → p.absent d.grade = false) → x.operand r.move = some v →
    ∃ t, exec (.repeatIteration e) s = .next t ∧ t.pending = s.pending ∧
      (t.dev.eng e).d = Assoc.put x.d i v ∧ (t.dev.eng e).step = d.nowStep e ∧
      (t.dev.eng e).rep.map (·.left) = (if n = 0 then none else some n) ∧
      (t.dev.eng e).pc = (if n = 0 then word (x.pc.toNat + r.len) else x.pc) ∧
      (t.dev.eng e).res = x.res ∧ (t.dev.eng e).g = x.g ∧ (t.dev.eng e).opnd = x.opnd ∧ (t.dev.eng e).st = x.st ∧
      (∀ k, k ≠ e → t.dev.eng k = d.eng k) ∧ (∀ k, t.dev.byte k = d.byte k)

/-- R138, R389: a requested line is delivered from its third step on from code SRAM, from its twenty-fourth on from code flash once its
target port has granted the fetch, and nothing else changes.
R154: with no long operation of the context pending, the barrier ends; the next instruction issues no earlier than one step
after the latest retirement.
R109, R151: a long fpu operation of the running context retires once its completion step has come: it writes fpu.r and sets
its flags, which stay set, and changes no other result. -/
def Obligations.LinesBarriersAndLongOpsEnd : Prop :=
  (∀ (s : State) (e : Nat) (k : CodeLine),
     k ∈ (s.dev.eng e).lines → k.req + (if inFlash (word k.addr) then 24 else 3) ≤ s.dev.nowStep e → s.dev.lineWaits e k.addr = false →
     ∃ t, exec (.lineDelivery e k.addr) s = .next t ∧ OnlyEngine s t e ∧
       { k with delivered := true } ∈ (t.dev.eng e).lines ∧
       (t.dev.eng e).lines.map (fun j => (j.addr, j.bytes, j.bad, j.cor, j.req, j.used)) =
         (s.dev.eng e).lines.map (fun j => (j.addr, j.bytes, j.bad, j.cor, j.req, j.used)) ∧
       (∀ j ∈ (s.dev.eng e).lines, j.addr ≠ k.addr → j ∈ (t.dev.eng e).lines) ∧
       { t.dev.eng e with lines := (s.dev.eng e).lines } = s.dev.eng e) ∧
  (∀ (s : State) (e : Nat),
     let x := s.dev.eng e
     x.bar = true → s.dev.longPending e = false → s.dev.dueBy e (s.dev.nowStep e) = false →
     ∃ t, exec (.barrierRelease e) s = .next t ∧ OnlyEngine s t e ∧
       (t.dev.eng e).bar = false ∧ x.lastRetire + 1 ≤ (t.dev.eng e).readyAt ∧ x.readyAt ≤ (t.dev.eng e).readyAt ∧
       ((t.dev.eng e).readyAt = x.readyAt ∨ (t.dev.eng e).readyAt = x.lastRetire + 1) ∧
       { t.dev.eng e with bar := true, readyAt := x.readyAt } = x) ∧
  (∀ (s : State) (e : Nat) (o : LongOp) (v : Word),
     let x := s.dev.eng e
     x.fpuLong = some o → o.writes = [(.fpuR, v)] → o.due ≤ s.dev.nowStep e → o.ctx = x.ctx → o.dzFault = false →
     ∃ t, exec (.fpuLongRetire e) s = .next t ∧ OnlyEngine s t e ∧ (t.dev.eng e).fpuLong = none ∧
       (t.dev.eng e).result .fpuR = { value := v, readable := true } ∧
       (∀ p, p ≠ .fpuR → (t.dev.eng e).result p = x.result p) ∧
       (t.dev.eng e).acst = x.acst ||| o.flags ∧ (t.dev.eng e).lastRetire = max x.lastRetire o.due ∧
       (t.dev.eng e).pendingFaults = x.pendingFaults ∧ (t.dev.eng e).pc = x.pc ∧ (t.dev.eng e).d = x.d)

/-- R209: entry to a level saves the resume point, the status, the bank, the cause and a standing barrier in the level's set, shadows the result
ports, lowers the ring to that of the handler entry at most, clears GIE and transfers to the target of the handler entry. -/
def Obligations.LevelEntrySavesContext : Prop :=
  ∀ (d d' : Device) (e : Nat) (level : BitVec 2) (c : Cause) (r : Resume) (k : Nat),
    let x := d.eng e
    let y := d'.eng e
    let set := y.saveSet level.toNat
    let a := d.place e (x.htb.toNat * 2048 + 8 * c.index)
    d.enterLevel e level c r k = some d' → 1 ≤ level.toNat → x.short = [] →
    (∃ bs, d.tableRead e a 8 = some bs ∧ y.pc = word (fromBytes (bs.take 4)) ∧
      y.st.ring.toNat = min ((fromBytes (bs.drop 4)) % 4) x.st.ring.toNat) ∧
    y.st.lvl = level ∧ y.st.gie = false ∧ y.st.grd = x.st.grd ∧ y.st.mlv = (if x.st.grd then level else x.st.mlv) ∧
    y.res = [] ∧ y.acc = x.acc ∧ y.d = x.d ∧ y.g = x.g ∧ y.bnk = x.bnk ∧ y.acst = x.acst ∧
    set.spc = ((r.pc &&& 0xFFFFFF) ||| (if r.slot1 then 0x1000000 else 0)) ∧
    set.sbk = x.bnk.setWidth 32 ∧ set.sfa = word c.fa ∧ fld set.src 0 16 = r.rep % 65536 ∧
    (c.code < 256 → c.detail < 256 → fld set.sfc 0 8 = c.code ∧ fld set.sfc 8 8 = c.detail ∧ bit set.sfc 24 = c.pa) ∧ set.shadow = x.res ∧ set.acc = x.acc ∧ set.ctx = some x.ctx ∧ set.bar = x.bar ∧
    fld set.sst 0 2 = x.st.ring.toNat ∧ fld set.sst 2 2 = x.st.lvl.toNat ∧ bit set.sst 4 = x.st.gie ∧
    fld set.sst 5 2 = x.st.mlv.toNat ∧ fld set.sst 12 4 = r.m0len % 16 ∧
    (∀ i, i ∈ [1, 2, 3, 4, 5, 6, 7] → bit set.sst (15 + i) = Assoc.get false x.g (BitVec.ofNat 3 i)) ∧
    (∀ n, n ≠ level → 1 ≤ n.toNat → y.saveSet n.toNat = x.saveSet n.toNat) ∧
    (∀ n, n ≠ e → d'.eng n = d.eng n) ∧ (∀ n, d'.byte n = d.byte n)

/-! ### Transfers of control and system registers -/

/-- R46, R145 to R149, R154, R200 to R206, R211, R212, R298: an instruction that issues alone. With a failed guard it does nothing, and the issue point
moves behind it. A cu trigger acts: jmp and ret transfer to their datum, call leaves the return address in cu.lnk, bar and wait hold the engine, sysc and
the system return change ring and pc with SYS.SRP, SYS.SRS and SYS.SEPk, the level return restores the context of its save set, gates change the ring and
push or pop their record, and a trap enters L2 with its cause saved. A Paced transfer costs 4 steps, or 5 to a target not at a 16-byte boundary. -/
def Obligations.ControlTransfersTakeEffect : Prop :=
  ∀ (s : State) (e : Nat) (i : Slot) (m : Move),
    let d := s.dev
    let x := d.eng e
    let next := word (i.addr + i.len)
    let now := d.nowStep e
    d.issuesAlone e i m →
    (x.guardHolds m = false →
      ∃ t, exec (.issuePair e) s = .next t ∧ t.pending = s.pending ∧
        (let y := t.dev.eng e
         y.pc = next ∧ y.d = x.d ∧ y.g = x.g ∧ y.bnk = x.bnk ∧ y.rc = x.rc ∧ y.opnd = x.opnd ∧ y.res = x.res ∧ y.st = x.st ∧ y.acst = x.acst ∧
         y.acc = x.acc ∧ y.save = x.save ∧ y.short = x.short ∧ y.lsu = x.lsu ∧ y.ch = x.ch ∧ y.gsp = x.gsp ∧ y.tokens = x.tokens) ∧
        (∀ k, t.dev.byte k = d.byte k) ∧ ∀ k, k ≠ e → t.dev.eng k = d.eng k) ∧
    (∀ op v, x.guardHolds m = true → x.operand m = some v → m.body.dst = .trig (.cu op) → x.cuDetail op (some v) = 0 →
      d.canonical = true → d.marks = [] → x.short = [] →
      ∃ t, exec (.issuePair e) s = .next t ∧ t.pending = s.pending ∧ (∀ k, k ≠ e → t.dev.eng k = d.eng k) ∧
        let y := t.dev.eng e
        let rest : Prop := y.res = x.res ∧ y.save = x.save ∧ y.g = x.g ∧ y.bnk = x.bnk ∧ y.gsp = x.gsp ∧ y.acc = x.acc
        let still : Prop := ∀ k, t.dev.byte k = d.byte k
        y.d = x.d ∧ y.opnd = x.opnd ∧ y.rc = x.rc ∧ y.acst = x.acst ∧ y.lsu = x.lsu ∧ y.sep = x.sep ∧
        match op with
        | .jmp => rest ∧ still ∧ y.st = x.st ∧ y.pc = v ∧ now + 1 ≤ y.readyAt ∧
            (d.paced e = true → y.readyAt = now + (if v.toNat % 16 = 0 then 4 else 5))
        | .ret => rest ∧ still ∧ y.st = x.st ∧ y.pc = v ∧ now + 1 ≤ y.readyAt ∧
            (d.paced e = true → y.readyAt = now + (if v.toNat % 16 = 0 then 4 else 5))
        | .call => still ∧ y.st = x.st ∧ y.pc = v ∧ y.result .cuLnk = { value := next, readable := true } ∧
            (∀ p, p ≠ .cuLnk → y.result p = x.result p) ∧ y.save = x.save ∧ y.g = x.g
        | .bar => rest ∧ still ∧ y.st = x.st ∧ y.pc = next ∧ y.bar = true
        | .wait => rest ∧ still ∧ y.st = x.st ∧ y.pc = next ∧
            ∃ w, y.wait = some w ∧ w.kind = .cu ∧ w.trig = now ∧ w.start = d.now ∧ w.limit = (if v = 0 then d.evLimit e else v.toNat)
        | .sysc => rest ∧ still ∧ y.pc = Assoc.get 0 x.sep (BitVec.ofNat 2 x.ring) ∧ y.srp = next ∧
            y.srs.toNat = x.ring + (if x.st.gie then 4 else 0) + 256 * (v.toNat % 256) ∧ y.ring = x.ring - 1 ∧
            { y.st with ring := x.st.ring } = x.st
        | .sysr =>
          if bit v 0 = true then rest ∧ still ∧ y.pc = x.srp ∧ y.ring = x.srs.toNat % 4 ∧ y.st.gie = x.srs.getLsbD 2 ∧
            { y.st with ring := x.st.ring, gie := x.st.gie } = x.st
          else
            let set := x.saveSet x.st.lvl.toNat
            still ∧ y.pc = (set.spc &&& 0xFFFFFF) - (if bit set.spc 24 = true then word (fld set.sst 12 4) else 0) ∧
            y.st.ring.toNat = fld set.sst 0 2 ∧ y.st.lvl.toNat = fld set.sst 2 2 ∧ y.st.gie = bit set.sst 4 ∧ y.st.mlv.toNat = fld set.sst 5 2 ∧
            y.st.grd = x.st.grd ∧ y.bnk = set.sbk.setWidth 20 ∧ y.acc = set.acc ∧ y.bar = set.bar ∧ y.resumeRep = fld set.src 0 16 ∧
            (∀ k ∈ [1, 2, 3, 4, 5, 6, 7], y.guard (BitVec.ofNat 3 k) = bit set.sst (15 + k)) ∧
            (∀ p, p ≠ .bmvSt → y.result p = Assoc.get {} set.shadow p)
        | .gate =>
          if v = 0xFFFF then
            let a := canon e (8 * x.gspOff x.ring % 0x10000)
            let w1 := d.loadWord (a + 4)
            x.ring ≠ 3 → x.gspOff x.ring < 0x2000 → fld w1 3 29 = 0 → x.ring ≤ fld w1 0 2 →
            still ∧ y.pc = d.loadWord a ∧ y.ring = fld w1 0 2 ∧ y.st.gie = bit w1 2 ∧ y.gspOff x.ring = x.gspOff x.ring + 1 ∧
              (∀ k, k < 4 → k ≠ x.ring → y.gspOff k = x.gspOff k) ∧ y.save = x.save
          else
            ∀ bs, v.toNat ≤ 1023 → d.tableRead e (d.place e (x.gtb.toNat * 16384 + 16 * v.toNat)) 16 = some bs →
            let w0 := word (fromBytes (bs.take 4))
            let w1 := word (fromBytes ((bs.drop 4).take 4))
            let j := fld w1 0 2
            let a := canon e (8 * (x.gspOff j - 1) % 0x10000)
            bit w1 31 = true → fld w1 8 23 = 0 → bit w1 3 = false → fromBytes (bs.drop 8) = 0 → j ≠ 3 → bit w1 (4 + x.ring) = true → j ≤ x.ring →
            0 < x.gspOff j → x.gspOff j ≤ 0x2000 →
            y.pc = w0 ∧ y.ring = j ∧ y.st.gie = (x.st.gie && !bit w1 2) ∧ y.gspOff j + 1 = x.gspOff j ∧
              (∀ k, k < 4 → k ≠ j → y.gspOff k = x.gspOff k) ∧ t.dev.loadWord a = next ∧
              t.dev.loadWord (a + 4) = word (x.ring + (if x.st.gie then 4 else 0)) ∧ y.save = x.save ∧
              ∀ k, k < a ∨ a + 8 ≤ k → t.dev.byte k = d.byte k
        | .trap => ∀ target ring, x.st.l2 = true → d.handlerReady e (0x20 + v.toNat % 32) target ring →
            still ∧ y.pc = target ∧ y.st.lvl = 2 ∧ y.ring = min ring x.ring ∧ y.st.gie = false ∧
            (y.saveSet 2).spc = next &&& 0xFFFFFF ∧ (y.saveSet 2).sfa = v ∧ (y.saveSet 2).sfc = word (256 * (v.toNat % 32)) ∧
            fld (y.saveSet 2).sst 0 2 = x.ring ∧ fld (y.saveSet 2).sst 2 2 = x.st.lvl.toNat ∧ bit (y.saveSet 2).sst 4 = x.st.gie)

/-- R42, R44, R110, R194, R195, R213, R222 to R230: who may reach a system register; moves into guards, bnk and rc; sys.t.wr writes the register that
sys.sel names, in its RW fields, from the next step on; a trigger that the ring may not issue enters L2 with PRIVILEGE and its detail.
R194, R222 to R230: sys.t.rd, and the step two later at which SHORT_OP_COMPLETE leaves the register that sys.sel names in sys.r; one that is not
assigned reads 0. -/
def Obligations.SystemRegistersWriteAndRead : Prop :=
  ((∀ (x : Engine) (sel : Word) (k : Nat),
     (sel = 0 ∨ sel = 4 → x.sysDetail true sel = 0 ∧ x.sysDetail false sel = 0) ∧
     (sel = 1 → (x.sysDetail true sel = 0 ↔ x.ring ≤ 2) ∧ x.sysDetail false sel = 0) ∧
     (sel = 0x10 ∨ sel = 0x11 → (x.sysDetail true sel = 0 ↔ x.ring = 0) ∧ (x.sysDetail false sel = 0 ↔ x.ring ≤ 1)) ∧
     (k < 3 → sel = word (0x12 + k) → ∀ w, x.sysDetail w sel = 0 ↔ x.ring ≤ k) ∧
     (k < 3 → sel = word (0x18 + k) → ∀ w, x.sysDetail w sel = 0 ↔ x.ring ≤ k) ∧
     (sel = 0x1B ∨ sel = 0x1C → ∀ w, x.sysDetail w sel = 0 ↔ x.ring ≤ 2) ∧
     (k < 4 → sel = word (0x20 + k) ∨ sel = word (0x28 + k) →
       (x.sysDetail true sel = 0 ↔ x.ring ≤ if k < 2 then 0 else 1) ∧ (x.sysDetail false sel = 0 ↔ x.ring ≤ 1)) ∧
     (∀ n, 1 ≤ n → n ≤ 3 → k < 6 → sel = word (0x100 + 16 * n + k) →
       ∀ w, x.sysDetail w sel = 0 ↔ x.ring ≤ 2 ∧ x.ring ≤ fld (x.saveSet n).sst 0 2)) ∧
   ∀ (s : State) (e : Nat) (i : Slot) (m : Move) (v : Word),
     let d := s.dev
     let x := d.eng e
     let sel := x.opndVal .sysSel
     d.issuesAlone e i m → x.guardHolds m = true → x.operand m = some v →
     (∀ k, m.body.dst = .g k → ∃ t, exec (.issuePair e) s = .next t ∧
       (∀ j, (t.dev.eng e).guard j = if j = k ∧ k ≠ 0 then decide (v ≠ 0) else x.guard j) ∧ (t.dev.eng e).d = x.d) ∧
     (m.body.dst = .bnk → ∃ t, exec (.issuePair e) s = .next t ∧ (t.dev.eng e).bnk = v.setWidth 20 ∧ (t.dev.eng e).rc = x.rc ∧ (t.dev.eng e).g = x.g) ∧
     (m.body.dst = .rc → ∃ t, exec (.issuePair e) s = .next t ∧ (t.dev.eng e).rc = v.setWidth 16 ∧ (t.dev.eng e).bnk = x.bnk ∧ (t.dev.eng e).g = x.g) ∧
     (m.body.dst = .trig (.sys .wr) → x.sysDetail true sel = 0 → x.flagsAt ≠ d.nowStep e →
       ∃ t, exec (.issuePair e) s = .next t ∧ t.pending = s.pending ∧ (∀ k, k ≠ e → t.dev.eng k = d.eng k) ∧ (∀ k, t.dev.byte k = d.byte k) ∧
         let y := t.dev.eng e
         let n := sel.toNat
         y.pc = word (i.addr + i.len) ∧ y.d = x.d ∧ y.g = x.g ∧ y.res = x.res ∧ y.st.ring = x.st.ring ∧ y.st.lvl = x.st.lvl ∧
         y.acst = (if n = 2 then x.acst &&& ~~~ v.setWidth 9 else x.acst) ∧ y.actl = (if n = 3 then v.setWidth 3 else x.actl) ∧
         y.gtb = (if n = 0x10 then v.setWidth 26 else x.gtb) ∧ y.htb = (if n = 0x11 then v.setWidth 29 else x.htb) ∧
         (∀ k < 3, y.gspOff k = if n = 0x12 + k then fld v 3 14 else x.gspOff k) ∧
         (∀ k, 1 ≤ k → k ≤ 3 → Assoc.get 0 y.sep (BitVec.ofNat 2 k) = if n = 0x17 + k then v else Assoc.get 0 x.sep (BitVec.ofNat 2 k)) ∧
         y.srp = (if n = 0x1B then v else x.srp) ∧ y.srs = (if n = 0x1C then (v &&& 0xFF07).setWidth 16 else x.srs) ∧
         (∀ j < 4, Assoc.get 0 y.pwa (BitVec.ofNat 2 j) = if n = 0x20 + j then v.setWidth 28 else Assoc.get 0 x.pwa (BitVec.ofNat 2 j)) ∧
         (∀ j < 4, Assoc.get 0 y.pwc (BitVec.ofNat 2 j) = if n = 0x28 + j then (v &&& 0x1F1F).setWidth 13 else Assoc.get 0 x.pwc (BitVec.ofNat 2 j)) ∧
         (∀ k, 1 ≤ k → k ≤ 3 → let old := x.saveSet k
           let set := y.saveSet k
           set.spc = (if n = 0x100 + 16 * k then v &&& 0x1FFFFFF else old.spc) ∧ set.sst = (if n = 0x101 + 16 * k then v &&& 0x7FF07F else old.sst) ∧
           set.src = (if n = 0x102 + 16 * k then v &&& 0x7FFFFFFF else old.src) ∧ set.sbk = (if n = 0x103 + 16 * k then v &&& 0xFFFFF else old.sbk) ∧
           set.sfa = (if n = 0x104 + 16 * k then v else old.sfa) ∧ set.sfc = (if n = 0x105 + 16 * k then v &&& 0x1FFFFFF else old.sfc) ∧
           set.shadow = old.shadow ∧ set.acc = old.acc) ∧
         (n ≠ 1 → y.st = x.st) ∧
         (n = 1 → y.st.gie = bit v 4 ∧ (x.ring = 2 → y.st.mlv = x.st.mlv ∧ y.st.grd = x.st.grd) ∧
           (x.ring ≤ 1 → y.st.mlv.toNat = fld v 5 2 ∧
             ∀ p, d.engPart e = some p → y.st.grd = if (d.part p).mode ∈ [.free, .paced, .decant] then x.st.grd && bit v 7 else x.st.grd))) ∧
     (∀ (tr : Trig) (k target ring : Nat),
       (∃ op, tr = .sys op ∧ x.sysDetail (decide (op = .wr)) sel = k) ∨ (∃ op, tr = .cu op ∧ x.cuDetail op (some v) = k) →
       m.body.dst = .trig tr → k ≠ 0 → x.st.l2 = true → d.handlerReady e 6 (word target) ring →
       ∃ t, exec (.issuePair e) s = .next t ∧
         let y := t.dev.eng e
         y.pc = word target ∧ y.st.lvl = 2 ∧ y.ring = min ring x.ring ∧ (y.saveSet 2).spc = word i.addr &&& 0xFFFFFF ∧
         (y.saveSet 2).sfc = word (6 + 256 * k) ∧ (y.saveSet 2).sfa = word i.addr ∧ y.srp = x.srp ∧ y.gsp = x.gsp ∧ y.d = x.d)) ∧
  (∀ (s : State) (e k issue : Nat) (m : Move) (datum : Word),
     let d := s.dev
     let x := d.eng e
     let n := (x.opndVal .sysSel).toNat
     x.short = [] → k + 2 ≤ d.nowStep e →
     ∃ t r, exec (.shortOpComplete e) (s.onDev (fun d => d.fire e k issue m (.sys .rd) datum)) = .next t ∧ OnlyEngine s t e ∧
       (t.dev.eng e).result .sysR = { value := r, readable := true } ∧ (∀ p, p ≠ .sysR → (t.dev.eng e).result p = x.result p) ∧
       (t.dev.eng e).acst = x.acst ∧
       (n = 0 → ∀ p, d.engPart e = some p → d.recorded p = none → e < 1024 → p < 16 → r.toNat = e + 65536 * p) ∧
       (n = 1 → fld r 0 2 = x.ring ∧ fld r 2 2 = x.st.lvl.toNat ∧ bit r 4 = x.st.gie ∧ fld r 5 2 = x.st.mlv.toNat ∧ bit r 7 = x.st.grd ∧
         (bit r 8 = true ↔ ∃ f ∈ x.pendingFaults, f.completion = false ∧ f.ctx = x.ctx) ∧ fld r 9 23 = 0) ∧
       (n = 2 → r = x.acst.setWidth 32) ∧ (n = 3 → r = x.actl.setWidth 32) ∧ (n = 4 → r.toNat = d.grantOf e % 512) ∧
       (n = 0x10 → r = x.gtb.setWidth 32) ∧ (n = 0x11 → r = x.htb.setWidth 32) ∧
       (∀ j < 3, n = 0x12 + j → r.toNat = 8 * x.gspOff j) ∧
       (∀ j, 1 ≤ j → j ≤ 3 → n = 0x17 + j → r = Assoc.get 0 x.sep (BitVec.ofNat 2 j)) ∧
       (n = 0x1B → r = x.srp) ∧ (n = 0x1C → r = x.srs.setWidth 32) ∧
       (∀ j < 4, n = 0x20 + j → r = (Assoc.get 0 x.pwa (BitVec.ofNat 2 j)).setWidth 32) ∧
       (∀ j < 4, n = 0x28 + j → r = (Assoc.get 0 x.pwc (BitVec.ofNat 2 j)).setWidth 32) ∧
       (∀ j, 1 ≤ j → j ≤ 3 → let set := x.saveSet j
         (n = 0x100 + 16 * j → r = set.spc) ∧ (n = 0x101 + 16 * j → r = set.sst) ∧ (n = 0x102 + 16 * j → r = set.src) ∧
         (n = 0x103 + 16 * j → r = set.sbk) ∧ (n = 0x104 + 16 * j → r = set.sfa) ∧ (n = 0x105 + 16 * j → r = set.sfc)) ∧
       (SysReg.ofSel (x.opndVal .sysSel) = none → r = 0))

/-! ### Long operations, memory accesses and the shared units -/

/-- R56, R169, R178: the oldest lsu operation of an engine outside a Decant completes on scratchpad, cluster SRAM, exchange RAM beyond its headers or
module DRAM that is in service, whose check words are sound and where nothing meets it. A load leaves the bytes, extended as its form says, in lsu.r; a store writes its bytes and no
other; an atomic gives the word that stood there and stores its combination. lsu.st reads 0, and the operation leaves the queue. -/
def Obligations.MemoryAccessCompletes : Prop :=
  ∀ (s : State) (e p o : Nat) (l : LsuRun),
    let d := s.dev
    let x := d.eng e
    let a := d.place e l.addr
    let n := fromBytes (d.bytes a l.op.size)
    d.canonical = true → d.lsuHead e = some l → d.engPart e = some p → (d.part p).mode ≠ .decant →
    (regionOf a = some (.scratch o) ∨ regionOf a = some (.csram o) ∨ regionOf a = some (.dram o) ∨
      regionOf a = some (.xram o) ∧ 0x1000 ≤ a % 0x10000) → d.accessAlone e a l.op.size → d.offline a = false →
    (∀ m ∈ d.marks, ¬ (m.1 / 8 * 8 < a + l.op.size ∧ a < m.1 / 8 * 8 + 8)) → l.ctx = x.ctx →
    ∃ t v, exec (.lsuComplete e .none none) s = .next t ∧ t.pending = s.pending ∧
      (t.dev.eng e).result .lsuR = { value := v, readable := true } ∧
      (t.dev.eng e).result .lsuSt = { value := 0, readable := true } ∧
      (∀ q, q ≠ .lsuR → q ≠ .lsuSt → (t.dev.eng e).result q = x.result q) ∧
      (t.dev.eng e).lsu = x.lsu.drop 1 ∧ (t.dev.eng e).d = x.d ∧ (t.dev.eng e).st = x.st ∧ (t.dev.eng e).acst = x.acst ∧
      (∀ k, k ≠ e → t.dev.eng k = d.eng k) ∧ t.dev.regs = d.regs ∧
      (∀ k, k < a ∨ a + l.op.size ≤ k → t.dev.byte k = d.byte k) ∧
      match l.op with
      | .ldw => v = BitVec.ofNat 32 n ∧ ∀ k, t.dev.byte k = d.byte k
      | .ldh => v.toInt = (if n < 2 ^ 15 then (n : Int) else n - 2 ^ 16) ∧ ∀ k, t.dev.byte k = d.byte k
      | .ldhu => v.toNat = n ∧ ∀ k, t.dev.byte k = d.byte k
      | .ldb => v.toInt = (if n < 2 ^ 7 then (n : Int) else n - 2 ^ 8) ∧ ∀ k, t.dev.byte k = d.byte k
      | .ldbu => v.toNat = n ∧ ∀ k, t.dev.byte k = d.byte k
      | .stw => v = 0 ∧ ∀ i < 4, t.dev.byte (a + i) = BitVec.ofNat 8 (l.datum.toNat / 256 ^ i)
      | .sth => v = 0 ∧ ∀ i < 2, t.dev.byte (a + i) = BitVec.ofNat 8 (l.datum.toNat / 256 ^ i)
      | .stb => v = 0 ∧ t.dev.byte a = BitVec.ofNat 8 l.datum.toNat
      | .aswp => v = d.loadWord a ∧ t.dev.loadWord a = l.datum
      | .aadd => v = d.loadWord a ∧ t.dev.loadWord a = d.loadWord a + l.datum
      | .aand => v = d.loadWord a ∧ t.dev.loadWord a = d.loadWord a &&& l.datum
      | .aor => v = d.loadWord a ∧ t.dev.loadWord a = d.loadWord a ||| l.datum

/-- R168, R180, R181, R184, R185: the oldest lsu operation on memory outside a Decant and a recording, where it does not simply complete. At a unit out of
service, or at a word that cannot be corrected, it fails with BUS_ERROR OFFLINE or ECC: its windows end, the later operations of its context are
cancelled, the fault stays pending, and no byte changes. A single-bit error that strikes it is corrected, counted and shown in lsu.st. A collision
gives a load a free value, and BUSY where it is the later; an atomic never collides.
R15, R166, R169, R196: the oldest lsu operation on register space, outside a Decant and a recording. A load gives what the register reads as, and its
RC bits are cleared; a store does what the same REGISTER_WRITE does. Each leaves 0 in lsu.st. -/
def Obligations.OtherAccessesComplete : Prop :=
  (∀ (s : State) (e p : Nat) (l : LsuRun),
     let d := s.dev
     let x := d.eng e
     let a := d.place e l.addr
     let fails := fun (u : Option Upset) (code detail : Nat) =>
       ∃ t, exec (.lsuComplete e .none u) s = .next t ∧ t.pending = s.pending ∧
         ((t.dev.eng e).result .lsuR).readable = false ∧ ((t.dev.eng e).result .lsuSt).readable = false ∧
         (t.dev.eng e).pendingFaults = x.pendingFaults ++
           [{ at_ := l.due, trig := l.trig, code := code, detail := detail, sfa := l.issue, ctx := l.ctx, completion := true }] ∧
         (∀ k ∈ (t.dev.eng e).lsu, k.ctx ≠ l.ctx) ∧ (∀ k, k ≠ e → t.dev.eng k = d.eng k) ∧ (∀ k, t.dev.byte k = d.byte k) ∧
         (∀ r, r ≠ .cfgEcccnt → t.dev.reg r = d.reg r) ∧
         fld (t.dev.reg .cfgEcccnt) 16 16 = (if code = 0x0D then min 65535 (fld (d.reg .cfgEcccnt) 16 16 + 1) else fld (d.reg .cfgEcccnt) 16 16)
     d.lsuHead e = some l → d.engPart e = some p → (d.part p).mode ≠ .decant → (d.part p).recorder.open_ = none → d.losing p = false →
     (∀ b, regionOf a ≠ some (.device b)) → l.ctx = x.ctx → x.heirs = [] →
     (d.offline a = true → fails none 3 3) ∧
     (d.offline a = false → d.accessAlone e a l.op.size → d.uncorrectable a l.op.size = true → fails none 0x0D 0) ∧
     (d.offline a = false → d.accessAlone e a l.op.size → d.marks = [] → fails (some .uncorrectable) 0x0D 0) ∧
     (d.offline a = false → d.accessAlone e a l.op.size → d.marks = [] →
       ∃ t, exec (.lsuComplete e .none (some .single)) s = .next t ∧ t.dev.marks = [] ∧ (t.dev.eng e).pendingFaults = x.pendingFaults ∧
         (t.dev.eng e).result .lsuSt = { value := 1, readable := true } ∧ ((t.dev.eng e).result .lsuR).readable = true ∧
         fld (t.dev.reg .cfgEcccnt) 0 16 = min 65535 (fld (d.reg .cfgEcccnt) 0 16 + 1) ∧
         (l.op.kind = .load → ∀ k, t.dev.byte k = d.byte k)) ∧
     (∀ c hit, d.offline a = false → d.marks = [] → regionOf a = some (.xram c) → d.accesses = [] → hit ≠ .none →
       (∀ w ∈ checkWords a l.op.size, d.pacedWord w = false ∧ ∀ b, d.mayMeet w (!ownCluster e a) b = true) →
       (l.op.kind = .load → ∃ t v, exec (.lsuComplete e hit none) s = .next t ∧ (∀ k, t.dev.byte k = d.byte k) ∧
         (t.dev.eng e).result .lsuR = { value := v, readable := true } ∧
         (t.dev.eng e).result .lsuSt = { value := if hit = .later then 2 else 0, readable := true }) ∧
       (l.op.kind = .store → 0x1000 ≤ a % 0x10000 → d.canonical = true →
         ∃ t, exec (.lsuComplete e hit none) s = .next t ∧
         (t.dev.eng e).result .lsuSt = { value := if hit = .later then 2 else 0, readable := true } ∧
         (∀ i < l.op.size, t.dev.byte (a + i) = BitVec.ofNat 8 (l.datum.toNat / 256 ^ i)) ∧
         ∀ k, k < a ∨ a + l.op.size ≤ k → t.dev.byte k = d.byte k) ∧
       (l.op.kind = .atomic → 0x1000 ≤ a % 0x10000 → d.canonical = true → ∃ t, exec (.lsuComplete e hit none) s = .next t ∧
         (t.dev.eng e).result .lsuR = { value := d.loadWord a, readable := true } ∧
         (t.dev.eng e).result .lsuSt = { value := 0, readable := true }))) ∧
  (∀ (s : State) (e p b : Nat) (l : LsuRun) (r : Reg),
     let d := s.dev
     let x := d.eng e
     let a := d.place e l.addr
     d.lsuHead e = some l → d.engPart e = some p → (d.part p).mode ≠ .decant → (d.part p).recorder.open_ = none → d.losing p = false →
     regionOf a = some (.device b) → Reg.ofAddr a = some r → l.ctx = x.ctx → (∀ q ∈ (d.target (d.targetFor a)).waiting, q.slotted = false) →
     (l.op = .ldw → r ≠ .timNsl → r ≠ .timNsh → ∃ t, exec (.lsuComplete e .none none) s = .next t ∧ t.pending = s.pending ∧
       (t.dev.eng e).result .lsuR = { value := d.regValue r, readable := true } ∧
       (t.dev.eng e).result .lsuSt = { value := 0, readable := true } ∧ (t.dev.eng e).lsu = x.lsu.drop 1 ∧
       t.dev.reg r = d.reg r &&& ~~~ r.access.rc ∧ (∀ q, q ≠ r → t.dev.reg q = d.reg q) ∧ (∀ k, t.dev.byte k = d.byte k) ∧
       ∀ k, k ≠ e → t.dev.eng k = d.eng k) ∧
     (l.op = .stw → absentUnit d.grade a = false → a % 4 = 0 → d.regDetail b (some r) l.ring.toNat (some p) true = 0 →
       ∃ t u, exec (.lsuComplete e .none none) s = .next t ∧ exec (.registerWrite { ring := l.ring, part := some p } a l.datum) s = .next u ∧
         t.pending = s.pending ∧ { t.dev with engines := u.dev.engines } = u.dev ∧ (∀ k, k ≠ e → t.dev.eng k = u.dev.eng k)))

/-- R52, R55, R159: with the unit free, the oldest request that may be served starts at the latest of its trigger period, the period it is
served from and the completion of the request before it, and is due after the service count of the table. Beside the cluster only the target
ports of a block move's ends may change. -/
def Obligations.SharedRequestStarts : Prop :=
  ∀ (s : State) (c : Nat) (u : SharedUnit) (r : Request),
    let x := s.dev.unit3 c u
    let start := max (max r.trig r.earliest) x.lastDone
    s.dev.marks = [] → s.dev.pausedCluster c = false → x.service = none → x.queue.find? (s.dev.servable u) = some r → start < s.dev.now →
    ∃ t v, exec (.sharedRequestStart c u) s = .next t ∧ t.pending = s.pending ∧
      { t.dev with clusters := s.dev.clusters, targets := s.dev.targets } = s.dev ∧
      (∀ k, k ≠ c → t.dev.cluster k = s.dev.cluster k) ∧ ((∀ op, r.op ≠ .bmv op) → t.dev.targets = s.dev.targets) ∧
      (t.dev.unit3 c u).service = some v ∧ v.req = r ∧ v.start = start ∧ v.suspendAt = none ∧
      (t.dev.unit3 c u).queue = x.queue.erase r ∧ (t.dev.unit3 c u).lastDone = x.lastDone ∧
      (∀ w, w ≠ u → t.dev.unit3 c w = s.dev.unit3 c w) ∧
      match r.op with
      | .kin .mv4 => v.due = start + 40
      | .kin .sqrt => v.due = start + 48
      | .kin .sincos => v.due = start + 64
      | .kin .atan2 => v.due = start + 80
      | .kin .norm3 => v.due = start + 120
      | .ipl .lin => v.due = start + 24
      | .ipl .circ => v.due = start + 40
      | .ipl .spl => v.due = start + 56
      | .bmv _ => v.due = start + 8 + (if s.dev.bmvDram r then 72 else 4) * r.left

/-- R129, R58: `kin.t.sqrt` completes with the square root of t in Q16.16, rounded to nearest, in kin.r; kin.r2, which it gives no result, can be
read no longer; the flags and memory stay as they are.
R127, R128, R129, R58: `kin.t.mv4` and `kin.t.norm3` on blocks that nothing has stored to meanwhile. mv4 writes the four products, each rounded by
16 bits and clamped, with SAT where one clamps; norm3 writes the components nearest to v × 2^16 / L and gives L, or sets KR and writes nothing where L
is 0. No other byte changes. A block that runs past the end of the SRAM goes on at its start, which is the model's choice (log entry 71).
R133: an ipl request on a block whose CTL asks for no axis or has a must-be-0 bit completes as BAD: STAT reads 4, r is 0, KR
is set and no other word is written. A block that runs past the end of the SRAM goes on at its start (log entry 71).
R133: an ipl request of lin or spl on a block whose CTL is valid and that nothing has stored to meanwhile: E advances by k × DU up to the
segment's end, OUT of every axis, U and STAT are written and no other byte, r is OUT[0] and st the STAT word; SAT where a setpoint clamps. -/
def Obligations.SharedUnitsComplete : Prop :=
  (∀ (s : State) (c : Nat) (v : Service),
     let e := v.req.engine
     let x := s.dev.eng e
     s.dev.pausedCluster c = false → (s.dev.unit3 c .kin).service = some v → v.req.op = .kin .sqrt → s.dev.servedBy v ≤ s.dev.now →
     v.req.dead = false → v.bad = false → v.req.ctx = x.ctx →
     ∃ t r, exec (.kinComplete c) s = .next t ∧ t.pending = s.pending ∧ (t.dev.unit3 c .kin).service = none ∧
       (t.dev.eng e).result .kinR = { value := r, readable := true } ∧
       (r ≠ 0 → (2 * r.toNat - 1) ^ 2 ≤ 4 * (v.req.t.toNat * 2 ^ 16)) ∧ 4 * (v.req.t.toNat * 2 ^ 16) < (2 * r.toNat + 1) ^ 2 ∧
       (t.dev.eng e).result .kinR2 = { value := (x.result .kinR2).value, readable := false } ∧
       (∀ p, p ≠ .kinR → p ≠ .kinR2 → (t.dev.eng e).result p = x.result p) ∧ (t.dev.eng e).acst = x.acst ∧
       (∀ k, t.dev.byte k = s.dev.byte k) ∧ ∀ k, k ≠ e → t.dev.eng k = s.dev.eng k) ∧
  (∀ (s : State) (c : Nat) (v : Service),
     let e := v.req.engine
     let x := s.dev.eng e
     let w := fun (k : Nat) => (inputAt v.inputs k).toInt
     let adr := blockAddr e v.req.t
     s.dev.canonical = true → s.dev.marks = [] → s.dev.pausedCluster c = false → (s.dev.unit3 c .kin).service = some v →
     s.dev.servedBy v ≤ s.dev.now → v.req.dead = false → v.bad = false → v.req.stored = [] → v.req.ctx = x.ctx → v.req.t.toNat % 16 = 0 →
     (v.req.op = .kin .mv4 →
       let row := fun (i : Nat) => (w (4 * i) * w 16 + w (4 * i + 1) * w 17 + w (4 * i + 2) * w 18 + w (4 * i + 3) * w 19 + 2 ^ 15) / 2 ^ 16
       ∃ t, exec (.kinComplete c) s = .next t ∧ t.pending = s.pending ∧ (t.dev.unit3 c .kin).service = none ∧
         (∀ i < 4, (t.dev.loadWord (adr (4 * i))).toInt = max (-2 ^ 31) (min (2 ^ 31 - 1) (row i))) ∧
         (t.dev.eng e).result .kinR = { value := t.dev.loadWord (adr 0), readable := true } ∧
         (t.dev.eng e).result .kinR2 = { value := t.dev.loadWord (adr 4), readable := true } ∧
         ((∃ i < 4, row i < -2 ^ 31 ∨ 2 ^ 31 - 1 < row i) → (t.dev.eng e).acst = x.acst ||| flagSAT) ∧
         ((∀ i < 4, -2 ^ 31 ≤ row i ∧ row i ≤ 2 ^ 31 - 1) → (t.dev.eng e).acst = x.acst) ∧
         (∀ k, k < adr 0 ∨ adr 0 + 16 ≤ k → t.dev.byte k = s.dev.byte k) ∧ ∀ k, k ≠ e → t.dev.eng k = s.dev.eng k) ∧
     (v.req.op = .kin .norm3 →
       let sq := w 0 ^ 2 + w 1 ^ 2 + w 2 ^ 2
       ∃ t r, exec (.kinComplete c) s = .next t ∧ t.pending = s.pending ∧ (t.dev.unit3 c .kin).service = none ∧
         (t.dev.eng e).result .kinR = { value := r, readable := true } ∧ ((t.dev.eng e).result .kinR2).readable = false ∧
         (sq = 0 → r = 0 ∧ (t.dev.eng e).acst = x.acst ||| flagKR ∧ ∀ k, t.dev.byte k = s.dev.byte k) ∧
         (sq ≠ 0 → (t.dev.eng e).acst = x.acst ∧ (2 * (r.toNat : Int) - 1) ^ 2 ≤ 4 * sq ∧ 4 * sq < (2 * (r.toNat : Int) + 1) ^ 2 ∧
           (∀ i < 3, let n := (t.dev.loadWord (adr (4 * i))).toInt
             (0 < w i → 0 ≤ n) ∧ (w i < 0 → n ≤ 0) ∧ (w i = 0 → n = 0) ∧
             (n ≠ 0 → (2 * |n| - 1) ^ 2 * sq ≤ 2 ^ 34 * w i ^ 2) ∧ 2 ^ 34 * w i ^ 2 < (2 * |n| + 1) ^ 2 * sq) ∧
           ∀ k, k < adr 0 ∨ adr 0 + 12 ≤ k → t.dev.byte k = s.dev.byte k) ∧
         ∀ k, k ≠ e → t.dev.eng k = s.dev.eng k)) ∧
  (∀ (s : State) (c : Nat) (v : Service) (op : IplOp),
     let e := v.req.engine
     let x := s.dev.eng e
     let ctl := inputAt v.inputs 0
     let a := blockAddr e v.req.a 12
     s.dev.canonical = true → s.dev.marks = [] → s.dev.pausedCluster c = false →
     (s.dev.unit3 c .ipl).service = some v → v.req.op = .ipl op → s.dev.servedBy v ≤ s.dev.now → v.req.dead = false → v.bad = false →
     v.req.stored = [] → v.req.ctx = x.ctx →
     (ctl.toNat / 16 ≠ 0 ∨ ctl.toNat % 16 = 0 ∨ 8 < ctl.toNat % 16 ∨ (op = .circ ∧ ctl.toNat % 16 < 2)) →
     ∃ t, exec (.iplComplete c) s = .next t ∧ t.pending = s.pending ∧ (t.dev.unit3 c .ipl).service = none ∧
       (t.dev.eng e).result .iplR = { value := 0, readable := true } ∧
       (t.dev.eng e).result .iplSt = { value := 4, readable := true } ∧
       (t.dev.eng e).acst = x.acst ||| flagKR ∧ t.dev.loadWord a = 4 ∧
       (∀ k, k < a ∨ a + 4 ≤ k → t.dev.byte k = s.dev.byte k)) ∧
  (∀ (s : State) (c n : Nat) (v : Service) (op : IplOp),
     let e := v.req.engine
     let x := s.dev.eng e
     let input := fun (k : Nat) => inputAt v.inputs (k / 4)
     let adr := blockAddr e v.req.a
     let w : Nat := (input 4).toNat + v.req.t.toNat % 2 ^ 16 * (input 8).toNat
     let ended : Prop := bit (input 12) 0 = true ∨ 2 ^ 32 ≤ w
     let clamp := fun (y : Int) => max (-2 ^ 31) (min (2 ^ 31 - 1) y)
     let out := fun (y : Int) => y < -2 ^ 31 ∨ 2 ^ 31 - 1 < y
     let scaled := fun (k : Int) (en : Int) => (k * en + 2 ^ 31) / 2 ^ 32
     let k0 := fun (i : Nat) => (input (16 + 4 * i)).toInt
     let k1 := fun (i : Nat) => (input (48 + 4 * i)).toInt
     let k2 := fun (i : Nat) => (input (80 + 4 * i)).toInt
     let k3 := fun (i : Nat) => (input (112 + 4 * i)).toInt
     let h2 := fun (i : Nat) (en : Int) => k2 i + scaled (k3 i) en
     let h1 := fun (i : Nat) (en : Int) => k1 i + scaled (clamp (h2 i en)) en
     let raw := fun (i : Nat) (en : Int) => match op with | .spl => k0 i + scaled (clamp (h1 i en)) en | _ => k0 i + scaled (k1 i) en
     let clips := fun (i : Nat) (en : Int) => out (raw i en) ∨ (op = .spl ∧ (out (h1 i en) ∨ out (h2 i en)))
     s.dev.canonical = true → s.dev.marks = [] → s.dev.pausedCluster c = false → op ≠ .circ →
     (s.dev.unit3 c .ipl).service = some v → v.req.op = .ipl op → s.dev.servedBy v ≤ s.dev.now → v.req.dead = false → v.bad = false →
     v.req.stored = [] → v.req.ctx = x.ctx → v.req.a.toNat % 64 = 0 → (input 0).toNat = n → 1 ≤ n → n ≤ 8 →
     ∃ (t : State) (r st : Word) (en : Int), exec (.iplComplete c) s = .next t ∧ t.pending = s.pending ∧ (t.dev.unit3 c .ipl).service = none ∧
       (ended → en = 2 ^ 32) ∧ (¬ ended → en = (w : Int)) ∧
       (t.dev.eng e).result .iplR = { value := r, readable := true } ∧ (t.dev.eng e).result .iplSt = { value := st, readable := true } ∧
       r = t.dev.loadWord (adr 0x90) ∧ st = t.dev.loadWord (adr 12) ∧ (bit st 0 = true ↔ ended) ∧
       (bit st 1 = true ↔ ∃ i, i < n ∧ clips i en) ∧ st.toNat < 4 ∧
       (∀ i, i < n → (t.dev.loadWord (adr (0x90 + 4 * i))).toInt = clamp (raw i en)) ∧
       (bit (input 12) 0 = false → t.dev.loadWord (adr 4) = if 2 ^ 32 ≤ w then 0 else word w) ∧
       (bit (input 12) 0 = true → t.dev.loadWord (adr 4) = input 4) ∧
       (t.dev.eng e).acst = (if bit st 1 then x.acst ||| flagSAT else x.acst) ∧
       (∀ a, (∀ j, j = 4 ∨ j = 12 ∨ (∃ i, i < n ∧ j = 0x90 + 4 * i) → a < adr j ∨ adr j + 4 ≤ a) → t.dev.byte a = s.dev.byte a) ∧
       (∀ k, k ≠ e → t.dev.eng k = s.dev.eng k))

/-- R129, R133, R134: sincos gives the sine and the cosine of its angle scaled by 2^30, atan2 the angle of its operands (0 with KR where both are 0), and
circ puts its first two axes on the circle; each value is the nearest integer, within 2^-20 of a half (log entry 11 has the rounding). circ's other axes are
those of lin. -/
def Obligations.AnglesComplete : Prop :=
  let turn := fun (u : Nat) => 2 * Real.pi * (u : ℝ) / 2 ^ 32
  let near := fun (n : Int) (y : ℝ) => |(n : ℝ) - y| ≤ 1 / 2 + 1 / 2 ^ 20
  ∀ (s : State) (c : Nat) (v : Service),
    let e := v.req.engine
    let x := s.dev.eng e
    s.dev.pausedCluster c = false → s.dev.servedBy v ≤ s.dev.now → v.req.dead = false → v.bad = false → v.req.ctx = x.ctx →
    (v.req.op = .kin .sincos → (s.dev.unit3 c .kin).service = some v →
      ∃ t r r2, exec (.kinComplete c) s = .next t ∧ t.pending = s.pending ∧
        (t.dev.eng e).result .kinR = { value := r, readable := true } ∧ (t.dev.eng e).result .kinR2 = { value := r2, readable := true } ∧
        near r.toInt (2 ^ 30 * Real.sin (turn v.req.t.toNat)) ∧ near r2.toInt (2 ^ 30 * Real.cos (turn v.req.t.toNat)) ∧
        (t.dev.eng e).acst = x.acst ∧ ∀ k, t.dev.byte k = s.dev.byte k) ∧
    (v.req.op = .kin .atan2 → (s.dev.unit3 c .kin).service = some v →
      ∃ t r, exec (.kinComplete c) s = .next t ∧ t.pending = s.pending ∧ (t.dev.eng e).result .kinR = { value := r, readable := true } ∧
        ((t.dev.eng e).result .kinR2).readable = false ∧ (∀ k, t.dev.byte k = s.dev.byte k) ∧
        (v.req.a = 0 → v.req.t = 0 → r = 0 ∧ (t.dev.eng e).acst = x.acst ||| flagKR) ∧
        (¬ (v.req.a = 0 ∧ v.req.t = 0) → (t.dev.eng e).acst = x.acst ∧
          ∃ n : Int, r = BitVec.ofInt 32 n ∧ near n (Complex.arg ⟨v.req.t.toInt, v.req.a.toInt⟩ * 2 ^ 32 / (2 * Real.pi)))) ∧
    (∀ n, v.req.op = .ipl .circ → (s.dev.unit3 c .ipl).service = some v → s.dev.canonical = true → s.dev.marks = [] → v.req.stored = [] →
      v.req.a.toNat % 64 = 0 → (inputAt v.inputs 0).toNat = n → 2 ≤ n → n ≤ 8 →
      let word4 := fun (k : Nat) => (inputAt v.inputs (k / 4)).toInt
      let go : Nat := (inputAt v.inputs 1).toNat + v.req.t.toNat % 2 ^ 16 * (inputAt v.inputs 2).toNat
      let clamp := fun (y : Int) => max (-2 ^ 31) (min (2 ^ 31 - 1) y)
      ∃ (t : State) (en : Int) (co si : Int), exec (.iplComplete c) s = .next t ∧ t.pending = s.pending ∧
        (bit (inputAt v.inputs 3) 0 = true ∨ 2 ^ 32 ≤ go → en = 2 ^ 32) ∧ (bit (inputAt v.inputs 3) 0 = false → go < 2 ^ 32 → en = (go : Int)) ∧
        (let phi := turn (BitVec.ofInt 32 ((inputAt v.inputs 12).toNat + (word4 52 * en + 2 ^ 30) / 2 ^ 31)).toNat
         near co (2 ^ 30 * Real.cos phi) ∧ near si (2 ^ 30 * Real.sin phi)) ∧
        (let out := fun (i : Nat) => (t.dev.loadWord (blockAddr e v.req.a (0x90 + 4 * i))).toInt
         out 0 = clamp (word4 16 + (word4 80 * co + 2 ^ 29) / 2 ^ 30) ∧ out 1 = clamp (word4 20 + (word4 80 * si + 2 ^ 29) / 2 ^ 30) ∧
         ∀ i, 2 ≤ i → i < n → out i = clamp (word4 (16 + 4 * i) + (word4 (48 + 4 * i) * en + 2 ^ 31) / 2 ^ 32)))

/-- R55, R151, R519: a bmv transfer whose blocks move ends once they are done: every word of a fill's range holds the fill value, a copy's range what its
source held; every other byte is left, and bmv.st reads 0.
R54: a bmv transfer whose engine entered a handler stops at its boundary: the blocks before it have moved and no other byte has changed, its remainder
is kept with the addresses at that point, its length stands in SYS.SRCn.BMV of the level entered, and the unit serves the next request. -/
def Obligations.BlockMoverCompletesOrStops : Prop :=
  (∀ (s : State) (c : Nat) (v : Service),
     let d := s.dev
     let r := v.req
     let x := d.eng r.engine
     d.canonical = true → d.marks = [] → d.pausedCluster c = false → (d.unit3 c .bmv).service = some v → r.engine / 16 = c → r.dead = false →
     v.suspendAt = none → d.blocksReady c r r.left → d.blocksDone v r.left = true → r.ctx = x.ctx →
     ∃ t, exec (.bmvComplete ⟨c, .none⟩) s = .next t ∧ t.pending = s.pending ∧ (t.dev.unit3 c .bmv).service = none ∧
       (t.dev.eng r.engine).result .bmvSt = { value := 0, readable := true } ∧
       (∀ p, p ≠ .bmvSt → (t.dev.eng r.engine).result p = x.result p) ∧ (t.dev.eng r.engine).pendingFaults = x.pendingFaults ∧
       (∀ k < r.left, t.dev.bytes (r.dst + 64 * k) 64 = d.blockData r k) ∧
       (∀ k, k < r.dst ∨ r.dst + 64 * r.left ≤ k → t.dev.byte k = d.byte k)) ∧
  (∀ (s : State) (c level : Nat) (v : Service),
     let d := s.dev
     let r := v.req
     let n := v.stopAt
     d.canonical = true → d.marks = [] → d.pausedCluster c = false → (d.unit3 c .bmv).service = some v → r.engine / 16 = c →
     v.suspendAt = some level → r.dead = false → n ≤ r.left → d.blocksReady c r n → d.blocksDone v n = true →
     (∀ p ∈ (d.cluster c).parked, p.returned = false) →
     ∃ t p, exec (.bmvSuspend ⟨c, .none⟩) s = .next t ∧ t.pending = s.pending ∧ (t.dev.unit3 c .bmv).service = none ∧
       (t.dev.unit3 c .bmv).queue = (d.unit3 c .bmv).queue ∧ p ∈ (t.dev.cluster c).parked ∧
       (∀ k < n, t.dev.bytes (r.dst + 64 * k) 64 = d.blockData r k) ∧ (∀ k, k < r.dst ∨ r.dst + 64 * n ≤ k → t.dev.byte k = d.byte k) ∧
       p.req.src = r.src + 64 * n ∧ p.req.dst = r.dst + 64 * n ∧ p.req.left = r.left - n ∧ p.returned = false ∧
       fld ((t.dev.eng r.engine).saveSet level).src 16 15 = (r.left - n) % 2 ^ 15)

/-! ### Waits, channels and task slots -/

/-- R294, R292: a wait on lines that finds one latched completes with the lowest such line in ev.r and its OVR; the wait ends at
this step, and the line is left raised only by raises of this same period, one of which the wait consumes where it was not latched.
R287, R288: at its limit a cu wait ends and raises nothing; a wait on lines none of which is raised completes with LIMIT and,
where FLT asks for it, leaves a precise fault for the next pair.
R304, R305: one ready of a cluster whose other engines have nothing on the way and wait for no task lands: the slot counts
one more and ev.r reports that count, or OVR where the slot stands at 255. -/
def Obligations.WaitsEnd : Prop :=
  (∀ (s : State) (e lo hi n : Nat) (w : Wait),
     let d := s.dev
     let x := d.eng e
     let l := (Assoc.get {} x.events n).at d.now
     x.wait = some w → w.kind = .lines lo hi → w.ctx = x.ctx → w.trig < d.nowStep e → d.waitLine e lo hi = some n →
     ∃ t v, exec (.evWaitComplete e) s = .next t ∧ OnlyEngine s t e ∧
       lo ≤ n ∧ n ≤ hi ∧ d.lineEnabled e n = false ∧ (∀ k, lo ≤ k → k < n → d.lineEnabled e k = false → d.lineLatched e k = false) ∧
       (t.dev.eng e).wait = none ∧ (t.dev.eng e).readyAt = d.nowStep e ∧
       (t.dev.eng e).result .evR = { value := v, readable := true } ∧ fld v 0 8 = n ∧ bit v 8 = l.ovr ∧ bit v 31 = false ∧
       (∀ p, p ≠ .evR → (t.dev.eng e).result p = x.result p) ∧
       t.dev.lineNow e n = (decide ((if l.raised then 1 else 2) ≤ l.count), false) ∧
       ∀ k, k ≠ n → t.dev.lineNow e k = d.lineNow e k) ∧
  (∀ (s : State) (e : Nat) (w : Wait),
     let d := s.dev
     let x := d.eng e
     x.wait = some w → w.ctx = x.ctx → w.start + w.limit ≤ d.now → d.eventLine e = none → d.pausedEngine e = false →
     (∀ c ∈ x.ch, c.blocking = false) → x.waitFault = none →
     (w.kind = .cu → ∃ t, exec (.waitLimitExpire e) s = .next t ∧ OnlyEngine s t e ∧
       t.dev.eng e = { x with wait := none, readyAt := d.nowStep e }) ∧
     (∀ lo hi, w.kind = .lines lo hi → (∀ n, lo ≤ n → n ≤ hi → n < 192 → (d.lineNow e n).1 = false) →
       ∃ t, exec (.waitLimitExpire e) s = .next t ∧ OnlyEngine s t e ∧ (t.dev.eng e).wait = none ∧
         (t.dev.eng e).result .evR = { value := 0x80000000, readable := true } ∧
         (t.dev.eng e).waitFault = (if w.flt then some w.issue else none) ∧ (t.dev.eng e).readyAt = d.nowStep e)) ∧
  (∀ (s : State) (c i : Nat) (r : TaskRun),
     let d := s.dev
     let e := 16 * c + i
     let n := d.slot c r.slot
     d.pausedCluster c = false → i < 16 → (d.eng e).tasks = [r] → r.ready = true → r.lands + 1 = d.now → r.ctx = (d.eng e).ctx →
     (∀ j < 16, j ≠ i → (d.eng (16 * c + j)).tasks = []) → (∀ j < 16, (d.eng (16 * c + j)).wait = none) → r.slot < 64 →
     ∃ t v, exec (.taskLanding c) s = .next t ∧ t.pending = s.pending ∧
       t.dev.slot c r.slot = min 255 (n + 1) ∧ (∀ k, k ≠ r.slot → t.dev.slot c k = d.slot c k) ∧
       (t.dev.eng e).tasks = [] ∧ (t.dev.eng e).result .evR = { value := v, readable := true } ∧
       fld v 0 8 = r.slot ∧ fld v 16 8 = min 255 (n + 1) ∧ bit v 8 = decide (n = 255) ∧
       (∀ k, k ≠ e → t.dev.eng k = d.eng k) ∧ t.dev.mem = d.mem ∧ t.dev.regs = d.regs)

/-- R276, R277: in its turn and granted by its target port, where no other access of the receiver's exchange RAM meets it, the message of the oldest last send lands in the next slot of an enabled ring that has room: its words stand in the
slot, COUNT goes up by one, the send has its status, and no byte outside the slot, COUNT and the peer vector changes.
R282: a send completes in order: it writes ch.st and nothing else a receive would write; a last send reports how its
message landed.
R279: a receive of Free mode that waited for its channel completes on the head message once one has landed: it gives the word it asks for, and POP
removes the message; without POP the queue stays as it is. -/
def Obligations.MessagesArePostedAndReceived : Prop :=
  (∀ (s : State) (e i : Nat) (c : ChRun),
     let d := s.dev
     let x := d.eng e
     let k := fld c.dst 0 10
     let h := chHeader k (fld c.dst 10 3)
     let w0 := d.loadWord h
     let slots := if fld (d.loadWord (h + 4)) 24 8 = 0 then 256 else fld (d.loadWord (h + 4)) 24 8
     let count := fld (d.loadWord (h + 12)) 0 9
     let size := slotBytes (fld w0 24 4)
     let off := 16 * fld w0 0 12 + (fld (d.loadWord (h + 8)) 16 8 + count) % slots * size
     let slot := xramBase (k / 16) + off
     let v := peerVector k + e / 8
     d.canonical = true → d.marks = [] → d.accesses = [] → (∀ w b, wordCluster w = k / 16 → inMailbox (8 * w) = false → d.mayMeet w true b = false) →
     e < 1024 → d.seenEngine e e = e →
     x.ch.findIdx? (fun q => !q.recv && q.last && q.landed.isNone) = some i → x.ch[i]? = some c →
     (if d.paced e then c.due ≤ d.nowStep e else c.trig < d.nowStep e) → d.postInTurn e c = true → d.postWaits e k = false →
     bit w0 31 = true → c.words.length - 1 ≤ fld w0 24 4 → c.words ≠ [] → count < slots → 0x1000 ≤ off → off + size ≤ 0x10000 →
     ∃ t q, exec (.chPost e) s = .next t ∧ t.pending = s.pending ∧
       (t.dev.eng e).ch[i]? = some q ∧ q.landed = some (if (d.byte v).getLsbD (e % 8) then 2 else 1) ∧
       t.dev.loadWord (h + 12) = word (count + 1) ∧
       fld (t.dev.loadWord slot) 0 10 = e ∧ fld (t.dev.loadWord slot) 10 4 = (c.words.length - 1) % 16 ∧
       (∀ j w, c.words[j]? = some w → t.dev.loadWord (slot + 4 * (j + 1)) = w) ∧
       (t.dev.byte v).getLsbD (e % 8) = false ∧
       (∀ j, j ≠ e → t.dev.eng j = d.eng j) ∧ t.dev.regs = d.regs ∧
       (∀ a, (a < slot ∨ slot + 4 * (c.words.length + 1) ≤ a) → (a < h + 12 ∨ h + 16 ≤ a) → a ≠ v → t.dev.byte a = d.byte a)) ∧
  (∀ (s : State) (e : Nat) (c : ChRun) (rest : List ChRun),
     let x := s.dev.eng e
     x.ch = c :: rest → c.recv = false → c.due ≤ s.dev.nowStep e → x.chLast < s.dev.nowStep e → c.ctx = x.ctx →
     (c.last = true → c.landed.isSome = true) →
     ∃ t v, exec (.chSendComplete e) s = .next t ∧ OnlyEngine s t e ∧ (t.dev.eng e).ch = rest ∧
       (t.dev.eng e).result .chSt = { value := v, readable := true } ∧
       fld v 0 4 = (if c.last then (match c.landed with | some st => st.toNat | none => 0) else 0) ∧ bit v 27 = c.abn ∧
       (∀ p, p ≠ .chSt → (t.dev.eng e).result p = x.result p)) ∧
  (∀ (s : State) (e : Nat) (c : ChRun) (rest : List ChRun),
     let d := s.dev
     let x := d.eng e
     let h := chHeader e (fld c.datum 0 3)
     let w0 := d.loadWord h
     let count := fld (d.loadWord (h + 12)) 0 9
     let slot := xramBase (e / 16) + 16 * fld w0 0 12 + fld (d.loadWord (h + 8)) 16 8 * slotBytes (fld w0 24 4)
     let idx := fld c.datum 4 4
     d.canonical = true → d.marks = [] → x.ch = c :: rest → c.recv = true → c.out = none → c.blocking = true → c.due ≤ d.nowStep e →
     x.chLast < d.nowStep e → c.ctx = x.ctx → fld c.datum 11 21 = 0 → bit c.datum 3 = false → bit c.datum 9 = false → bit w0 31 = true → 0 < count →
     ∃ t r v, exec (.chRecvComplete e) s = .next t ∧ t.pending = s.pending ∧ (t.dev.eng e).ch = rest ∧
       (t.dev.eng e).result .chR = { value := r, readable := true } ∧ (t.dev.eng e).result .chSt = { value := v, readable := true } ∧
       (idx ≤ fld (d.loadWord slot) 10 4 → r = d.loadWord (slot + 4 * (idx + 1)) ∧ fld v 0 4 = 0) ∧
       (fld (d.loadWord slot) 10 4 < idx → r = 0 ∧ fld v 0 4 = 8) ∧
       (∀ p, p ≠ .chR → p ≠ .chSt → (t.dev.eng e).result p = x.result p) ∧ (∀ k, k ≠ e → t.dev.eng k = d.eng k) ∧ t.dev.regs = d.regs ∧
       (bit c.datum 8 = false → OnlyEngine s t e ∧ fld v 18 9 = count) ∧
       (bit c.datum 8 = true → fld v 18 9 = count - 1 ∧ t.dev.loadWord (h + 12) = word (count - 1) ∧
         ∀ k, k < h + 8 ∨ h + 16 ≤ k → t.dev.byte k = d.byte k))

/-- R278 to R282: a receive of an engine with no other channel operation, and its completion: in Free mode and Recovery it acts at its trigger, in Paced at
the end of its pace period. A must-be-0 bit gives BAD_WORD and a channel that is off NO_CHANNEL, with 0 in ch.r (log entry 80); CNT gives COUNT; an
empty queue gives 0 and EMPTY in Paced or with NB; else it gives word IDX of the head message, with its sender and LEN, or 0 and BAD_WORD for a higher
IDX, and POP removes the message in either case. -/
def Obligations.ReceivesAnswer : Prop :=
  ∀ (s : State) (e k : Nat) (t : Word),
    let d := s.dev
    let x := d.eng e
    let h := chHeader e (fld t 0 3)
    let w0 := d.loadWord h
    let count := fld (d.loadWord (h + 12)) 0 9
    let slots := if fld (d.loadWord (h + 4)) 24 8 = 0 then 256 else fld (d.loadWord (h + 4)) 24 8
    let head := fld (d.loadWord (h + 8)) 16 8
    let slot := xramBase (e / 16) + 16 * fld w0 0 12 + head * slotBytes (fld w0 24 4)
    let hdr := d.loadWord slot
    let idx := fld t 4 4
    let bad : Prop := fld t 11 21 ≠ 0 ∨ bit t 3 = true
    let fire := fun (d : Device) => if d.paced e then (d.fireRecv e k t).takeReceives e else d.fireRecv e k t
    d.canonical = true → d.marks = [] → x.ch = [] → max (k + (if d.paced e then 8 else 1)) (x.chLast + 1) ≤ d.nowStep e →
    (bad ∨ bit w0 31 = false ∨ bit t 9 = true ∨ 0 < count ∨ d.paced e = true ∨ bit t 10 = true) →
    ∃ u r v, exec (.chRecvComplete e) (s.onDev fire) = .next u ∧ u.pending = s.pending ∧ (u.dev.eng e).ch = [] ∧
      (u.dev.eng e).result .chR = { value := r, readable := true } ∧ (u.dev.eng e).result .chSt = { value := v, readable := true } ∧
      (∀ p, p ≠ .chR → p ≠ .chSt → (u.dev.eng e).result p = x.result p) ∧ (∀ j, j ≠ e → u.dev.eng j = d.eng j) ∧ u.dev.regs = d.regs ∧
      bit v 27 = false ∧
      (bad → r = 0 ∧ fld v 0 4 = 8) ∧
      (¬ bad → bit w0 31 = false → r = 0 ∧ fld v 0 4 = 4) ∧
      (¬ bad → bit w0 31 = true → bit t 9 = true → r = word count ∧ fld v 0 4 = 0 ∧ fld v 18 9 = count) ∧
      (¬ bad → bit w0 31 = true → bit t 9 = false → count = 0 → r = 0 ∧ fld v 0 4 = 6) ∧
      (¬ bad → bit w0 31 = true → bit t 9 = false → 0 < count →
        fld v 8 10 = fld hdr 0 10 ∧ fld v 4 4 = fld hdr 10 4 ∧ fld v 18 9 = (if bit t 8 then count - 1 else count) ∧
        (idx ≤ fld hdr 10 4 → r = d.loadWord (slot + 4 * (idx + 1)) ∧ fld v 0 4 = 0) ∧ (fld hdr 10 4 < idx → r = 0 ∧ fld v 0 4 = 8) ∧
        (bit t 8 = true → u.dev.loadWord (h + 12) = word (count - 1) ∧ fld (u.dev.loadWord (h + 8)) 16 8 = (head + 1) % slots ∧
          ∀ a, a < h + 8 ∨ h + 16 ≤ a → u.dev.byte a = d.byte a)) ∧
      ((bad ∨ bit w0 31 = false ∨ bit t 9 = true ∨ count = 0 ∨ bit t 8 = false) → ∀ a, u.dev.byte a = d.byte a)

/-! ### Events and timers -/

/-- R300 to R302: a write to EVR.RAISE of partition p raises a software source that p owns: the raise sets out for the line of its route, which
it reaches 18 pace periods later; while p is held or paused, one raise of the source is kept; in a reset of Module reach nothing raises, which is the model's choice (log entry 47).
Any other value is ignored and counted in EVR.DROP of p, which saturates.
R300: the oldest raise whose 18 pace periods are over reaches the line of its route, as one more raise of this period; where
the route is not valid or its line is above 191, it is counted in EVR.DROP of the source's owner, or in EVR.MDROP, at that time, which is the
model's choice (log entry 20).
R303: a write of EVR.TCTLn or EVR.TPERn re-arms timer n from this period. A one-shot timer that is due raises its source and
its MODE then reads 0; a periodic one raises its source and counts its periods on. -/
def Obligations.RaisesAndTimersReachLines : Prop :=
  (∀ (s : State) (p : Nat) (v : Word),
     let d := s.dev
     let n := v.toNat
     let mine := 0x500 ≤ n ∧ n < 0x1000 ∧ d.sourceOwner n = some p
     (mine → d.phase ≠ .off → d.released p = true → d.pausedPart p = false →
       ∃ t, exec (.softwareRaise p v) s = .next t ∧ t.pending = s.pending ∧
         t.dev.raises = d.raises ++ [(d.now + 18, n, d.reg (.evrRoute n))] ∧ { t.dev with raises := d.raises } = d) ∧
     (mine → d.phase = .off → exec (.softwareRaise p v) s = .next s) ∧
     (mine → d.phase ≠ .off → (d.released p = false ∨ d.pausedPart p = true) →
       ∃ t, exec (.softwareRaise p v) s = .next t ∧ t.pending = s.pending ∧ n ∈ t.dev.heldRaises ∧
         (n ∈ d.heldRaises → t.dev = d) ∧ { t.dev with heldRaises := d.heldRaises } = d) ∧
     (¬ mine →
       ∃ t, exec (.softwareRaise p v) s = .next t ∧ OnlyRegs s t [.evrDrop p] ∧
         (t.dev.reg (.evrDrop p)).toNat = min (2 ^ 32 - 1) ((d.reg (.evrDrop p)).toNat + 1))) ∧
  (∀ (s : State) (due n : Nat) (route : Word) (rest : List (Nat × Nat × Word)),
     let d := s.dev
     let e := fld route 0 10
     let line := fld route 18 8
     let l := (Assoc.get {} (d.eng e).events line).at d.now
     d.raises = (due, n, route) :: rest → due ≤ d.now →
     (∀ p, bit route 26 = true → line ≤ 191 → e < d.grade.engines → d.engPart e = some p →
       (0x100 ≤ n ∨ d.modeNow p ≠ .decant) →
       ∃ t, exec .routeDelivery s = .next t ∧ t.pending = s.pending ∧ t.dev.raises = rest ∧
         Assoc.get {} (t.dev.eng e).events line = { l with count := l.count + 1 } ∧
         (∀ k, k ≠ line → Assoc.get {} (t.dev.eng e).events k = Assoc.get {} (d.eng e).events k) ∧
         (∀ k, k ≠ e → t.dev.eng k = d.eng k) ∧ t.dev.mem = d.mem ∧ (0x100 ≤ n → t.dev.regs = d.regs)) ∧
     ((bit route 26 = false ∨ 191 < line) →
       let r := match d.sourceOwner n with | some p => Reg.evrDrop p | none => Reg.evrMdrop
       ∃ t, exec .routeDelivery s = .next t ∧ t.pending = s.pending ∧ t.dev.raises = rest ∧
         (t.dev.reg r).toNat = min (2 ^ 32 - 1) ((d.reg r).toNat + 1) ∧ (∀ q, q ≠ r → t.dev.reg q = d.reg q) ∧
         t.dev.engines = d.engines ∧ t.dev.mem = d.mem)) ∧
  (∀ (s : State) (n : Nat) (v : Word),
     let d := s.dev
     let per := max 1 (d.reg (.evrTper n)).toNat
     (d.timerDue n = none → bit (d.reg .parLock) 0 = false →
       ∃ t u, exec (.timerArm n false v) s = .next t ∧ exec (.timerArm n true v) s = .next u ∧
         t.dev.reg (.evrTctl n) = v &&& 0xF8000003 ∧ (∀ q, q ≠ .evrTctl n → t.dev.reg q = d.reg q) ∧
         u.dev.reg (.evrTper n) = v ∧ (∀ q, q ≠ .evrTper n → u.dev.reg q = d.reg q) ∧
         Assoc.get (0, 0) t.dev.timers n = (d.now, 0) ∧ Assoc.get (0, 0) u.dev.timers n = (d.now, 0) ∧
         { t.dev with regs := d.regs, timers := d.timers } = d ∧ { u.dev with regs := d.regs, timers := d.timers } = d) ∧
     (∀ w k, d.timers.find? (fun x => decide (x.1 = n)) = some (n, w, k) → d.timerPaused n = false → d.phase ≠ .off →
       d.sourceOwner (0x100 + n) = none →
       (fld (d.reg (.evrTctl n)) 0 2 = 1 → w + per ≤ d.now →
         ∃ t, exec (.timerExpire n) s = .next t ∧ t.pending = s.pending ∧ fld (t.dev.reg (.evrTctl n)) 0 2 = 0 ∧
           t.dev.raises = d.raises ++ [(d.now + 18, 0x100 + n, d.reg (.evrRoute (0x100 + n)))] ∧
           (∀ q, q ≠ .evrTctl n → t.dev.reg q = d.reg q) ∧ t.dev.engines = d.engines) ∧
       (fld (d.reg (.evrTctl n)) 0 2 = 2 → w + (k + 1) * per ≤ d.now →
         ∃ t, exec (.timerExpire n) s = .next t ∧ t.pending = s.pending ∧ t.dev.regs = d.regs ∧
           Assoc.get (0, 0) t.dev.timers n = (w, k + 1) ∧
           t.dev.raises = d.raises ++ [(d.now + 18, 0x100 + n, d.reg (.evrRoute (0x100 + n)))] ∧ t.dev.engines = d.engines)))

/-! ### The point fabric -/

/-- R246, R248, R250: an update on its way arrives. In Paced it joins the share of its partition at its fixed period; in Free mode,
where the accept stage takes one more in this period and none of its field is pending, it joins the pending ring of its home router.
R238 to R240, R247, R249, R266: a Free slot applies the oldest pending engine update of the partition that the arbitration chooses. The named field, OWNER, the
timestamp and VALID are written and SEQ goes up by one, each subscriber of the point gets one notice, and no other point changes; the VALUE update of
a forced point is discarded instead and counted in PTR.FDROP.
R252, R255: the record of a notice is written into the subscriber's exchange RAM, and once it is written the subscriber's line
is raised. -/
def Obligations.UpdatesArriveApplyAndNotify : Prop :=
  (∀ (s : State) (i : Nat) (u : Update),
     let d := s.dev
     let r := d.home u.point
     d.inFlight[i]? = some u → d.pausedPart u.part = false →
     (∀ k, u.arrive = some k → k ≤ d.now →
       ∃ t, exec (.updateArrive i) s = .next t ∧ t.pending = s.pending ∧ t.dev.inFlight = d.inFlight.erase u ∧
         u ∈ (t.dev.router r).share ∧ (∀ v ∈ (d.router r).share, v ∈ (t.dev.router r).share) ∧
         (t.dev.router r).ring = (d.router r).ring ∧ (∀ q, q ≠ r → t.dev.router q = d.router q) ∧
         { t.dev with inFlight := d.inFlight, routers := d.routers } = d) ∧
     (u.arrive = none → u.posted < d.now → d.inOrder u = true → d.accepts r = true →
       (∀ v ∈ (d.router r).ring, ¬ (v.point = u.point ∧ v.aux = u.aux ∧ v.origin ≠ .force)) →
       ∃ t, exec (.updateArrive i) s = .next t ∧ t.pending = s.pending ∧ t.dev.inFlight = d.inFlight.eraseIdx i ∧
         (t.dev.router r).ring = (d.router r).ring ++ [{ u with posted := d.now }] ∧
         (t.dev.router r).share = (d.router r).share ∧ (∀ q, q ≠ r → t.dev.router q = d.router q) ∧
         { t.dev with inFlight := d.inFlight, routers := d.routers } = d)) ∧
  (∀ (s : State) (r p e : Nat) (u : Update) (turn : TrellisReq),
     let d := s.dev
     let q := d.point u.point
     (d.router r).share.find? (fun v => decide (v.part = p)) = none → d.freeUpdate r p = some u → d.freeTurn r = some turn →
     turn.part = some p → d.pausedPart p = false → d.forceWaits r p = false → d.decantOf u.part = none → u.origin = .engine e →
     d.uncorrectable (pointAddr u.point) 24 = false → d.marks = [] →
     ∃ t, exec (.updateApply r p) s = .next t ∧ t.pending = s.pending ∧
       (∀ k, k ≠ u.point → t.dev.point k = d.point k) ∧ t.dev.mem = d.mem ∧ t.dev.engines = d.engines ∧
       ((u.aux = true ∨ d.forced u.point = false) →
         (t.dev.point u.point).value = (if u.aux then q.value else u.value) ∧
         (t.dev.point u.point).aux = (if u.aux then u.value else q.aux) ∧
         (t.dev.point u.point).seq = q.seq + 1 ∧ (t.dev.point u.point).owner = BitVec.ofNat 4 u.part ∧
         (t.dev.point u.point).stamp = d.stamp ∧ (t.dev.point u.point).squal.getLsbD 0 = true ∧
         (t.dev.point u.point).squal.getLsbD 1 = false ∧ (t.dev.point u.point).squal.getLsbD 3 = q.squal.getLsbD 3 ∧
         (∀ b ∈ d.subs, b.point = u.point → ∃ n ∈ (t.dev.router (d.home u.point)).notices,
           n.engine = b.engine ∧ n.line = b.line ∧ n.dlv = b.dlv ∧ n.point = u.point) ∧
         ((∀ n < 16, bit (d.reg .trlOffx) (4 + n) = false) → t.dev.regs = d.regs)) ∧
       ((u.aux = false ∧ d.forced u.point = true) → t.dev.point u.point = q ∧
         (t.dev.reg (.ptrFdrop u.part)).toNat = min (2 ^ 32 - 1) ((d.reg (.ptrFdrop u.part)).toNat + 1))) ∧
  (∀ (s : State) (r : Nat) (n : Notice),
     let d := s.dev
     let l := (Assoc.get {} (d.eng n.engine).events n.line).at d.now
     d.importedBy n.engine n.point = false →
     (∀ k, d.canonical = true → d.marks = [] → n.dlv = some k →
       d.recordDue r = some n →
       let a := xramBase (n.engine / 16) + 16 * k
       d.offline a = false →
       ∃ t, exec (.deliveryRecordWrite r) s = .next t ∧ t.pending = s.pending ∧
         (∀ i b, n.record[i]? = some b → t.dev.byte (a + i) = b) ∧
         (∀ i, i < a ∨ a + n.record.length ≤ i → t.dev.byte i = d.byte i) ∧
         { n with dlv := none } ∈ (t.dev.router r).notices ∧ t.dev.engines = d.engines ∧ t.dev.regs = d.regs) ∧
     (d.lineDueAt r = some n →
       ∃ t, exec (.subscriberLineRaise r) s = .next t ∧ t.pending = s.pending ∧ n.dlv = none ∧ n.lineAt ≤ d.now ∧
         Assoc.get {} (t.dev.eng n.engine).events n.line = { l with count := l.count + 1 } ∧
         (t.dev.router r).notices = (d.router r).notices.erase n ∧
         (∀ k, k ≠ n.engine → t.dev.eng k = d.eng k) ∧ t.dev.mem = d.mem ∧ t.dev.regs = d.regs))

/-- R242: a read that has taken its point completes with the field in pt.r and the quality in pt.q, in trigger order.
R253, R254: a new subscription within quota and limits completes with status 0 and is held; PTR.SUBUSE counts it. Its index in
the table is a free value (log entry 5). -/
def Obligations.PointReadsAndSubscriptionsComplete : Prop :=
  (∀ (s : State) (e : Nat) (r : PtRun) (v q : Word),
     let d := s.dev
     let x := d.eng e
     x.pt.find? (fun k => decide (k.sub = false)) = some r → r.value = some (v, q) → r.due ≤ d.nowStep e → r.ctx = x.ctx →
     d.importedBy e (d.placePoint e (fld r.idx 0 25)) = false →
     ∃ t, exec (.ptReadComplete e) s = .next t ∧ OnlyEngine s t e ∧ (t.dev.eng e).pt = x.pt.erase r ∧
       (t.dev.eng e).result .ptR = { value := v, readable := true } ∧
       (t.dev.eng e).result .ptQ = { value := q, readable := true } ∧
       ∀ p, p ≠ .ptR → p ≠ .ptQ → (t.dev.eng e).result p = x.result p) ∧
  (∀ (s : State) (e p h o : Nat) (r : PtRun),
     let d := s.dev
     let x := d.eng e
     let pt := d.placePoint e (fld r.idx 0 25)
     let line := fld r.datum 0 8
     x.pt.find? (fun k => decide (k.sub = true)) = some r → r.value.isSome = true → r.due ≤ d.nowStep e → r.ctx = x.ctx →
     fld r.datum 21 10 = 0 → line ≤ 191 → bit r.datum 31 = false → d.pointRange pt = some (h, o) → d.engPart e = some p →
     (∀ k ∈ d.subs, ¬ (k.point = pt ∧ k.engine = e ∧ k.line = line)) →
     fld (d.reg (.ptrSubuse p h)) 0 21 < fld (d.reg (.ptrSubq p h)) 0 21 →
     (d.subs.filter (fun k => decide (k.point = pt))).length < 64 →
     ∃ t i, exec (.ptSubComplete e) s = .next t ∧ t.pending = s.pending ∧
       t.dev.subs = d.subs ++ [{ point := pt, engine := e, line := line,
                                 dlv := if bit r.datum 20 then some (fld r.datum 8 12) else none, index := i }] ∧
       (t.dev.eng e).result .ptR = { value := 0, readable := true } ∧
       fld (t.dev.reg (.ptrSubuse p h)) 0 21 = fld (d.reg (.ptrSubuse p h)) 0 21 + 1 ∧
       (∀ q, q ≠ .ptrSubuse p h → t.dev.reg q = d.reg q) ∧ (∀ k, k ≠ e → t.dev.eng k = d.eng k) ∧ t.dev.mem = d.mem)

/-- R265, R266: a force of an own point of a partition outside Paced and Decant waits for a Free slot and clears ERR; a command
that is not allowed, and a force while 64 points are forced or have a force that waits, sets ERR and does nothing else; that those with a force that
waits count is the model's choice (log entry 78). Applied, it writes VALUE and sets FORCED; released, FORCED is cleared, VALUE stays, and a force of
the point that still waits is gone. -/
def Obligations.ForcesApplyAndRelease : Prop :=
  ∀ (s : State) (p : Nat),
    let d := s.dev
    let pt := fld (d.reg (.ptrFpnt p)) 0 25
    let points := ((d.part p).forces.map (·.1) ++ (d.part p).forceQueue.map (·.1)).dedup
    (64 ≤ points.length →
      ∃ t, exec (.force p) s = .next t ∧ OnlyRegs s t [.ptrFstat p] ∧ bit (t.dev.reg (.ptrFstat p)) 8 = true) ∧
    (d.forceAllowed p pt = true → points.length < 64 →
      ∃ t, exec (.force p) s = .next t ∧ t.pending = s.pending ∧
        (t.dev.part p).forceQueue = (d.part p).forceQueue ++ [(pt, d.reg (.ptrFval p))] ∧
        bit (t.dev.reg (.ptrFstat p)) 8 = false ∧ (∀ q, q ≠ .ptrFstat p → t.dev.reg q = d.reg q) ∧
        t.dev.points = d.points ∧ t.dev.engines = d.engines ∧ t.dev.mem = d.mem) ∧
    (d.forceAllowed p pt = false →
      ∃ t u, exec (.force p) s = .next t ∧ exec (.forceRelease p) s = .next u ∧ OnlyRegs s t [.ptrFstat p] ∧
        OnlyRegs s u [.ptrFstat p] ∧ bit (t.dev.reg (.ptrFstat p)) 8 = true ∧ bit (u.dev.reg (.ptrFstat p)) 8 = true) ∧
    (∀ k v rest turn, (d.part p).forceQueue = (k, v) :: rest → d.released p = true → d.pausedPart p = false →
      d.freeTurn (d.home k) = some turn → turn.part = some p → d.uncorrectable (pointAddr k) 24 = false →
      ∃ t, exec (.forceApply p) s = .next t ∧ t.pending = s.pending ∧ (t.dev.point k).value = v ∧
        (t.dev.point k).squal.getLsbD 3 = true ∧ (t.dev.point k).seq = (d.point k).seq + 1 ∧
        (t.dev.part p).forceQueue = rest ∧ (k, v) ∈ (t.dev.part p).forces ∧
        (∀ j, j ≠ k → t.dev.point j = d.point j) ∧ t.dev.mem = d.mem) ∧
    (∀ v, d.forceAllowed p pt = true → (pt, v) ∈ (d.part p).forces →
      ∃ t, exec (.forceRelease p) s = .next t ∧ t.pending = s.pending ∧ (t.dev.point pt).squal.getLsbD 3 = false ∧
        (t.dev.point pt).value = (d.point pt).value ∧ (t.dev.point pt).seq = (d.point pt).seq ∧
        (∀ w, (pt, w) ∉ (t.dev.part p).forces) ∧ (∀ w, (pt, w) ∉ (t.dev.part p).forceQueue) ∧ (∀ j, j ≠ pt → t.dev.point j = d.point j) ∧ t.dev.mem = d.mem)

/-! ### Field lanes -/

/-- R413, R417, R429: a frame on a lane that is up and outside a Decant. A bad FCS is counted in BADFCS, and a bad Kryene header, or one that does not
fit the descriptor of its index, in BADHDR, and nothing else happens. A cyclic frame of a Paced partition that passes every check, the first of its index, is counted in RXOK
and waits for its take step with its timestamp.
R19, R20, R260: at the take step of a Paced partition the waiting frame is scattered: one update per map entry, in order, with
the bytes of its slot, the frame's timestamp and successive arrivals. Where no frame waits, it is late: counted, and each mapped
point gains STALE and keeps its value. -/
def Obligations.ReceivedFrameIsCheckedAndTaken : Prop :=
  (∀ (s : State) (n p : Nat) (bytes : List Byte),
     let d := s.dev
     let k := kryeneOf bytes
     let desc := d.descriptor n k.frame
     let up := fun (t : State) (c : Nat) => (t.dev.reg (.fldCnt n c)).toNat = min (2 ^ 32 - 1) ((d.reg (.fldCnt n c)).toNat + 1)
     d.laneUp n = true → d.lengthOk n bytes.length = true → d.laneOwner n = some p → d.modeNow p ≠ .decant →
     (∃ t, exec (.frameReceive n bytes false) s = .next t ∧ OnlyRegs s t [.fldCnt n cntBADFCS] ∧ up t cntBADFCS) ∧
     (isKryene bytes = true → (k.ver ≠ 1 ∨ k.type = 0 ∨ 4 < k.type ∨ k.reserved = true) →
       ∃ t, exec (.frameReceive n bytes true) s = .next t ∧ OnlyRegs s t [.fldCnt n cntBADHDR] ∧ up t cntBADHDR) ∧
     (isKryene bytes = true → k.ver = 1 → k.type = 1 → k.reserved = false → d.heldNow p = false → bit (d.reg (.fldLstat n)) 1 = true →
       (desc.inbound = false ∨ d.pdlenOk n k.pdlen = false ∨ k.station ≠ desc.station.toNat ∨ k.pdlen ≠ desc.pdin ∨ k.data.length < k.pdlen) →
       ∃ t, exec (.frameReceive n bytes true) s = .next t ∧ OnlyRegs s t [.fldCnt n cntBADHDR] ∧ up t cntBADHDR) ∧
     (isKryene bytes = true → k.ver = 1 → k.type = 1 → k.reserved = false → d.heldNow p = false → bit (d.reg (.fldLstat n)) 1 = true →
       desc.inbound = true → d.pdlenOk n k.pdlen = true → k.station = desc.station.toNat → k.pdlen = desc.pdin → k.pdlen ≤ k.data.length →
       d.inPaced p = true → (d.lane n).lastCycle.find? (fun x => decide (x.1 = k.frame)) = none →
       (∀ x ∈ (d.lane n).lateAt, x.1 ≠ k.frame) → (d.lane n).waiting.has k.frame = false → k.devflt = false →
       (desc.idtag = 0 ∨ k.idtag = desc.idtag) →
       ∃ t, exec (.frameReceive n bytes true) s = .next t ∧ t.pending = s.pending ∧ up t cntRXOK ∧
         (t.dev.lane n).waiting.has k.frame = true ∧
         Assoc.get { bytes := [], stamp := 0 } (t.dev.lane n).waiting k.frame = { bytes := bytes, stamp := d.rxStamp n bytes.length } ∧
         Assoc.get 0 (t.dev.lane n).lastCycle k.frame = k.cycle ∧
         (∀ q, q ≠ .fldCnt n cntRXOK → t.dev.reg q = d.reg q) ∧ (∀ j, j ≠ n → t.dev.lane j = d.lane j) ∧
         t.dev.points = d.points ∧ t.dev.inFlight = d.inFlight ∧ t.dev.mem = d.mem ∧ t.dev.engines = d.engines)) ∧
  (∀ (s : State) (n f p : Nat),
     let d := s.dev
     d.laneOwner n = some p → (d.descriptor n f).inbound = true → d.heldNow p = false → d.inPaced p = true → d.decantOf p = none →
     d.atOffset p (d.descriptor n f).take = true → (∀ x ∈ (d.lane n).lastTake, x ≠ (f, d.now)) →
     (∀ w, (d.lane n).waiting.find? (fun x => decide (x.1 = f)) = some (f, w) →
       ∃ t us, exec (.take n f) s = .next t ∧ t.pending = s.pending ∧ t.dev.inFlight = d.inFlight ++ us ∧
         us.length = (d.entriesIn n f).length ∧
         (∀ i m, (d.entriesIn n f)[i]? = some m → ∃ u, us[i]? = some u ∧ u.point = m.point ∧ u.aux = m.aux ∧
           u.value = slotValue m (kryeneOf w.bytes).data ∧ u.part = p ∧ u.arrive = some (d.now + i) ∧
           u.origin = .scatter n f i w.stamp (d.lane n).rxFirst) ∧
         (t.dev.lane n).waiting.has f = false ∧ t.dev.points = d.points ∧ t.dev.mem = d.mem ∧ t.dev.engines = d.engines) ∧
     ((d.lane n).waiting.find? (fun x => decide (x.1 = f)) = none →
       ∃ t, exec (.take n f) s = .next t ∧ t.pending = s.pending ∧ t.dev.inFlight = d.inFlight ∧
         (∀ m ∈ d.entriesIn n f, (t.dev.point m.point).squal.getLsbD 1 = true ∧
           (t.dev.point m.point).value = (d.point m.point).value) ∧
         (∀ k, (∀ m ∈ d.entriesIn n f, m.point ≠ k) → t.dev.point k = d.point k) ∧
         (t.dev.reg (.fldCnt n cntLATE)).toNat = min (2 ^ 32 - 1) ((d.reg (.fldCnt n cntLATE)).toNat + 1) ∧
         t.dev.mem = d.mem ∧ t.dev.engines = d.engines))

/-- R413, R414, R420, R421: at its send step an outbound frame of a lane that is up goes out. Read back as Kryene, it names its
index, station, length and transmit count, with FIRST on the first frame of the index alone; it is counted in TXOK and the count of
its index goes up by one. The lane appends the FCS.
R410, R425: the slot at HEAD of the transmit ring of a lane that is up goes out with its FCS, the module writes the time of sending into its
header, HEAD advances, and TXOK counts the frame. The ring lies in memory where nothing meets the lane's accesses. A slot of a length that the lane
cannot carry is passed over: HEAD advances and nothing goes out (the model's choice, log entry 95). -/
def Obligations.FramesAreSent : Prop :=
  (∀ (s : State) (n f p : Nat),
     let d := s.dev
     let desc := d.descriptor n f
     let c := Assoc.get 0 (d.lane n).txCount f
     d.laneOwner n = some p → desc.outbound = true → d.sends p = true → d.modeNow p ≠ .decant → d.laneUp n = true →
     d.atOffset p desc.send = true → (∀ x ∈ (d.lane n).lastSend, x ≠ (f, d.now)) →
     f < 256 → d.pdlenOk n desc.pdout = true → desc.dmac.length = 6 → bit (d.reg (.fldLctl n)) 4 = false →
     ∃ t, exec (.send n f) s = .next t ∧ t.pending = s.pending ∧
       let b := (t.dev.lane n).sent
       let k := kryeneOf b
       (∃ f0 : List Byte, b = f0 ++ toBytes 4 (crc32 f0).toNat ∧ 60 ≤ f0.length) ∧ b.take 6 = desc.dmac ∧ isKryene b = true ∧ k.ver = 1 ∧ k.type = 1 ∧ k.frame = f ∧
       k.station = desc.station.toNat ∧ k.pdlen = desc.pdout ∧ k.cycle = c ∧ k.idtag = desc.idtag ∧
       k.first = !(d.lane n).txSent.contains f ∧ k.devflt = false ∧ k.reserved = false ∧
       Assoc.get 0 (t.dev.lane n).txCount f = c + 1 ∧ (t.dev.lane n).txSent.contains f = true ∧
       (t.dev.reg (.fldCnt n cntTXOK)).toNat = min (2 ^ 32 - 1) ((d.reg (.fldCnt n cntTXOK)).toNat + 1) ∧
       (∀ j, j ≠ n → t.dev.lane j = d.lane j) ∧ t.dev.points = d.points ∧ t.dev.mem = d.mem) ∧
  (∀ (s : State) (n p k : Nat),
     let d := s.dev
     let b := d.reg (.fldTxb n)
     let head := fld (d.reg (.fldTxh n)) 0 16 % k
     let a := d.slotAddr n b head
     let len := fld (d.loadWord a) 0 14
     d.canonical = true → d.marks = [] → d.laneOwner n = some p → ringCount b = some k → d.heldNow p = false → d.decantOf p = none → d.modeNow p ≠ .decant →
     d.laneUp n = true → head ≠ fld (d.reg (.fldTxh n)) 16 16 % k → (d.lane n).txStopped = false →
     d.slotStatus p a (16 + len) false = 0 → d.partStatus p a 16 true = 0 → d.wouldDelay n p len = false → d.ejectStopped = false →
     (∀ i b, i ≤ 16 → regionOf (a + i) ≠ some (.device b)) → d.accesses = [] → (∀ w b, inMailbox (8 * w) = false → d.mayMeet w true b = false) →
     (d.lengthOk n len = false → ∃ t, exec (.plainTransmit n) s = .next t ∧ t.pending = s.pending ∧ (t.dev.lane n).sent = (d.lane n).sent ∧
       fld (t.dev.reg (.fldTxh n)) 0 16 = (head + 1) % k ∧ t.dev.reg (.fldCnt n cntTXOK) = d.reg (.fldCnt n cntTXOK) ∧
       ∀ i, t.dev.byte i = d.byte i) ∧
     (d.lengthOk n len = true → ∃ t, exec (.plainTransmit n) s = .next t ∧ t.pending = s.pending ∧
       (t.dev.lane n).sent = d.bytes (a + 16) len ++ toBytes 4 (crc32 (d.bytes (a + 16) len)).toNat ∧
       fld (t.dev.reg (.fldTxh n)) 0 16 = (head + 1) % k ∧
       fld (t.dev.reg (.fldTxh n)) 16 16 = fld (d.reg (.fldTxh n)) 16 16 ∧
       t.dev.loadWord (a + 4) = d.stamp.setWidth 32 ∧ t.dev.loadWord (a + 8) = word (d.stamp.toNat / 2 ^ 32) ∧
       (∀ i, i < a + 4 ∨ a + 12 ≤ i → t.dev.byte i = d.byte i) ∧
       (t.dev.reg (.fldCnt n cntTXOK)).toNat = min (2 ^ 32 - 1) ((d.reg (.fldCnt n cntTXOK)).toNat + 1)))

/-- R417, R422, R453: an answer of a station of the lane fills the station's identity entry with the record and what its checks say, but
in Decant it is counted as MUTED alone; a station that has not answered in time is ABSENT. No other entry changes. What the record bytes hold in an
entry that is ABSENT or of bad format is the model's choice (log entry 87).
R403, R428, R479: an enabled lane whose domain is on shows LINK in LSTAT when its link comes up and clears it when the link
goes down; after its re-entry a lane sends FIRST on every index again. -/
def Obligations.StationsAndLinksOfLanes : Prop :=
  (∀ (s : State) (n i : Nat) (bytes : List Byte),
     let d := s.dev
     let k := kryeneOf bytes
     let id := 64 + 32 * n + i
     let rec_ := k.data.take k.pdlen
     (d.laneUp n = true → d.laneMuted n = true →
       ∃ t, exec (.identResponse n bytes) s = .next t ∧ OnlyRegs s t [.fldCnt n cntMUTED] ∧
         (t.dev.reg (.fldCnt n cntMUTED)).toNat = min (2 ^ 32 - 1) ((d.reg (.fldCnt n cntMUTED)).toNat + 1)) ∧
     (d.laneUp n = true → d.laneMuted n = false → isKryene bytes = true → k.ver = 1 → k.type = 2 → k.reserved = false → k.pdlen ≠ 0 →
       (d.stations n).findIdx? (fun x => decide (x = k.station)) = some i →
       ∃ t, exec (.identResponse n bytes) s = .next t ∧ t.pending = s.pending ∧
         Assoc.get {} t.dev.ids id = { state := identityState rec_, record := rec_.take (if identityState rec_ = .badFormat then min 248 rec_.length else 8 * at_ rec_ 3) } ∧
         (∀ q, q ≠ id → Assoc.get {} t.dev.ids q = Assoc.get {} d.ids q) ∧ i ∉ (t.dev.lane n).identPending ∧
         { t.dev with ids := d.ids, lanes := d.lanes } = d) ∧
     (i ∈ (d.lane n).identPending →
       ∃ t, exec (.identTimeout n i) s = .next t ∧ t.pending = s.pending ∧
         Assoc.get {} t.dev.ids id = { state := .absent, record := [] } ∧
         (∀ q, q ≠ id → Assoc.get {} t.dev.ids q = Assoc.get {} d.ids q) ∧ i ∉ (t.dev.lane n).identPending ∧
         { t.dev with ids := d.ids, lanes := d.lanes } = d)) ∧
  (∀ (s : State) (n : Nat),
     let d := s.dev
     n < d.grade.fieldLanes →
     (bit (d.reg (.fldLctl n)) 0 = true → Assoc.get .off d.domains (72 + n / 8) = .on → (d.lane n).identDue = false →
       ∃ t, exec (.laneLinkUp n) s = .next t ∧ OnlyRegs s t [.fldLstat n] ∧ bit (t.dev.reg (.fldLstat n)) 0 = true ∧
         bit (t.dev.reg (.fldLstat n)) 4 = (bit (d.reg (.fldLctl n)) 1 && bit (d.reg (.fldLctl n)) 2) ∧
         bit (t.dev.reg (.fldLstat n)) 1 = bit (d.reg (.fldLstat n)) 1) ∧
     (∃ t, exec (.laneLinkDown n) s = .next t ∧ OnlyRegs s t [.fldLstat n] ∧ bit (t.dev.reg (.fldLstat n)) 0 = false ∧
       bit (t.dev.reg (.fldLstat n)) 1 = bit (d.reg (.fldLstat n)) 1) ∧
     ((d.lane n).reentry = true →
       ∃ t, exec (.laneReentry n) s = .next t ∧ t.pending = s.pending ∧ (t.dev.lane n).reentry = false ∧
         (t.dev.lane n).rxFirst = true ∧ (t.dev.lane n).txSent = [] ∧ (∀ j, j ≠ n → t.dev.lane j = d.lane j) ∧
         t.dev.points = d.points ∧ t.dev.mem = d.mem ∧ t.dev.engines = d.engines))

/-! ### Time and pacing -/

/-- R310, R311, R328: with no command waiting a step passes one pace period: PCNT steps on by one and TICK by the stretch factor, which
only the close of a vintage at the period's end may change first, with its grant window (R363); while a reset of Module or Cold reach is
asserted, or before power, nothing happens. That an idle step is one pace period is the model's choice (log entry 6). -/
def Obligations.IdleStepPassesPeriod : Prop :=
  ∀ (s : State), s.pending = [] →
    ∃ t, step s = .next t ∧ t.pending = [] ∧ (s.dev.paceRuns = false → t = s) ∧
      (s.dev.paceRuns = true → t.dev.pace.pcnt = s.dev.pace.pcnt + 1) ∧
      (s.dev.paceRuns = true → (∀ p, (s.dev.part p).recorder.open_ = none) →
        t.dev.pace = { s.dev.pace with
          pcnt := s.dev.pace.pcnt + 1, tick := (s.dev.pace.tick + s.dev.pace.s) % 2 ^ 64, raw := s.dev.pace.raw + s.dev.pace.s })

/-- R322, R329, R338, R339: at a window boundary every token count returns to 0, the last value written to TIM.ADJ takes effect, and the
stretch factor follows the conditions: up to a factor first detected in an earlier period, whether the condition still stands or not, down
one level after 781,250 ticks without a condition of that level. That a condition counts once it has gone again is inferred (log entry 38); that the
command does nothing before the boundary is the model's choice (log entry 1).
R320, R321, R326: the conditions of PACE_LOSS show in PWR.PACE at once and leave the stretch factor until a window boundary;
losing REFCLK sets HOLDOVER and REFLOST of TIM.STAT, and a new lock clears HOLDOVER alone. -/
def Obligations.StretchFollowsConditions : Prop :=
  (∀ (s : State),
     let d := s.dev
     let x := d.pace
     let due := fun (seen : Option Nat) => ∃ k, seen = some k ∧ k < x.pcnt
     (d.now < x.windowNext * 64 → exec .grantWindow s = .next s) ∧
     (x.windowNext * 64 ≤ d.now →
       ∃ t, exec .grantWindow s = .next t ∧ t.pending = s.pending ∧ (∀ e, t.dev.eng e = { d.eng e with tokens := 0 }) ∧
         (∀ c, t.dev.cluster c = { d.cluster c with bmvTokens := 0 }) ∧
         t.dev.pace.windowNext = d.now / 64 + 1 ∧ t.dev.pace.adj = x.adjNext.getLast?.getD x.adj ∧ t.dev.pace.adjNext = [] ∧
         t.dev.pace.pcnt = x.pcnt ∧ t.dev.pace.tick = x.tick ∧ t.dev.mem = d.mem ∧ t.dev.points = d.points ∧
         (due x.detected4 → x.s < 4 → t.dev.pace.s = 4) ∧
         (¬ due x.detected4 → due x.detected2 → x.s < 2 → t.dev.pace.s = 2) ∧
         (¬ due x.detected4 → (¬ due x.detected2 ∨ 2 ≤ x.s) → x.s ≤ x.wanted → t.dev.pace.s = x.s) ∧
         (x.s = 4 → t.dev.pace.s = if x.wanted < 4 ∧ x.lastCond4 + 781250 ≤ x.raw then 2 else 4) ∧
         (¬ due x.detected4 → x.s = 2 → x.wanted = 1 → t.dev.pace.s = if x.lastCond2 + 781250 ≤ x.raw then 1 else 2) ∧
         (x.s = 1 → 1 < t.dev.pace.s → bit (t.dev.reg .pwrPace) 8 = true))) ∧
  (∀ (s : State) (supply temp margin : BitVec 2),
     let d := s.dev
     (∃ t, exec (.paceLossDetect supply temp margin) s = .next t ∧ t.pending = s.pending ∧
       { t.dev with pace := d.pace, regs := d.regs } = d ∧ (∀ r, r ≠ .pwrPace → t.dev.reg r = d.reg r) ∧
       t.dev.pace.supply = supply ∧ t.dev.pace.temp = temp ∧ t.dev.pace.margin = margin ∧ t.dev.pace.refLost = d.pace.refLost ∧
       t.dev.pace.s = d.pace.s ∧ t.dev.pace.tick = d.pace.tick ∧
       bit (t.dev.reg .pwrPace) 4 = decide (supply ≠ 0) ∧ bit (t.dev.reg .pwrPace) 5 = decide (temp ≠ 0) ∧
       bit (t.dev.reg .pwrPace) 6 = decide (margin ≠ 0) ∧ bit (t.dev.reg .pwrPace) 7 = d.pace.refLost ∧
       bit (t.dev.reg .pwrPace) 8 = bit (d.reg .pwrPace) 8) ∧
     (∃ t, exec .refclkLoss s = .next t ∧ OnlyRegs { s with dev := { d with pace := t.dev.pace } } t [.pwrPace, .timStat] ∧
       t.dev.pace.refLost = true ∧ t.dev.pace.s = d.pace.s ∧ bit (t.dev.reg .timStat) 0 = true ∧ bit (t.dev.reg .timStat) 1 = true ∧
       bit (t.dev.reg .pwrPace) 7 = true) ∧
     (∃ t, exec .refclkRelock s = .next t ∧ OnlyRegs { s with dev := { d with pace := t.dev.pace } } t [.pwrPace, .timStat] ∧
       t.dev.pace.refLost = false ∧ t.dev.pace.s = d.pace.s ∧ bit (t.dev.reg .timStat) 0 = false ∧
       bit (t.dev.reg .timStat) 1 = bit (d.reg .timStat) 1 ∧ bit (t.dev.reg .pwrPace) 7 = false))

/-- R331, R336: TIM.CMD while a partition is in Paced or Decant only sets REFUSED; otherwise a set puts TICK at the ceiling of the
time in ticks, and an offset moves it by the signed value in ticks, rounded toward zero. R329: TIM.ADJ clamps to 200 ppm and waits
for the window boundary.
R332: a read of TIM.NSL answers bits [31:0] of NS = floor(TICK × 32 ÷ 25) and latches bits [63:32] for the reading engine; a read of
TIM.NSH answers what was latched, once, and the current bits where nothing is. The engine's partition is outside a Decant.
R333: a cycle-start tick of a released partition outside a Decant and a pause is taken where N pace periods have passed since the
last start taken or the ticks were computed afresh, and is skipped and counted in TIM.CSKIP otherwise; the next tick lies N on. -/
def Obligations.TimeIsSetAndRead : Prop :=
  (∀ (s : State) (w : Word),
     let d := s.dev
     let v : BitVec 64 := d.reg .timSeth ++ d.reg .timSetl
     (d.anyPaced = true →
       ∃ t u, exec .timSet s = .next t ∧ exec .timOffset s = .next u ∧ OnlyRegs s t [.timStat] ∧ OnlyRegs s u [.timStat] ∧
         bit (t.dev.reg .timStat) 2 = true ∧ bit (u.dev.reg .timStat) 2 = true) ∧
     (d.anyPaced = false →
       ∃ t u, exec .timSet s = .next t ∧ exec .timOffset s = .next u ∧ t.pending = s.pending ∧ u.pending = s.pending ∧
         t.dev.pace = { d.pace with tick := (v.toNat * 25 + 31) / 32 } ∧
         u.dev.pace = { d.pace with tick := u.dev.pace.tick } ∧
         (u.dev.pace.tick : Int) = (d.pace.tick + (v.toInt * 25).tdiv 32) % 2 ^ 64 ∧
         bit (t.dev.reg .timStat) 2 = false ∧ bit (u.dev.reg .timStat) 2 = false ∧
         t.dev.mem = d.mem ∧ u.dev.mem = d.mem ∧ t.dev.engines = d.engines ∧ u.dev.engines = d.engines ∧
         t.dev.points = d.points ∧ u.dev.points = d.points) ∧
     (∃ t, exec (.timAdj w) s = .next t ∧ t.pending = s.pending ∧ { t.dev with pace := d.pace, regs := d.regs } = d ∧
       (∀ r, r ≠ .timAdj → r ≠ .timStat → t.dev.reg r = d.reg r) ∧
       (t.dev.reg .timAdj).toInt = max (-0xC80000) (min 0xC80000 w.toInt) ∧
       bit (t.dev.reg .timStat) 3 = decide (w.toInt < -0xC80000 ∨ 0xC80000 < w.toInt) ∧
       t.dev.pace = { d.pace with adjNext := d.pace.adjNext ++ [t.dev.reg .timAdj] })) ∧
  (∀ (s : State) (e : Nat),
     let d := s.dev
     let x := d.eng e
     let ns := d.pace.tick * 32 / 25 % 2 ^ 64
     (∀ p, d.engPart e = some p → d.decantOf p = none) →
     (∃ t, exec (.timNslRead e) s = .next t ∧ t.pending = s.pending ∧ t.dev.answer = BitVec.ofNat 32 ns ∧
       t.dev.eng e = { x with nsh := some (BitVec.ofNat 32 (ns / 2 ^ 32)) } ∧ (∀ k, k ≠ e → t.dev.eng k = d.eng k) ∧
       t.dev.pace = d.pace ∧ t.dev.mem = d.mem ∧ t.dev.points = d.points) ∧
     (∃ t, exec (.timNshRead e) s = .next t ∧ t.pending = s.pending ∧
       t.dev.answer = x.nsh.getD (BitVec.ofNat 32 (ns / 2 ^ 32)) ∧ t.dev.eng e = { x with nsh := none } ∧
       (∀ k, k ≠ e → t.dev.eng k = d.eng k) ∧ t.dev.pace = d.pace ∧ t.dev.mem = d.mem ∧ t.dev.points = d.points)) ∧
  (∀ (s : State) (p n : Nat),
     let d := s.dev
     let len := fld (d.reg (.timCycle p)) 0 24
     len ≠ 0 → d.released p = true → bit (d.reg (.celStat p)) 3 = false → d.decantOf p = none →
     (d.part p).nextTick = some n → n ≤ d.pace.tick →
     ∃ t, exec (.cycleStart p) s = .next t ∧ t.pending = s.pending ∧ (t.dev.part p).nextTick = some (n + len) ∧
       t.dev.pace = d.pace ∧ t.dev.mem = d.mem ∧ t.dev.engines = d.engines ∧ t.dev.points = d.points ∧
       (((d.part p).cycleFree = true ∨ ∀ c, (d.part p).cycleAt = some c → len ≤ d.now - c) →
         (t.dev.part p).cycleAt = some d.now ∧ (t.dev.part p).cycleFree = false ∧ t.dev.reg (.timCskip p) = d.reg (.timCskip p)) ∧
       (∀ c, (d.part p).cycleFree = false → (d.part p).cycleAt = some c → d.now - c < len →
         (t.dev.part p).cycleAt = some c ∧ (∀ q, q ≠ .timCskip p → t.dev.reg q = d.reg q) ∧
         (t.dev.reg (.timCskip p)).toNat = min (2 ^ 32 - 1) ((d.reg (.timCskip p)).toNat + 1)))

/-! ### Modes, Decant and Cocoon -/

/-- R24, R32, R33, R160, R310, R488: at an admission epoch a held partition that nothing holds any longer is released, the other partitions
being held. Its mode is that of PAR.STARTp, Free with REASON 4 in place of Paced while PACE_LOSS is active, Recovery after a reset that has
escalated; its engines start at that mode's entry in ring 0 at L0, and its lanes come alive. That the command does nothing before the epoch, and what
holds a partition on its way there, are the model's choices (log entries 1, 41, 68, 85). Where a vintage may open at this epoch, the grant window is
the one that runs. -/
def Obligations.EpochReleasesPartition : Prop :=
  ∀ (s : State) (p : Nat),
    let d := s.dev
    let x := d.part p
    let m : Mode := if x.escalated ∧ x.widest ≤ 3 then .recovery else
      match fld (d.reg (.parStart p)) 0 3 with | 2 => if 1 < d.pace.s then .free else .paced | 4 => .recovery | _ => .free
    (d.now < d.pace.epochNext * 65536 → exec .admissionEpoch s = .next s) ∧
    (d.pace.epochNext * 65536 ≤ d.now → d.returning = [] → d.ejectStopped = false → d.mayRelease p = true → x.pending = none →
      x.recorder.open_ = none → bit (d.reg (.celStat p)) 3 = false →
      (d.now < d.pace.windowNext * 64 ∨ bit (d.reg (.celCtl p)) 0 = false) →
      (∀ q, q < 16 → q ≠ p → d.released q = false ∧ d.mayRelease q = false) →
      ∃ t, exec .admissionEpoch s = .next t ∧ t.pending = s.pending ∧ (t.dev.part p).mode = m ∧
        (t.dev.part p).reason = (if (x.escalated = false ∨ 3 < x.widest) ∧ fld (d.reg (.parStart p)) 0 3 = 2 ∧ 1 < d.pace.s then 4
          else x.reason) ∧
        (∀ e, e ∈ d.partEngines p → (t.dev.eng e).run = .running ∧ (t.dev.eng e).pc = d.entry p m ∧
          (t.dev.eng e).st = { grd := true } ∧ (t.dev.eng e).step = 0 ∧ (t.dev.eng e).lines = []) ∧
        (∀ e, e ∉ d.partEngines p → t.dev.eng e = d.eng e) ∧
        (∀ n, n ∈ d.partLanes p → bit (t.dev.reg (.fldLstat n)) 1 = true) ∧
        t.dev.pace = { d.pace with epochNext := d.now / 65536 + 1 } ∧ t.dev.mem = d.mem ∧ (m ≠ .recovery → t.dev.points = d.points))

/-- R28, R34, R35: a request for a transition that R28 allows stands as pending until an epoch, in place of one before it; a request of
a held partition, and one R28 does not allow, leaves its reason; REQ values 0, 6 and 7 change nothing. That Cocoon asked of a held partition is HELD
(log entry 29) and that a partition which is not valid takes no request (log entry 1) are the model's choices. -/
def Obligations.ModeRequestPendsOrIsRefused : Prop :=
  ∀ (s : State) (p : Nat) (req : BitVec 3),
    let d := s.dev
    let x := d.part p
    let now := x.changing.getD x.mode
    let wanted := [(1#3, Mode.free), (2#3, .paced), (3#3, .decant), (4#3, .recovery)]
    let allowed := [(Mode.free, Mode.paced), (.paced, .free), (.free, .recovery), (.paced, .recovery), (.recovery, .free),
      (.recovery, .paced), (.recovery, .decant)]
    ((d.valid p = false ∨ req = 0 ∨ req = 6 ∨ req = 7) → exec (.modeRequest p req) s = .next s) ∧
    (d.valid p = true → req ∈ [1#3, 2#3, 3#3, 4#3, 5#3] → (d.released p = false ∨ d.partCovered p = true) →
      ∃ t, exec (.modeRequest p req) s = .next t ∧ OnlyPart s t p ∧ t.dev.part p = { x with reason := 0xA }) ∧
    (d.valid p = true → d.released p = true → d.partCovered p = false →
      (∀ m, (req, m) ∈ wanted → (now, m) ∈ allowed →
        ∃ t, exec (.modeRequest p req) s = .next t ∧ OnlyPart s t p ∧
          t.dev.part p = { x with pending := some m, reason := if x.pending.isSome then 9 else x.reason }) ∧
      (∀ m, (req, m) ∈ wanted → (now, m) ∉ allowed → (now, m) ≠ (.decant, .recovery) →
        ∃ t, exec (.modeRequest p req) s = .next t ∧ OnlyPart s t p ∧ t.dev.part p = { x with reason := 1 }) ∧
      (req = 5 → ∃ t, exec (.modeRequest p req) s = .next t ∧ OnlyPart s t p ∧ t.dev.part p = { x with reason := 1 }))

/-- R379, R382, R385: the checkpoint of a Decant, with the memories that it and those before it hold, is loaded into the partition and into no
other engine, partition or byte of memory. At a request the Decant ends: CEL.DSTAT and CEL.DVS report the end, or the divergence met and its
VSTEP, and the partition is in Recovery. -/
def Obligations.DecantLoadsAndEnds : Prop :=
  ∀ (s : State) (p : Nat) (r : DecantRun),
    let d := s.dev
    let x := d.part p
    let v := match r.found with
      | some _ => r.foundAt
      | none => match r.startAt with | some k => r.base + (d.now - k) | none => r.base
    d.canonical = true → x.mode = .decant → x.decant = some r →
    (∀ k m, r.loaded = false → x.changing = none → r.checkpoint = some (k, m) →
      ∃ t, exec (.decantLoadComplete p) s = .next t ∧ t.pending = s.pending ∧ (t.dev.part p).mode = .decant ∧
        (t.dev.part p).decant = some { r with loaded := true } ∧ t.dev.reg (.ptrFdrop p) = k.fdrop ∧
        (t.dev.part p).forces = k.forces.map (fun f => (d.mapPoint r.source p f.1, f.2)) ∧
        (∀ q, q ≠ p → t.dev.part q = d.part q) ∧
        (∀ e, d.engPart e ≠ some p → (∀ j ∈ k.engines, d.mapEngine r.source p j.1 ≠ e) → t.dev.eng e = d.eng e) ∧
        (∀ a, d.inPartMemory p a = false → (∀ c ∈ m, d.mapAddr r.source p c.1 ≠ a) → t.dev.byte a = d.byte a)) ∧
    (x.recorder.open_ = none →
      ∃ t, exec (.decantEnd p .request) s = .next t ∧ t.pending = s.pending ∧ (t.dev.part p).mode = .recovery ∧
      (t.dev.part p).decant = none ∧ (t.dev.part p).pending = none ∧ (t.dev.part p).changing = some .recovery ∧ (t.dev.part p).reason = 0 ∧
      (r.found = none → t.dev.reg (.celDstat p) = 0x40) ∧
      (∀ k e l, r.found = some (k, e, l) → t.dev.reg (.celDstat p) = word (0x30 + k)) ∧
      t.dev.reg (.celDvsl p) = BitVec.ofNat 32 v ∧ t.dev.reg (.celDvsh p) = BitVec.ofNat 32 (v / 2 ^ 32) ∧
      (∀ q, q ≠ p → t.dev.part q = d.part q) ∧ t.dev.mem = d.mem)

/-- R28, R37, R191, R499: a request for Cocoon is refused, with a bit of PWR.CSTAT, while a partition is in Paced or Decant or a change
pends; else the drain begins, and the vintages close. At its end, with every vintage closed and every cask committed, the points and the
subscriptions are gone, scratchpads and DRAM read 0, and every other byte of the memories stays. That the partitions which Cocoon stops stand as held is
the model's choice (log entry 37). -/
def Obligations.CocoonIsEntered : Prop :=
  ∀ (s : State),
    let d := s.dev
    let busy := ∃ p, p < 16 ∧ d.valid p = true ∧ d.released p = true ∧ d.partCovered p = false ∧
      (d.pacedPart p = true ∨ (d.part p).pending.isSome = true ∨ (d.part p).changing.isSome = true)
    (d.phase = .running → d.stage = none → busy →
      ∃ t, exec .cocoonRequest s = .next t ∧ OnlyRegs s t [.pwrCstat] ∧ bit (t.dev.reg .pwrCstat) 1 = true ∧
        bit (t.dev.reg .pwrCstat) 0 = bit (d.reg .pwrCstat) 0) ∧
    (d.phase = .running → d.stage = none → ¬ busy →
      ∃ t, exec .cocoonRequest s = .next t ∧ t.pending = s.pending ∧ t.dev.phase = .cocoonDrain ∧
        bit (t.dev.reg .pwrCstat) 0 = true ∧ (∀ p, p < 16 → d.released p = true → (t.dev.part p).recorder.open_ = none) ∧
        t.dev.mem = d.mem ∧ t.dev.points = d.points ∧ ∀ e, t.dev.eng e = { d.eng e with tokens := (t.dev.eng e).tokens }) ∧
    (d.canonical = true → d.phase = .cocoonDrain →
      (∀ p, p < 16 → (d.part p).recorder.casks = [] ∧ (d.part p).recorder.open_ = none) →
      ∃ t, exec .cocoonEnter s = .next t ∧ t.pending = s.pending ∧ t.dev.phase = .cocoon ∧ bit (t.dev.reg .pwrCstat) 0 = false ∧
        (∀ p, (d.part p).mode ≠ .held → (t.dev.part p).mode = .held ∧ (t.dev.part p).inCocoon = true) ∧
        t.dev.points = [] ∧ t.dev.subs = [] ∧ t.dev.pace = d.pace ∧
        (∀ a, ((∃ e, regionOf a = some (.scratch e)) ∨ ∃ g, regionOf a = some (.dram g)) → t.dev.byte a = 0) ∧
        (∀ a, (∀ e, regionOf a ≠ some (.scratch e)) → (∀ g, regionOf a ≠ some (.dram g)) → regionOf a ≠ some .points →
          t.dev.byte a = d.byte a))

/-- R33, R38, R192, R423, R445, R495, R499, R514: a frame with the lane's key, a chip select or the alarm wakes the module from Cocoon, whatever errors
struck in retention, and PWR.CSTAT names the cause; a wake during the drain ends it. 150 µs on, the partitions that Cocoon stopped and nothing else
holds restart in their start modes, Free in place of Paced while PACE_LOSS is active; powered domains stand on again, and BUSY# stays low while the
host port's partition is not back. That the partitions which Cocoon stops stand as held is the model's choice (log entry 37). -/
def Obligations.CocoonIsLeft : Prop :=
  ∀ (s : State) (n : Nat) (bytes : List Byte) (struck : List (Nat × Upset)),
    let d := s.dev
    let k := kryeneOf bytes
    let woken := fun (t : State) (code : Nat) => t.pending = s.pending ∧ t.dev.phase = .waking ∧
      fld (t.dev.reg .pwrCstat) 4 3 = code ∧ t.dev.host.busyLow = true ∧ t.dev.mem = d.mem ∧ t.dev.pace = d.pace
    (d.phase = .cocoon → ∃ t u, exec (.wake ⟨.laneFrame, struck⟩) s = .next t ∧ exec (.wake ⟨.chipSelect, struck⟩) s = .next u ∧
      woken t 1 ∧ woken u 2) ∧
    (d.phase = .cocoonDrain → ∃ t, exec (.wake ⟨.duringDrain, struck⟩) s = .next t ∧ woken t 4 ∧ bit (t.dev.reg .pwrCstat) 0 = false ∧
      ∀ p, p < 16 → d.released p = true → (t.dev.part p).mode = .held ∧ (t.dev.part p).inCocoon = true) ∧
    (d.phase = .cocoon → fld (d.reg .pwrCctl) 16 16 ≠ 0 → ∃ t, exec .cocoonAlarm s = .next t ∧ woken t 3) ∧
    (d.phase = .cocoon → d.laneUp n = true → bit (d.reg (.fldLctl n)) 7 = true → isKryene bytes = true → k.ver = 1 → k.type = 4 →
      k.reserved = false → 4 ≤ k.pdlen →
      bytes.take 6 ∈ [d.laneMac n, broadcast] → 4 ≤ k.data.length → word (fromBytes (k.data.take 4)) = d.reg (.fldWake n) →
      ∃ t, exec (.wakeFrame n bytes) s = .next t ∧ woken t 1) ∧
    (d.phase = .waking → (∀ p, p < 16 → (d.part p).recorder.open_ = none) →
      ∃ t, exec .engineRestart s = .next t ∧ t.pending = s.pending ∧ t.dev.phase = .running ∧
        (d.hostOwner = none → t.dev.host.busyLow = false) ∧
        (∀ p, d.hostOwner = some p → (d.part p).inCocoon = false → t.dev.host.busyLow = true) ∧ t.dev.mem = d.mem ∧ (∀ j, t.dev.point j = { d.point j with squal := (t.dev.point j).squal }) ∧
        (∀ c, c < 72 → Assoc.get .off t.dev.domains c =
          if Assoc.get .off d.domains c = .off ∨ Assoc.get .off d.domains c = .fault then Assoc.get .off d.domains c else .on) ∧
        (∀ p, p < 16 → (d.part p).inCocoon = true → (d.part p).escalated = false → (d.part p).heldCluster = false →
          (d.part p).heldStack = false → (d.part p).fence = false → d.partCovered p = false → d.fillPending p = false → (t.dev.part p).inCocoon = false ∧
          (d.hostOwner = some p → t.dev.host.busyLow = false) ∧ (t.dev.part p).mode = match fld (d.reg (.parStart p)) 0 3 with
            | 2 => if 1 < d.pace.s then .free else .paced | 4 => .recovery | _ => .free) ∧
        (∀ p, p < 16 → (d.part p).inCocoon = false → t.dev.part p = d.part p))

/-! ### The Cellar -/

/-- R344, R357, R358, R367, R368: enabling the Cellar of a partition, a REARM after STOP and a fall below half the quota ask for a new
vintage; disabling it closes the open vintage, with a CLOSE record of reason 6 where the staging ring's stack is in service.
R370 to R373, R433: while the staging ring's stack is in service, the Write of the oldest cask takes the next free slot of the partition's
namespaces, the oldest sealed vintages being freed where none is free: the cask leaves the staging ring, its bytes stand in that slot, its vintage counts
it, and the port's completion source raises. The last cask of a checkpoint makes the checkpoint one that a Decant may begin from. The first failure of a
Write is counted and retried, the second takes the namespace out of recording and raises the port's status source; the last namespace of its controller
also sets STO.PSTAT.FAILED. That a done Write raises the completion source (log entry 67), and that the CHECKPOINT record is stamped at the last data
cask, whose bytes count in no occupancy (log entry 12), are the model's choices. -/
def Obligations.RecordingAndCommits : Prop :=
  (∀ (s : State) (p : Nat),
     let d := s.dev
     let x := d.part p
     let asks := fun (t : State) => t.dev.part p = { x with recorder := { x.recorder with wantOpen := true } } ∧
       (∀ q, q ≠ p → t.dev.part q = d.part q) ∧ { t.dev with parts := d.parts, regs := d.regs } = d ∧ t.pending = s.pending
     (d.grade.hasCellar = true → x.recorder.open_ = none →
       ∃ t, exec (.celEnable p) s = .next t ∧ asks t ∧ bit (t.dev.reg (.celCtl p)) 0 = true ∧
         ∀ r, r ≠ .celCtl p → t.dev.reg r = d.reg r) ∧
     (d.grade.hasCellar = true → ∀ v, x.recorder.open_ = some v →
       ∃ t u w, exec (.celEnable p) s = .next t ∧ OnlyRegs s t [.celCtl p] ∧ bit (t.dev.reg (.celCtl p)) 0 = true ∧
         exec (.celDisable p) s = .next u ∧ u.pending = s.pending ∧ (u.dev.part p).recorder.open_ = none ∧
         (u.dev.part p).recorder.closed = x.recorder.closed ++ [w] ∧ w.number = v.number ∧ w.reason = 6 ∧
         (d.ringOut = false → { type := 0x0F, src := 0x500, vstep := d.vstep p, payload := [6, 0, 0, 0, 0, 0, 0, 0] } ∈ w.records) ∧
         bit (u.dev.reg (.celCtl p)) 0 = false ∧ bit (u.dev.reg (.celStat p)) 0 = false ∧ bit (u.dev.reg (.celStat p)) 2 = false ∧
         (∀ q, q ≠ p → (d.part q).recorder.open_ = none → u.dev.part q = d.part q) ∧ u.dev.mem = d.mem ∧ u.dev.points = d.points ∧
         ∀ e, u.dev.eng e = { d.eng e with tokens := (u.dev.eng e).tokens }) ∧
     (bit (d.reg (.celStat p)) 2 = true →
       ∃ t, exec (.rearm p) s = .next t ∧ asks t ∧ bit (t.dev.reg (.celStat p)) 2 = false ∧ ∀ r, r ≠ .celStat p → t.dev.reg r = d.reg r) ∧
     (bit (d.reg (.celStat p)) 1 = true → x.recorder.bytes < fld (d.reg (.celQuota p)) 0 8 * 2 ^ 26 / 2 →
       ∃ t, exec (.lowWater p) s = .next t ∧ asks t ∧ bit (t.dev.reg (.celStat p)) 1 = false ∧
         ∀ r, r ≠ .celStat p → t.dev.reg r = d.reg r)) ∧
  (∀ (s : State) (p n i k : Nat) (c : Cask) (cs : List Cask) (y : Recorder) (x : Namespace),
     let d := s.dev
     let r := (d.part p).recorder
     let more := ∃ j ∈ cs, j.ckpt = true ∧ j.vintage = c.vintage ∧ j.step = c.step
     let others := fun (t : State) => (∀ q, q ≠ p → t.dev.part q = d.part q) ∧ t.dev.mem = d.mem ∧ t.dev.engines = d.engines ∧
       t.dev.points = d.points
     let raised := fun (t : State) (src : Nat) => t.dev.raises = (d.raise src).raises ∧ t.dev.heldRaises = (d.raise src).heldRaises
     r.casks = c :: cs → d.ringOut = false → (c.ckpt = true → c.step < d.vstep p) → d.nextFree p = (some (k, (n, i)), y) →
     d.namespaces[n]? = some x →
     (∃ t, exec (.caskCommit p true) s = .next t ∧ t.pending = s.pending ∧ others t ∧ raised t (0xA0 + 2 * x.port) ∧
       (t.dev.part p).recorder.casks = cs ∧ (∀ q, q ≠ .celUse p → t.dev.reg q = d.reg q) ∧ t.dev.namespaces = d.namespaces ∧
       (t.dev.part p).recorder.closed.map (·.number) = y.closed.map (·.number) ∧ y.closed.Sublist r.closed ∧
       (∀ v, v ∈ y.closed → v.number = c.vintage → ∃ w, w ∈ (t.dev.part p).recorder.closed ∧ w.number = v.number ∧
         w.slots = v.slots ++ [(n, i)] ∧ w.committed = v.committed + 1 ∧ w.isSealed = c.last ∧ w.reason = v.reason) ∧
       (∀ key, r.key = some key → t.dev.store = Assoc.put d.store (n, i) (c.encode p n key)) ∧
       (∀ v, r.open_ = some v → v.number = c.vintage → ∃ w, (t.dev.part p).recorder.open_ = some w ∧ w.number = v.number ∧
         w.slots = v.slots ++ [(n, i)] ∧ w.committed = v.committed + 1 ∧ w.isSealed = c.last) ∧
       (c.ckpt = false → (t.dev.part p).recorder.bytes = r.bytes - c.bytes) ∧
       (c.ckpt = true → more → (t.dev.part p).recorder.bytes = r.bytes) ∧
       (c.ckpt = true → ¬ more → ∀ sn ss v, r.captures = sn :: ss → r.open_ = some v →
         (t.dev.part p).recorder.captures = ss ∧ ∃ w, (t.dev.part p).recorder.open_ = some w ∧ w.checkpoints = v.checkpoints ++ [sn] ∧
           { type := 0x02, src := 0x500, vstep := d.vstep p
             payload := wordsBytes [word sn.index, boolWord sn.full, word sn.firstSeq, word sn.casks] } ∈ w.records)) ∧
     (c.retried = false →
       ∃ t, exec (.caskCommit p false) s = .next t ∧ t.pending = s.pending ∧
         (t.dev.part p).recorder = { r with casks := { c with retried := true } :: cs } ∧
         (t.dev.reg (.stoErr x.port x.sub)).toNat = min (2 ^ 32 - 1) ((d.reg (.stoErr x.port x.sub)).toNat + 1) ∧
         (∀ q, q ≠ .stoErr x.port x.sub → t.dev.reg q = d.reg q) ∧ { t.dev with parts := d.parts, regs := d.regs } = d) ∧
     (c.retried = true →
       ∃ t, exec (.caskCommit p false) s = .next t ∧ t.pending = s.pending ∧ others t ∧ raised t (0xA0 + 2 * x.port + 1) ∧
         t.dev.namespaces = d.namespaces.set n { x with failed := true } ∧
         (t.dev.part p).recorder = { r with casks := { c with retried := false } :: cs } ∧
         (t.dev.reg (.stoErr x.port x.sub)).toNat = min (2 ^ 32 - 1) ((d.reg (.stoErr x.port x.sub)).toNat + 1) ∧
         ((∀ j z, d.namespaces[j]? = some z → z.port = x.port → z.sub = x.sub → j = n ∨ z.failed = true) →
           bit (t.dev.reg (.stoPstat x.port x.sub)) 7 = true) ∧
         (∀ q, q ≠ .stoErr x.port x.sub → q ≠ .stoPstat x.port x.sub → t.dev.reg q = d.reg q)))

/-- R374, R375, R476: outside Configure and Recovery the key commands only set ERR of CEL.KSTAT. Else ENROLL takes the cabinet key from
CEL.KIN, CLEAR forgets it, and NEWKEY gives partition p a fresh key, whose value is open (log entry 9), with the next recording epoch;
it writes the key sectors of p and no other byte of the configuration memory. That ENROLL unwraps no stored key and that NEWKEY's epoch is the one after
that in force are the model's choices (log entry 40). -/
def Obligations.KeysAreEnrolledAndMade : Prop :=
  ∀ (s : State) (p : Nat),
    let d := s.dev
    let epoch := match d.keySector p with
      | some a => fromBytes (d.norBytes (a + 8) 4) % 2 ^ 24 + d.tally a + 1 | none => 1
    (d.keysOpen = false →
      ∃ t u v, exec .enroll s = .next t ∧ exec (.newkey p) s = .next u ∧ exec .clear s = .next v ∧
        OnlyRegs s t [.celKstat] ∧ OnlyRegs s u [.celKstat] ∧ OnlyRegs s v [.celKstat] ∧ bit (t.dev.reg .celKstat) 17 = true ∧
        bit (u.dev.reg .celKstat) 17 = true ∧ bit (v.dev.reg .celKstat) 17 = true) ∧
    (d.keysOpen = true →
      (∃ t u, exec .enroll s = .next t ∧ exec .clear s = .next u ∧ t.pending = s.pending ∧ u.pending = s.pending ∧
        t.dev.keys.cabinet = some ([0, 1, 2, 3, 4, 5, 6, 7].map (fun i => d.reg (.celKin i))) ∧ u.dev.keys.cabinet = none ∧
        t.dev.keys.anchor = d.keys.anchor ∧ u.dev.keys.anchor = d.keys.anchor ∧
        bit (t.dev.reg .celKstat) 17 = false ∧ bit (u.dev.reg .celKstat) 17 = false ∧
        { t.dev with keys := d.keys, regs := d.regs } = d ∧ { u.dev with keys := d.keys, regs := d.regs } = d) ∧
      (d.canonical = true → p < 16 → d.norPresent = true → d.keys.cabinet.isSome = true → epoch < 2 ^ 24 →
        ∃ t, exec (.newkey p) s = .next t ∧ t.pending = s.pending ∧
          (t.dev.part p).recorder.key = some (Config.freshKey d.fresh) ∧ (t.dev.part p).recorder.epoch.toNat = epoch ∧
          (t.dev.part p).recorder.vintages = 0 ∧ bit (t.dev.reg .celKstat) p = true ∧ bit (t.dev.reg .celKstat) 17 = false ∧
          bit (t.dev.reg (.celStat p)) 5 = false ∧
          (∀ a, (a < 0x200000 + 0x2000 * p ∨ 0x202000 + 0x2000 * p ≤ a) →
            Cells.read norBlank t.dev.nor a = Cells.read norBlank d.nor a) ∧
          t.dev.mem = d.mem ∧ t.dev.engines = d.engines))

/-! ### The Trellis and units in service -/

/-- R317, R388, R389: a target port grants the owner of a reserved slot of the period first, outside its rounds. Of the others it grants a
partition short of its minimum share, the lowest such number; with none short the recorder short of 4 grants; else a request of the highest aged
QoS, of those one that has waited longest, and of those one of the lowest master. A round begins anew after 64 grants. The granted request leaves the
port. That the same order decides among the requests of a short partition and of the recorder (log entry 44), and that with none to grant nothing
happens (log entry 1), are the model's choices.
R184, R393 to R395: the default target answers 0, writes nothing and logs the first failure of a master that is no engine, in its
partition's registers or, for a module master, in TRL.MERR; a failure after it leaves the log, and one of an engine, which takes its fault, enters none.
An uncorrectable error is counted and logged. The last transaction of an earlier epoch lowers a partition's fence. -/
def Obligations.TrellisGrantsAndAnswers : Prop :=
  (∀ (s : State) (k : Nat),
     let d := s.dev
     let x := d.target k
     let recorded := if x.count < 64 then x.recorder else 0
     let given := fun (p : Nat) => if x.count < 64 then Assoc.get 0 x.grants p else 0
     let owns := fun (q : TrellisReq) => q ∈ x.waiting ∧ q.slotted = true ∧ ∃ e, q.owner.engine = some e ∧
       (if 32 ≤ k ∧ k < 96 then d.now % 4 = e % 4 else d.now % 32 = e % 32)
     let free := fun (q : TrellisReq) => q ∈ x.waiting ∧ q.slotted = false
     let short := fun (p : Nat) => p < 16 ∧ given p < fld (d.reg (.parQos p)) 8 6 ∧ ∃ q, free q ∧ q.part = some p
     let leaves := fun (t : State) (r : TrellisReq) => t.pending = s.pending ∧ (t.dev.target k).waiting = x.waiting.erase r ∧
       (∀ j, j ≠ k → t.dev.target j = d.target j) ∧ (∀ e, r.owner.engine ≠ some e → t.dev.eng e = d.eng e) ∧
       { t.dev with targets := d.targets, engines := d.engines } = d
     let grants := fun (t : State) (r : TrellisReq) => leaves t r ∧ free r ∧
       (t.dev.target k).count = (if x.count < 64 then x.count + 1 else 1) ∧
       (∀ p, Assoc.get 0 (t.dev.target k).grants p = given p + if r.part = some p then 1 else 0) ∧
       (t.dev.target k).recorder = recorded + if r.master = 151 then 1 else 0
     let first := fun (r : TrellisReq) (among : TrellisReq → Prop) =>
       ∀ q, free q → among q → d.agedQos q < d.agedQos r ∨
         (d.agedQos q = d.agedQos r ∧ (r.since < q.since ∨ r.since = q.since ∧ r.master ≤ q.master))
     ((∃ q, owns q) → ∃ t r, exec (.targetGrant k) s = .next t ∧ owns r ∧ leaves t r ∧ (t.dev.target k).count = x.count ∧
       (t.dev.target k).grants = x.grants) ∧
     ((∀ q, ¬ owns q) →
       (∀ p, short p → (∀ q, q < p → ¬ short q) →
         ∃ t r, exec (.targetGrant k) s = .next t ∧ grants t r ∧ r.part = some p ∧ first r (fun q => q.part = some p)) ∧
       ((∀ p, ¬ short p) → recorded < 4 → (∃ q, free q ∧ q.master = 151) →
         ∃ t r, exec (.targetGrant k) s = .next t ∧ grants t r ∧ r.master = 151 ∧ first r (fun q => q.master = 151)) ∧
       ((∀ p, ¬ short p) → (∃ q, free q) → (4 ≤ recorded ∨ ∀ q, free q → q.master ≠ 151) →
         ∃ t r, exec (.targetGrant k) s = .next t ∧ grants t r ∧ first r (fun _ => True)) ∧
       ((∀ q, ¬ free q) → exec (.targetGrant k) s = .next s))) ∧
  (∀ (s : State) (m p a : Nat) (w : Bool),
     let d := s.dev
     let st := d.requestStatus (some p) a w
     let entry := fun (st : Nat) => word (0x80000000 + st * 2 ^ 24 + m * 2 ^ 16 + a / 2 ^ 32 % 256)
     let answers := fun (t : State) => t.pending = s.pending ∧ t.dev.answer = (if w then d.answer else 0) ∧
       { t.dev with regs := d.regs, answer := d.answer } = d
     (64 ≤ m → m ∉ [132, 133, 151, 152] → st ≠ 0 → st ≠ 9 →
       ∃ t, exec (.defaultTarget m (some p) a w) s = .next t ∧ answers t ∧
         (bit (d.reg (.parDtb p)) 31 = true → t.dev.regs = d.regs) ∧
         (bit (d.reg (.parDtb p)) 31 = false → t.dev.reg (.parDtb p) = entry st ∧ t.dev.reg (.parDta p) = word a ∧
           ∀ q, q ≠ .parDtb p → q ≠ .parDta p → t.dev.reg q = d.reg q)) ∧
     (m < 64 → st ≠ 0 → st ≠ 9 → ∃ t, exec (.defaultTarget m (some p) a w) s = .next t ∧ answers t ∧ t.dev.regs = d.regs) ∧
     (64 ≤ m → m ∉ [132, 133, 151, 152] → st = 9 → bit (d.reg (.parDtb p)) 31 = false →
       ∃ t, exec (.defaultTarget m (some p) a w) s = .next t ∧ t.pending = s.pending ∧ t.dev.reg (.parDtb p) = entry 9 ∧
         t.dev.reg (.parDta p) = word a ∧ fld (t.dev.reg .cfgEcccnt) 16 16 = min 65535 (fld (d.reg .cfgEcccnt) 16 16 + 1) ∧
         (∀ q, q ≠ .parDtb p → q ≠ .parDta p → q ≠ .cfgEcccnt → t.dev.reg q = d.reg q) ∧
         { t.dev with regs := d.regs, raises := d.raises, heldRaises := d.heldRaises } = d) ∧
     (m ∈ [132, 133, 151, 152] → regionOf a = none → bit (d.reg .trlMerr) 31 = false →
       ∃ t, exec (.defaultTarget m none a w) s = .next t ∧ answers t ∧ t.dev.reg .trlMerr = entry 1 ∧
         t.dev.reg .trlMera = word a ∧ ∀ q, q ≠ .trlMerr → q ≠ .trlMera → t.dev.reg q = d.reg q) ∧
     ((d.part p).fence = true →
       ∃ t, exec (.fenceDrainEnd p) s = .next t ∧ OnlyPart s t p ∧ t.dev.part p = { d.part p with fence := false }))

/-- R401, R402, R404, R406: a unit ordered out of service is marked and a return of it is abandoned; the partition of a cluster is
held. A unit ordered back powers up, or begins its fill where its domain is on; a return of one that is not out of service is REFUSED (7) in
TRL.SVCST. That STATE reads IDLE after an order out of service (log entry 43), and that a unit which the grade lacks and a second return change nothing
(log entry 1), are the model's choices. -/
def Obligations.UnitsLeaveAndReturn : Prop :=
  ∀ (s : State) (c : UnitClass) (u : Nat),
    let d := s.dev
    let dom := Assoc.get .off d.domains (unitDomain c u)
    (d.unitPresent c u = false → exec (.outOfService c u) s = .next s ∧ exec (.returnUnit c u) s = .next s) ∧
    (d.unitPresent c u = true →
      (∃ t, exec (.outOfService c u) s = .next t ∧ t.pending = s.pending ∧ t.dev.isOffline c u = true ∧
        (∀ r ∈ t.dev.returning, ¬ (r.cls = c ∧ r.unit = u)) ∧ fld (t.dev.reg .trlSvcst) 8 3 = 0 ∧
        (∀ p, d.isOffline c u = false → c = .cluster → d.clusterOwner u = some p → (t.dev.part p).mode = .held ∧
          (t.dev.part p).heldCluster = true ∧ bit (t.dev.reg (.parCause p)) 3 = true)) ∧
      (d.isOffline c u = true → (∃ r ∈ d.returning, r.cls = c ∧ r.unit = u) → exec (.returnUnit c u) s = .next s) ∧
      (d.isOffline c u = false →
        ∃ t, exec (.returnUnit c u) s = .next t ∧ OnlyRegs s t [.trlSvcst] ∧ fld (t.dev.reg .trlSvcst) 8 3 = 7) ∧
      (d.isOffline c u = true → (∀ r ∈ d.returning, ¬ (r.cls = c ∧ r.unit = u)) →
        ∃ t, exec (.returnUnit c u) s = .next t ∧ t.pending = s.pending ∧ t.dev.isOffline c u = true ∧
          (dom = .on → { cls := c, unit := u, state := .fill } ∈ t.dev.returning ∧ fld (t.dev.reg .trlSvcst) 8 3 = 2) ∧
          (dom ≠ .on → t.dev.returning = d.returning ++ [{ cls := c, unit := u, state := .power }] ∧
            fld (t.dev.reg .trlSvcst) 8 3 = 1 ∧ Assoc.get .off t.dev.domains (unitDomain c u) = if dom = .fault then .fault else .ramp)))

/-- R72, R188, R189, R402: the fill of a returning cluster clears its scratchpads, its SRAM and its exchange RAM and no other byte, and
its self-test begins; a page fill clears its 16 MiB. A unit that passes its self-test waits for an admission epoch; one that fails is no
longer returning. The spare of a cluster serves one failed engine; with two failed the test fails too and CLFAIL is set. -/
def Obligations.FillsClearAndTestsDecide : Prop :=
  ∀ (s : State) (c : UnitClass) (u page : Nat),
    let d := s.dev
    let ours := fun (a : Nat) => (0x100000000 + u * 0x100000 ≤ a ∧ a < 0x100000000 + (u + 1) * 0x100000) ∨
      (0x200000000 + u * 0x400000 ≤ a ∧ a < 0x200000000 + (u + 1) * 0x400000) ∨
      (0x280000000 + u * 0x10000 ≤ a ∧ a < 0x280000000 + (u + 1) * 0x10000)
    (u < 64 → d.inReturn .cluster u .fill = true →
      ∃ t, exec (.zeroFillComplete .cluster u) s = .next t ∧ t.pending = s.pending ∧ t.dev.inReturn .cluster u .test = true ∧
        (∀ a, ours a → t.dev.byte a = 0) ∧ (∀ a, ¬ ours a → t.dev.byte a = d.byte a) ∧ t.dev.points = d.points ∧
        t.dev.engines = d.engines) ∧
    (page < 4096 → page ∈ d.unfilled →
      ∃ t, exec (.pageFillComplete page) s = .next t ∧ t.pending = s.pending ∧ page ∉ t.dev.unfilled ∧
        (∀ g, g ≠ page → (g ∈ t.dev.unfilled ↔ g ∈ d.unfilled)) ∧
        (∀ a, 0x1000000000 + page * 0x1000000 ≤ a → a < 0x1000000000 + (page + 1) * 0x1000000 → t.dev.byte a = 0) ∧
        (∀ a, (a < 0x1000000000 + page * 0x1000000 ∨ 0x1000000000 + (page + 1) * 0x1000000 ≤ a) → t.dev.byte a = d.byte a)) ∧
    (d.inReturn c u .test = true →
      ∃ t v, exec (.selfTestComplete c u true []) s = .next t ∧ exec (.selfTestComplete c u false []) s = .next v ∧
        t.pending = s.pending ∧ v.pending = s.pending ∧ t.dev.inReturn c u .waitEpoch = true ∧
        (∀ r ∈ v.dev.returning, ¬ (r.cls = c ∧ r.unit = u)) ∧ v.dev.isOffline c u = d.isOffline c u ∧ t.dev.points = d.points) ∧
    (∀ i j, d.inReturn .cluster u .test = true → d.spareServes u = none → i < 16 → j < 16 → i ≠ j →
      ∃ t v, exec (.selfTestComplete .cluster u true [i]) s = .next t ∧ exec (.selfTestComplete .cluster u true [i, j]) s = .next v ∧
        t.dev.inReturn .cluster u .waitEpoch = true ∧ t.dev.spareServes u = some i ∧ bit (v.dev.reg (.cfgSpare u)) 11 = true ∧
        ∀ r ∈ v.dev.returning, ¬ (r.cls = .cluster ∧ r.unit = u))

/-! ### Power -/

/-- R402, R495 to R498: VSET of domains 0 to 67 is clamped to 140 to 170 and ignored elsewhere; a domain whose regulator reports good is on, from FAULT
only where a unit of it returns or the module is down; a unit that waited for it begins its fill; before supply good the groups of R496 start one behind
the other, and the last main domain makes supply good; a domain goes off only where what it feeds is out of service or not enabled and no unit of it
returns. -/
def Obligations.PowerDomainsFollowRegulators : Prop :=
  ∀ (s : State) (n : Nat) (v : BitVec 8),
    let d := s.dev
    let groups := [[83], (List.range d.grade.dies).map (64 + ·), (List.range d.grade.stacks).map (68 + ·), List.range d.grade.clusters]
    let idle := (∀ r ∈ d.returning, unitDomain r.cls r.unit ≠ n) ∧
      ((n < 64 ∧ d.isOffline .cluster n = true) ∨ (68 ≤ n ∧ n < 72 ∧ d.isOffline .dramStack (n - 68) = true) ∨
        (72 ≤ n ∧ n < 80 ∧ ((∀ i, i < 8 → bit (d.reg (.fldLctl (8 * (n - 72) + i))) 0 = false) ∨
          ∀ i, i < 8 → d.isOffline .fieldLane (8 * (n - 72) + i) = true)) ∨
        (80 ≤ n ∧ n < 82 ∧ bit (d.reg (.stoPstat (n - 80) 0)) 7 = true ∧
          (bit (d.reg (.stoPctl (n - 80))) 2 = false ∨ bit (d.reg (.stoPstat (n - 80) 1)) 7 = true)) ∨
        (n = 82 ∧ ∀ m, m < d.grade.linkLanes → bit (d.reg (.lnkCtl m)) 0 = false))
    let out := (d.domain n = .on ∨ d.domain n = .ramp) ∧ idle
    (d.domainExists n = false ∨ 68 ≤ n → exec (.vset n v) s = .next s) ∧
    (d.domainExists n = true → n < 68 →
      ∃ t, exec (.vset n v) s = .next t ∧ OnlyRegs s t [.pwrDom n] ∧
        fld (t.dev.reg (.pwrDom n)) 8 8 = max 140 (min 170 v.toNat) ∧
        fld (t.dev.reg (.pwrDom n)) 0 8 = fld (d.reg (.pwrDom n)) 0 8) ∧
    (d.domainExists n = true → d.domain n = .ramp → (∀ r ∈ d.returning, unitDomain r.cls r.unit ≠ n) →
      (d.phase ≠ .off → d.phase ≠ .configure → ∃ t, exec (.domainOn n) s = .next t ∧ t.pending = s.pending ∧ { t.dev with domains := d.domains } = d ∧
        t.dev.domain n = .on ∧ ∀ k, k ≠ n → t.dev.domain k = d.domain k) ∧
      (d.phase = .off → d.wideHeld = true → (∀ g ∈ groups, ∀ k ∈ g, k ≠ n → d.domain k = .on) →
        ∃ t, exec (.domainOn n) s = .next t ∧ t.pending = s.pending ∧ t.dev.domain n = .on ∧ t.dev.pins.mainGood = true) ∧
      (∀ (i : Nat) g h, d.phase = .off → d.pins.mainGood = false → groups[i]? = some g → groups[i + 1]? = some h → n ∈ g → h ≠ [] →
        (∀ j, j ≤ i → ∀ f, groups[j]? = some f → ∀ k ∈ f, k ≠ n → d.domain k = .on) → (∀ k ∈ h, d.domain k = .off) →
        ∃ t, exec (.domainOn n) s = .next t ∧ t.pending = s.pending ∧ { t.dev with domains := d.domains } = d ∧ t.dev.domain n = .on ∧
          (∀ k ∈ h, t.dev.domain k = .ramp) ∧ ∀ k, k ∉ h → k ≠ n → t.dev.domain k = d.domain k)) ∧
    (d.domainExists n = true → d.phase ≠ .off → d.phase ≠ .configure →
      (d.domain n = .fault → (∀ r ∈ d.returning, ¬ (r.state = .power ∧ unitDomain r.cls r.unit = n)) → exec (.domainOn n) s = .next s) ∧
      (∀ r ∈ d.returning, r.state = .power → unitDomain r.cls r.unit = n → (d.domain n = .ramp ∨ d.domain n = .fault) →
        ∃ t, exec (.domainOn n) s = .next t ∧ t.pending = s.pending ∧ t.dev.domain n = .on ∧ (∀ k, k ≠ n → t.dev.domain k = d.domain k) ∧
          { r with state := .fill } ∈ t.dev.returning ∧ t.dev.engines = d.engines)) ∧
    (d.domainExists n = true →
      (out → ∃ t, exec (.domainOff n) s = .next t ∧ t.pending = s.pending ∧ { t.dev with domains := d.domains } = d ∧
        t.dev.domain n = .off ∧ ∀ k, k ≠ n → t.dev.domain k = d.domain k) ∧
      (¬ out → exec (.domainOff n) s = .next s))

/-- R493, R514: a die's reading stands in PWR.TEMP; rising above 100 degrees it raises 0x0C2. A main input outside 42 V to 58 V raises 0x0C4
and stands in PWR.VIN, with the input power in PWR.PIN; the AUX supply warning raises 0x0C5.
R401, R482, R498: a regulator fault puts a domain in FAULT, raises 0x0C6 and takes what the domain feeds out of service: a cluster with its
partition, a stack, a lane group, the controllers of a store port or the link lanes; where it feeds a die or the I/O, the module is held by a supply
fault. A domain that is absent, off or in FAULT is left. -/
def Obligations.WarningsAndDomainFaults : Prop :=
  (∀ (s : State) (k : Nat) (temp v dw : BitVec 16),
     let d := s.dev
     let raised := fun (t : State) (n : Nat) => d.phase ≠ .off → d.sourceOwner n = none → d.routeMuted n (d.reg (.evrRoute n)) = false →
       t.dev.raises = d.raises ++ [(d.now + 18, n, d.reg (.evrRoute n))]
     (k < d.grade.dies ∨ k = 4 →
       ∃ t, exec (.thermalWarning k temp) s = .next t ∧ t.pending = s.pending ∧ t.dev.reg (.pwrTemp k) = temp.setWidth 32 ∧
         (∀ r, r ≠ .pwrTemp k → t.dev.reg r = d.reg r) ∧ (d.tj k ≤ 1600 → 1600 < temp.toInt → raised t 0xC2) ∧
         t.dev.sources.map (fun x => (x.cause, x.reach, x.target)) = d.sources.map (fun x => (x.cause, x.reach, x.target)) ∧
         { t.dev with regs := d.regs, raises := d.raises, heldRaises := d.heldRaises, sources := d.sources } = d) ∧
     (∃ t, exec (.supplyWarning (.main v dw)) s = .next t ∧ t.pending = s.pending ∧ t.dev.reg .pwrVin = v.setWidth 32 ∧
       t.dev.reg .pwrPin = dw.setWidth 32 ∧ (∀ r, r ≠ .pwrVin → r ≠ .pwrPin → t.dev.reg r = d.reg r) ∧
       { t.dev with regs := d.regs, raises := d.raises, heldRaises := d.heldRaises } = d ∧
       (v.toNat < 4200 ∨ 5800 < v.toNat → raised t 0xC4) ∧ (4200 ≤ v.toNat → v.toNat ≤ 5800 → t.dev.raises = d.raises)) ∧
     (∃ t, exec (.supplyWarning .aux) s = .next t ∧ t.pending = s.pending ∧ raised t 0xC5 ∧
       { t.dev with raises := d.raises, heldRaises := d.heldRaises } = d)) ∧
  (∀ (s : State) (n : Nat),
     let d := s.dev
     (d.domainExists n = false ∨ d.domain n = .off ∨ d.domain n = .fault → exec (.domainFault n) s = .next s) ∧
     (d.domainExists n = true → d.domain n ≠ .off → d.domain n ≠ .fault →
       ∃ t, exec (.domainFault n) s = .next t ∧ t.pending = s.pending ∧ t.dev.domain n = .fault ∧
         (∀ k, k ≠ n → t.dev.domain k = d.domain k) ∧
         (n < 64 ∨ 68 ≤ n → n ≠ 83 → d.phase ≠ .off → d.sourceOwner 0xC6 = none → d.routeMuted 0xC6 (d.reg (.evrRoute 0xC6)) = false →
           (d.now + 18, 0xC6, d.reg (.evrRoute 0xC6)) ∈ t.dev.raises) ∧
         (n < 64 → t.dev.isOffline .cluster n = true ∧ ∀ p, d.clusterOwner n = some p →
           (t.dev.part p).mode = .held ∧ (t.dev.part p).heldCluster = true ∧ bit (t.dev.reg (.parCause p)) 3 = true) ∧
         (68 ≤ n → n < 72 → t.dev.isOffline .dramStack (n - 68) = true) ∧
         (∀ i, i < 8 → 72 ≤ n → n < 80 → t.dev.isOffline .fieldLane (8 * (n - 72) + i) = true) ∧
         (∀ k, k < 2 → 80 ≤ n → n < 82 → bit (t.dev.reg (.stoPstat (n - 80) k)) 0 = false ∧ bit (t.dev.reg (.stoPstat (n - 80) k)) 7 = true ∧
           ∀ x ∈ t.dev.namespaces, x.port = n - 80 → x.sub = k → x.failed = true) ∧
         (∀ m, m < d.grade.linkLanes → n = 82 → t.dev.isOffline .linkLane m = true ∧ t.dev.reg (.lnkStat m) = 0) ∧
         ((64 ≤ n ∧ n < 68 ∨ n = 83) → { cause := 18, reach := 5, target := 0, cond := true } ∈ t.dev.sources ∧
           t.dev.phase = (if d.phase = .sealing then .sealing else .off) ∧ t.dev.pins.mainGood = false)))

/-- R310, R482, R496, R501, R505, R506: AUX power, seating and main power assert their reset sources, and PCNT counts from 0 again; with seating released
the charged bank starts the regulators, domain 83 first; a module lifted before supply good begins again. During a seal, and after an ejection, a change
of SEAT# changes the pin alone. -/
def Obligations.InsertionAsserts : Prop :=
  ∀ (s : State),
    let d := s.dev
    let fresh := fun (x : Pace) => ∃ b, b % 65536 = 0 ∧ d.pace.pcnt ≤ b ∧ b < d.pace.pcnt + 65536 ∧
      x = { pcnt := b, base := b, windowNext := b / 64, epochNext := b / 65536 }
    let asserted := fun (t : State) (cause reach : Nat) (c : Bool) => t.pending = s.pending ∧
      t.dev.phase = (if d.phase = .sealing then .sealing else .off) ∧
      ({ cause := cause, reach := reach, target := 0, cond := c } : Source) ∈ t.dev.sources ∧
      bit (t.dev.reg .rstCause) cause = true ∧ (reach = 6 → t.dev.reg .rstCause = BitVec.ofNat 32 (2 ^ cause)) ∧
      t.dev.engines = [] ∧ t.dev.points = [] ∧ fresh t.dev.pace ∧ t.dev.nor = d.nor
    (∃ t u, exec .powerOnAux s = .next t ∧ exec .powerOnMain s = .next u ∧ asserted t 1 6 false ∧ asserted u 0 5 true ∧
      t.dev.pins.auxGood = true ∧ u.dev.pins.mainGood = false ∧ u.dev.pins.bankFull = false ∧ ∀ n, u.dev.domain n = .off) ∧
    (d.pins.seatLow = false → d.phase ≠ .sealing →
      ∃ t, exec .seating s = .next t ∧ asserted t 2 6 false ∧ t.dev.pins.seatLow = true) ∧
    (d.pins.seatLow = false → d.phase = .sealing →
      ∃ t, exec .seating s = .next t ∧ t.pending = s.pending ∧ t.dev = { d with pins := { d.pins with seatLow := true } }) ∧
    (d.pins.seatLow = true → d.phase ≠ .sealing → d.phase ≠ .ejected → d.pins.mainGood = false →
      ∃ t, exec .seatRise s = .next t ∧ asserted t 2 6 true ∧ t.dev.pins.seatLow = false ∧ t.dev.pins.bankFull = false ∧
        ∀ n, t.dev.domain n = .off) ∧
    (d.pins.seatLow = true → (d.phase = .sealing ∨ d.phase = .ejected) →
      ∃ t, exec .seatRise s = .next t ∧ t.pending = s.pending ∧ t.dev = { d with pins := { d.pins with seatLow := false } }) ∧
    (d.pins.seatLow = true → d.pins.mainGood = false → (∀ x ∈ d.sources, x.cause ≠ 2) →
      ∃ t, exec .bankCharged s = .next t ∧ t.pending = s.pending ∧
        { t.dev with domains := d.domains } = { d with pins := { d.pins with bankFull := true } } ∧
        ((∀ n, d.domain n = .off) → t.dev.domain 83 = .ramp ∧ ∀ n, n ≠ 83 → t.dev.domain n = .off) ∧
        (∀ n, (n ∉ d.mainDomains ∨ d.domain n ≠ .off) → t.dev.domain n = d.domain n))

/-- R373, R498, R502 to R506: EJECT# in operation begins the eject drain, and while stages 8 and 9 of Configure run, or in Cocoon, it stops the module
there; the drain's end stops the module with REMOVE_OK high, with TRUNC where it ran out of time, and its domains but those in FAULT are off; EJECT#
released is no request. A module drawn without a drain seals: its engines and links stop, and then the supply fault and the seating hold it. -/
def Obligations.RemovalStopsModule : Prop :=
  ∀ (s : State) (late : Bool),
    let d := s.dev
    (d.pins.ejectLow = false → (d.phase = .cocoon ∨ d.phase = .running ∧ d.stage.isSome = true) →
      ∃ t, exec .eject s = .next t ∧ t.pending = s.pending ∧ t.dev.phase = .ejected ∧ (d.phase = .running → t.dev.stage = none) ∧
        t.dev.pins = { d.pins with ejectLow := true, removeOk := true } ∧ t.dev.mem = d.mem ∧ t.dev.regs = d.regs) ∧
    (d.pins.ejectLow = false → d.phase = .running → d.stage = none →
      ∃ t, exec .eject s = .next t ∧ t.pending = s.pending ∧ t.dev.phase = .ejectDrain ∧ t.dev.pins = { d.pins with ejectLow := true } ∧
        { t.dev with phase := d.phase, pins := d.pins, raises := d.raises, heldRaises := d.heldRaises } = d) ∧
    (d.phase = .ejectDrain → d.ejectStopped = true → (late = true ∨ ∀ p, p < 16 → (d.part p).recorder.casks = []) →
      ∃ t, exec (.ejectDrainEnd late) s = .next t ∧ t.pending = s.pending ∧ t.dev.phase = .ejected ∧ t.dev.pins.removeOk = true ∧
        (late = true → bit (t.dev.reg .pwrHpstat) 5 = true) ∧ t.dev.mem = d.mem ∧
        (∀ n, n < d.grade.fieldLanes → bit (t.dev.reg (.fldLstat n)) 0 = false) ∧ t.dev.pins.mainGood = false ∧
        ∀ n, n < 83 → t.dev.domain n = if d.domain n = .fault then .fault else .off) ∧
    (d.pins.ejectLow = true → (d.wideHeld = true ∨ d.phase ≠ .off ∧ d.phase ≠ .configure) →
      ∃ t, exec .ejectRelease s = .next t ∧ t.pending = s.pending ∧ t.dev.pins = { d.pins with ejectLow := false } ∧
        t.dev.ejectReset = false ∧ { t.dev with pins := d.pins, ejectReset := d.ejectReset } = d) ∧
    (d.pins.seatLow = true → d.pins.mainGood = true → d.phase ≠ .ejected → d.phase ≠ .sealing →
      ∃ t, exec .seal s = .next t ∧ t.pending = s.pending ∧ t.dev.phase = .sealing ∧ t.dev.timers = [] ∧ t.dev.mem = d.mem ∧
        t.dev.pins = { d.pins with seatLow := false } ∧ t.dev.ejectStopped = true ∧ t.dev.stage = none ∧
        (∀ n, (n < 64 ∨ 72 ≤ n ∧ n < 80) → t.dev.domain n = if d.domain n = .fault then .fault else .off) ∧
        (∀ e, (t.dev.eng e).run = .held) ∧ (∀ p, p < 16 → (t.dev.part p).recorder.open_ = none) ∧
        ∀ n, n < d.grade.fieldLanes → bit (t.dev.reg (.fldLstat n)) 0 = false) ∧
    (d.phase = .sealing →
      ∃ t, exec .sealComplete s = .next t ∧ t.pending = s.pending ∧ t.dev.phase = .off ∧ t.dev.pins.mainGood = false ∧
        t.dev.pins.bankFull = false ∧
        (∀ n, t.dev.domain n = .off) ∧ ({ cause := 18, reach := 5, target := 0, cond := false } : Source) ∈ t.dev.sources ∧
        ({ cause := 2, reach := 6, target := 0, cond := !d.pins.seatLow } : Source) ∈ t.dev.sources)

/-! ### Reset -/

/-- R310, R395, R482 to R485, R489: what asserts a source of Core reach or wider, and what it leaves: every valid partition is fenced in its next epoch,
and after a reach of Module or Cold PCNT counts from 0 again and the module is down, but for a seal that runs on. Where a vintage is open that the reset closes, the grant
window is the one that runs. -/
def Obligations.WideSourcesAssert : Prop :=
  ∀ (s : State) (u : Nat),
    let d := s.dev
    let fresh := fun (x : Pace) => ∃ b, b % 65536 = 0 ∧ d.pace.pcnt ≤ b ∧ b < d.pace.pcnt + 65536 ∧
      x = { pcnt := b, base := b, windowNext := b / 64, epochNext := b / 65536 }
    let fenced := fun (t : State) => ∀ p, p < 16 → d.valid p = true → (t.dev.part p).fence = true ∧ (t.dev.part p).epoch = (d.part p).epoch + 1
    let core := fun (o : Host.Outcome State Fault Refusal) (cause : Nat) => ∃ t, o = .next t ∧ t.pending = s.pending ∧
      ({ cause := cause, reach := 4, target := 0, cond := false } : Source) ∈ t.dev.sources ∧ bit (t.dev.reg .rstCause) cause = true ∧
      (d.phase = .running → t.dev.phase = .configure) ∧ (∀ p, (t.dev.part p).mode = .held) ∧ fenced t ∧ t.dev.stage = none ∧ t.dev.raises = [] ∧ t.dev.timers = [] ∧
      t.dev.subs = [] ∧ t.dev.reg .parLock = 0 ∧ t.dev.pace = d.pace ∧ (∀ p, (t.dev.part p).forces = (d.part p).forces) ∧ t.dev.nor = d.nor
    let wide := fun (o : Host.Outcome State Fault Refusal) (cause reach : Nat) (c : Bool) => ∃ t, o = .next t ∧ t.pending = s.pending ∧
      ({ cause := cause, reach := reach, target := 0, cond := c } : Source) ∈ t.dev.sources ∧ bit (t.dev.reg .rstCause) cause = true ∧
      t.dev.phase = (if d.phase = .sealing then .sealing else .off) ∧ (∀ p, (t.dev.part p).mode = .held) ∧ fenced t ∧ t.dev.engines = [] ∧
      t.dev.points = [] ∧ fresh t.dev.pace ∧ t.dev.image = none ∧ t.dev.domains = d.domains ∧ t.dev.nor = d.nor ∧ t.dev.keys = d.keys
    ((d.now < d.pace.windowNext * 64 ∨ ∀ p, p < 16 → (d.part p).recorder.open_ = none) →
      core (exec .swResetCore s) 10 ∧ core (exec (.criticalStateError .tables u) s) 15) ∧
    wide (exec .swResetModule s) 11 5 false ∧ wide (exec .swResetCold s) 12 6 false ∧
    wide (exec (.criticalStateError .config u) s) 16 5 false ∧
    wide (exec (.resetPin true) s) 3 5 true ∧ wide (exec (.lineRst true) s) 4 5 true ∧ wide (exec .thermalTrip s) 17 5 true ∧
    (d.phase ≠ .sealing → wide (exec .supplyFault s) 18 5 false) ∧
    (bit (d.reg .rstMwdctl) 31 = true → max 1 (fld (d.reg .rstMwdctl) 0 16) ≤ d.mwdCount → wide (exec .moduleWatchdog s) 5 5 false)

/-- R408, R482 to R487, R489: a reset of Engine, Cluster or Partition reach holds what it covers and leaves every other engine's
registers; a corrected single-bit error in a save set or a table is counted and resets nothing; a key of 0x5A restarts a watchdog and any other value
nothing; a target that the grade or the table lacks is ignored. Where a vintage is open that the reset closes, the grant window is the one that runs, and
a scrub that the reset ends lets the engines it stopped begin. -/
def Obligations.NarrowSourcesAssert : Prop :=
  ∀ (s : State) (e c p : Nat) (v : Word),
    let d := s.dev
    let asserted := fun (t : State) (cause reach target : Nat) => t.pending = s.pending ∧
      ({ cause := cause, reach := reach, target := target, cond := false } : Source) ∈ t.dev.sources ∧
      bit (t.dev.reg .rstCause) cause = true
    let held := fun (t : State) (k : Nat) => (t.dev.eng k).run = .held ∧ (t.dev.eng k).d = [] ∧ (t.dev.eng k).res = [] ∧
      (t.dev.eng k).lsu = [] ∧ (t.dev.eng k).st = {} ∧ (t.dev.eng k).pc = 0
    let quiet := d.now < d.pace.windowNext * 64 ∨ ∀ p, p < 16 → (d.part p).recorder.open_ = none
    let kept := fun (t : State) (k : Nat) => quiet → (∀ q, q < 16 → (d.part q).scrubbing = false ∧ bit (d.reg .tmxStat) (16 + q) = false) → { t.dev.eng k with ch := (d.eng k).ch } = d.eng k
    (e < d.grade.engines →
      (∃ t, exec (.swResetEngine e) s = .next t ∧ asserted t 7 1 e ∧ held t e ∧ ∀ k, k ≠ e → kept t k) ∧
      (∃ t, exec (.criticalStateError .save e) s = .next t ∧ asserted t 13 1 e ∧ held t e ∧ ∀ k, k ≠ e → kept t k)) ∧
    (c < d.grade.clusters →
      (∃ t, exec (.swResetCluster c) s = .next t ∧ asserted t 8 2 c ∧ (∀ k, k / 16 = c → held t k) ∧ ∀ k, k / 16 ≠ c → kept t k) ∧
      (∃ t, exec (.criticalStateError .dispatch c) s = .next t ∧ asserted t 14 2 c ∧ (∀ k, k / 16 = c → held t k) ∧
        ∀ k, k / 16 ≠ c → kept t k)) ∧
    (d.valid p = true →
      (∃ t, exec (.swResetPartition p) s = .next t ∧ asserted t 9 3 p ∧ bit (t.dev.reg (.parCause p)) 2 = true ∧
        (t.dev.part p).mode = .held ∧ (t.dev.part p).fence = true ∧ (∀ k ∈ d.partEngines p, held t k) ∧
        ∀ k, k / 16 ∉ d.partClusters p → kept t k) ∧
      (bit (d.reg (.parWdctl p)) 31 = true → max 1 (fld (d.reg (.parWdctl p)) 0 16) ≤ (d.part p).wdCount →
        ∃ t, exec (.partitionWatchdog p) s = .next t ∧ asserted t 6 3 p ∧ bit (t.dev.reg (.parCause p)) 0 = true ∧
          (t.dev.part p).mode = .held)) ∧
    (∀ st, (st = .saveSingle ∧ e < d.grade.engines ∨ st = .tablesSingle) →
      ∃ t, exec (.criticalStateError st e) s = .next t ∧ OnlyRegs s t [.cfgEcccnt] ∧
        fld (t.dev.reg .cfgEcccnt) 0 16 = min 65535 (fld (d.reg .cfgEcccnt) 0 16 + 1) ∧
        fld (t.dev.reg .cfgEcccnt) 16 16 = fld (d.reg .cfgEcccnt) 16 16) ∧
    (d.grade.engines ≤ e → exec (.swResetEngine e) s = .next s) ∧ (d.grade.clusters ≤ c → exec (.swResetCluster c) s = .next s) ∧
    (d.valid p = false → exec (.swResetPartition p) s = .next s) ∧
    (fld v 0 8 = 0x5A → p < 16 →
      ∃ t u, exec (.wdkick p v) s = .next t ∧ OnlyPart s t p ∧ t.dev.part p = { d.part p with wdCount := 0, wdPre := false } ∧
        exec (.mwdkick v) s = .next u ∧ u.pending = s.pending ∧ u.dev = { d with mwdCount := 0, mwdPre := false }) ∧
    (fld v 0 8 ≠ 0x5A → exec (.wdkick p v) s = .next s ∧ exec (.mwdkick v) s = .next s)

/-- R24, R483, R486, R487: a source whose condition stands, or whose partition is fenced, is not released; while a wider source stands
a release changes no more than the list; the release of an engine's only source restarts it at the entry of its Free partition. -/
def Obligations.ReleasedSourcesRestart : Prop :=
  ∀ (s : State) (k e p : Nat) (x : Source) (f : List (Nat × Nat)),
    let d := s.dev
    let m := (d.part p).mode
    (d.sources[k]? = some x → (x.cond = true ∨ (x.reach = 3 ∧ (d.part x.target).fence = true)) → exec (.resetRelease k f) s = .next s) ∧
    (d.sources[k]? = some x → x.cond = false → x.reach < 4 → (x.reach = 3 → (d.part x.target).fence = false) → (∃ y ∈ d.sources.eraseIdx k, 4 ≤ y.reach) → x.cause ≠ 18 →
      ∃ t, exec (.resetRelease k f) s = .next t ∧ t.pending = s.pending ∧ t.dev = { d with sources := d.sources.eraseIdx k }) ∧
    (d.sources = [{ cause := 7, reach := 1, target := e, cond := false }] → d.enginesReset = [(e, 1)] → d.engPart e = some p →
      (m = .free ∨ m = .recovery) → (d.part p).changing = none → (d.part p).scrubbing = false → bit (d.reg .tmxStat) (16 + p) = false →
      d.phase = .running → d.ejectStopped = false →
      ∃ t, exec (.resetRelease 0 f) s = .next t ∧ t.pending = s.pending ∧ t.dev.sources = [] ∧ t.dev.enginesReset = [] ∧
        (t.dev.eng e).run = .running ∧ (t.dev.eng e).pc = d.entry p m ∧ (t.dev.eng e).st = { grd := true } ∧
        (∀ j, j ≠ e → t.dev.eng j = d.eng j) ∧ t.dev.mem = d.mem ∧ t.dev.regs = d.regs)

/-! ### The configuration memory -/

/-- R457, R472, R490: a CFG.QCMD command starts where none runs and none of the rules refuses it; a refused one only sets REFUSED, one
that meets another running is ignored. Programs and erases of the running slot are refused, and every command while Configure runs. A command acts on
the address and the page that its start took. Completed, a read fills the page buffer, a program clears bits and sets none, an erase leaves 0xFF in its
sector, an anchor stores the digest of the image's public key; no byte outside changes. On a reported error a program clears no bit that its page keeps
and sets none, an erase clears none, and an armed trial is not written. -/
def Obligations.QueueCommandsStartAndComplete : Prop :=
  ∀ (s : State),
    let d := s.dev
    let commands := [(Instr.read, QCmd.read), (.program, .program), (.erase4k, .erase4k), (.erase64k, .erase64k),
      (.armTrial, .armTrial), (.anchor, .anchor)]
    let at_ := fld (d.reg .cfgQaddr) 0 28
    let nor := fun (t : State) (a : Nat) => Cells.read norBlank t.dev.nor a
    let outside := fun (t : State) (a n : Nat) => ∀ k, (k < a ∨ a + n ≤ k) → nor t k = nor s k
    let done := fun (t : State) (st : Word) => t.pending = s.pending ∧ t.dev.qcmd = none ∧ t.dev.reg .cfgQstat = st ∧
      t.dev.mem = d.mem ∧ t.dev.engines = d.engines ∧ t.dev.points = d.points
    (∀ c q, (c, q) ∈ commands →
      (d.qcmd.isSome = true → exec c s = .next s) ∧
      (d.qcmd = none → d.qcmdRefused q = true →
        ∃ t, exec c s = .next t ∧ OnlyRegs s t [.cfgQstat] ∧ bit (t.dev.reg .cfgQstat) 2 = true) ∧
      (d.stage.isSome = true → d.qcmdRefused q = true) ∧
      (d.qcmd = none → d.qcmdRefused q = false →
        ∃ t, exec c s = .next t ∧ t.dev.reg .cfgQstat = 1 ∧
          OnlyRegs { s with dev := { d with qcmd := some q, qAddr := at_ / q.granule * q.granule, qPage := d.pageBuffer } } t [.cfgQstat])) ∧
    (∀ i q, d.image = some i → q ∈ [QCmd.program, .erase4k, .erase64k] → 0x1000000 ≤ at_ → i.slotB = decide (0x8000000 ≤ at_) →
      d.qcmdRefused q = true) ∧
    (d.canonical = true →
      (d.qcmd = some .read → ∃ t, exec (.qcmdComplete false) s = .next t ∧ done t 0 ∧ t.dev.nor = d.nor ∧
        ∀ i, i < 64 → t.dev.reg (.cfgQbuf i) = word (fromBytes (d.norBytes (d.qAddr + 4 * i) 4))) ∧
      (d.qcmd = some .program → ∃ t u, exec (.qcmdComplete false) s = .next t ∧ exec (.qcmdComplete true) s = .next u ∧ done t 0 ∧ done u 2 ∧
        (∀ i, i < d.qPage.length → nor t (d.qAddr + i) = nor s (d.qAddr + i) &&& d.qPage.getD i 0 ∧
          nor u (d.qAddr + i) &&& nor t (d.qAddr + i) = nor t (d.qAddr + i)) ∧
        outside t d.qAddr d.qPage.length ∧ outside u d.qAddr d.qPage.length ∧ ∀ k, nor u k &&& nor s k = nor u k) ∧
      (∀ q n, (q, n) ∈ [(QCmd.erase4k, 0x1000), (.erase64k, 0x10000)] → d.qcmd = some q →
        ∃ t u, exec (.qcmdComplete false) s = .next t ∧ exec (.qcmdComplete true) s = .next u ∧ done t 0 ∧ done u 2 ∧
          (∀ i, i < n → nor t (d.qAddr + i) = 0xFF ∧ nor u (d.qAddr + i) &&& nor s (d.qAddr + i) = nor s (d.qAddr + i)) ∧
          outside t d.qAddr n ∧ outside u d.qAddr n) ∧
      (∀ i, d.qcmd = some .armTrial → d.image = some i → ∃ t u, exec (.qcmdComplete false) s = .next t ∧
        exec (.qcmdComplete true) s = .next u ∧ done t 0 ∧ done u 2 ∧ outside t 0 0x2000 ∧ u.dev.nor = d.nor) ∧
      (∀ i, d.qcmd = some .anchor → d.image = some i → ∃ t, exec (.qcmdComplete false) s = .next t ∧ done t 0 ∧ t.dev.nor = d.nor ∧
        t.dev.keys = { d.keys with anchor := some (sha256 i.pubkey) }))

/-- R474, R475: in Trial a COMMIT with its key ends the trial and writes only the boot record and the COMMIT byte of a settings
generation, and a FALLBACK with its key asserts the reset of Module reach; with any other value, or outside Trial, nothing happens. -/
def Obligations.TrialIsCommittedOrLeft : Prop :=
  ∀ (s : State) (v : Word),
    let d := s.dev
    let trial := ∃ i, d.image = some i ∧ i.trial = true
    (v ≠ 0x434D ∨ ¬ trial → exec (.commit v) s = .next s) ∧ (v ≠ 0x4642 ∨ ¬ trial → exec (.fallback v) s = .next s) ∧
    (∀ i, d.canonical = true → d.image = some i → i.trial = true →
      ∃ t, exec (.commit 0x434D) s = .next t ∧ t.pending = s.pending ∧ t.dev.image = some { i with trial := false } ∧
        (∀ a, 0x2000 ≤ a → (∀ g ∈ d.generations, a ≠ g + 0x1C) → Cells.read norBlank t.dev.nor a = Cells.read norBlank d.nor a) ∧
        (∀ r, r ≠ .cfgBoot → t.dev.reg r = d.reg r) ∧ { t.dev with image := d.image, nor := d.nor, regs := d.regs } = d) ∧
    (trial → ∃ t, exec (.fallback 0x4642) s = .next t ∧ t.pending = s.pending ∧ t.dev.phase = (if d.phase = .sealing then .sealing else .off) ∧
      ({ cause := 21, reach := 5, target := 0, cond := false } : Source) ∈ t.dev.sources ∧ bit (t.dev.reg .rstCause) 21 = true ∧
      t.dev.image = none)

/-- R35, R422, R451 to R456: a rescan reads the eight addresses of every enabled segment of the writer and waits for every station of its lanes,
where no scan runs; it asks those of the lanes that are up, not muted and of no held partition, with a frame that has its FCS; each read replaces its entry as it completes: the record with the verdict of its MAGIC, FORMAT, NGRP and LENGTH and of its CRC,
ABSENT without an acknowledge, TIMEOUT on a held clock. -/
def Obligations.IdentityIsScanned : Prop :=
  ∀ (s : State) (g a : Nat) (bs : List Byte) (w : Option Nat),
    let d := s.dev
    let b := fun (i : Nat) => (bs.getD i 0).toNat
    let good := b 0 = 0x49 ∧ b 1 = 0x44 ∧ b 2 = 1 ∧ b 11 ≤ 26 ∧ b 3 = b 11 + 5 ∧ 8 * b 3 ≤ bs.length
    let crc := crc32 (bs.take (8 * b 3 - 4)) = word (fromBytes ((bs.drop (8 * b 3 - 4)).take 4))
    let whose := fun (p : Option Nat) => ∀ q, w = some q → p = some q
    let read := fun (t : State) (x : IdEntry) => t.pending = s.pending ∧ (g, a) ∉ t.dev.scanning ∧
      (∀ y, y ≠ (g, a) → (y ∈ t.dev.scanning ↔ y ∈ d.scanning)) ∧ Assoc.get {} t.dev.ids (8 * g + a) = x ∧
      (∀ k, k ≠ 8 * g + a → Assoc.get {} t.dev.ids k = Assoc.get {} d.ids k) ∧ { t.dev with ids := d.ids, scanning := d.scanning } = d
    (d.scanning ≠ [] → exec (.rescan w) s = .next s) ∧
    (d.scanning = [] → ∃ t, exec (.rescan w) s = .next t ∧ t.pending = s.pending ∧
      (∀ x y, (x, y) ∈ t.dev.scanning ↔ x < 8 ∧ y < 8 ∧ bit (d.reg (.idnSeg x)) 1 = true ∧
        whose (some (fld (d.reg (.idnSeg x)) 4 4))) ∧
      (∀ n, n < d.grade.fieldLanes → whose (d.laneOwner n) →
        { t.dev.lane n with sent := (d.lane n).sent } =
          { d.lane n with identPending := List.range (d.stations n).length, identDue := (d.lane n).identDue && !d.laneUp n } ∧
        (d.laneUp n = true → d.laneMuted n = false → (∀ p, d.laneOwner n = some p → d.heldNow p = false) →
          ((t.dev.reg (.fldCnt n 11)).toNat = min (2 ^ 32 - 1) ((d.reg (.fldCnt n 11)).toNat + (d.stations n).length)) ∧
          ∀ st, (d.stations n).getLast? = some st → ∃ b, (t.dev.lane n).sent = b ++ toBytes 4 (crc32 b).toNat ∧ isKryene b = true ∧
            (kryeneOf b).type = 2 ∧ (kryeneOf b).pdlen = 0 ∧ (kryeneOf b).station = st) ∧
        ((d.laneUp n = false ∨ d.laneMuted n = true ∨ ∃ p, d.laneOwner n = some p ∧ d.heldNow p = true) →
          (t.dev.lane n).sent = (d.lane n).sent ∧ ∀ k, t.dev.reg (.fldCnt n k) = d.reg (.fldCnt n k))) ∧
      (∀ n, (d.grade.fieldLanes ≤ n ∨ ¬ whose (d.laneOwner n)) → t.dev.lane n = d.lane n) ∧
      (∀ r, (∀ n, r ≠ .fldCnt n 11) → t.dev.reg r = d.reg r) ∧
      { t.dev with scanning := d.scanning, regs := d.regs, lanes := d.lanes } = d) ∧
    ((g, a) ∈ d.scanning →
      (∃ t, exec (.identityReadComplete g a .noAck) s = .next t ∧ read t { state := .absent, record := [] }) ∧
      (∃ t, exec (.identityReadComplete g a .clockTimeout) s = .next t ∧ read t { state := .timeout, record := [] }) ∧
      (good → crc → ∃ t, exec (.identityReadComplete g a (.data bs)) s = .next t ∧ read t { state := .ok, record := bs.take (8 * b 3) }) ∧
      (good → ¬ crc →
        ∃ t, exec (.identityReadComplete g a (.data bs)) s = .next t ∧ read t { state := .badCrc, record := bs.take (8 * b 3) }) ∧
      (¬ good → ∃ t r, exec (.identityReadComplete g a (.data bs)) s = .next t ∧ read t { state := .badFormat, record := r } ∧ r <+: bs)) ∧
    ((g, a) ∉ d.scanning → exec (.identityReadComplete g a (.data bs)) s = .next s)

/-! ### Host port, links and store ports -/

/-- R180, R442 to R448: a host read drives the bytes of its word whose lanes are enabled, in the order of the mode; a lane that is not, and a read that
meets a write, give an open value; a write stores the bytes whose lanes are enabled and no other, and a write of the doorbell or the acknowledge word
sets DBSRC and raises 0x0A4, or clears its INT bit; where HST.CTL asks for it every write raises 0x0A5; an access that loses a meeting pulses BUSY# again
and is counted; a protocol error is counted and raises 0x0A7, and a read that ends early gives an open value; a strobe while BUSY# is low is ignored;
HST.INTSET sets bits of HST.INT. -/
def Obligations.HostAccessesMailbox : Prop :=
  ∀ (s : State) (a : BitVec 15) (be : BitVec 2) (v : BitVec 16) (x : Word) (hit : Collision),
    let d := s.dev
    let adr := 0xFE00000000 + 2 * a.toNat
    let wide := bit (d.reg .hstCtl) 0
    let even : Byte := if wide then v.extractLsb' 8 8 else v.extractLsb' 0 8
    let odd : Byte := if wide then v.extractLsb' 0 8 else v.extractLsb' 8 8
    let off := if wide then 2 * a.toNat % 0x1000 else 2 * a.toNat
    let image := if wide then 2 * a.toNat / 0x1000 else 0
    let open_ := Config.freeWord d.fresh
    let lane := fun (i : Nat) => if be.getLsbD i = true ∧ hit = .none then d.byte (adr + i) else open_.extractLsb' (8 * i) 8
    let pulsed := fun (t : State) => t.dev.host.collided = decide (hit = .later) ∧ t.dev.host.busyLow = false ∧
      fld (t.dev.reg .hstStat) 16 16 = (if hit = .later then min 65535 (fld (d.reg .hstStat) 16 16 + 1) else fld (d.reg .hstStat) 16 16) ∧
      fld (t.dev.reg .hstStat) 0 16 = fld (d.reg .hstStat) 0 16
    let raised := fun (t : State) (k : Nat) => d.phase ≠ .off → d.sourceOwner k = none → d.routeMuted k (d.reg (.evrRoute k)) = false →
      (d.now + 18, k, d.reg (.evrRoute k)) ∈ t.dev.raises
    (d.host.busyLow = true → exec (.hostRead a be hit) s = .next s ∧ exec (.hostWrite a be v hit) s = .next s ∧
      ∀ err, exec (.protocolError err) s = .next s) ∧
    (d.host.busyLow = false → d.canonical = true → d.marks = [] → d.accesses = [] →
      (∃ t, exec (.hostRead a be hit) s = .next t ∧ t.pending = s.pending ∧ pulsed t ∧
        { t.dev with host := d.host, accesses := d.accesses, fresh := d.fresh, regs := d.regs } = d ∧
        (∀ r, r ≠ .hstStat → t.dev.reg r = d.reg r) ∧ t.dev.host.data = if wide then lane 0 ++ lane 1 else lane 1 ++ lane 0) ∧
      (be ≠ 0 → ∃ t, exec (.hostWrite a be v hit) s = .next t ∧ t.pending = s.pending ∧ pulsed t ∧ t.dev.host.data = d.host.data ∧
        t.dev.byte adr = (if be.getLsbD 0 then even else d.byte adr) ∧
        t.dev.byte (adr + 1) = (if be.getLsbD 1 then odd else d.byte (adr + 1)) ∧
        (∀ k, k ≠ adr → k ≠ adr + 1 → t.dev.byte k = d.byte k) ∧
        (off = (if wide then 0xFFE else 0xFFFE) → bit (t.dev.reg .hstDbsrc) image = true ∧ raised t 0xA4) ∧
        (off = (if wide then 0xFFC else 0xFFFC) → bit (t.dev.reg .hstInt) image = false) ∧
        (bit (d.reg .hstCtl) 1 = true → raised t 0xA5) ∧
        (∀ r, r ≠ .hstDbsrc → r ≠ .hstInt → r ≠ .hstStat → t.dev.reg r = d.reg r) ∧ t.dev.engines = d.engines) ∧
      (∀ err, ∃ t, exec (.protocolError err) s = .next t ∧ t.pending = s.pending ∧ raised t 0xA7 ∧
        fld (t.dev.reg .hstStat) 0 16 = min 65535 (fld (d.reg .hstStat) 0 16 + 1) ∧
        fld (t.dev.reg .hstStat) 16 16 = fld (d.reg .hstStat) 16 16 ∧
        t.dev.host.data = (if err = .readEndedEarly then open_.setWidth 16 else d.host.data) ∧
        (∀ r, r ≠ .hstStat → t.dev.reg r = d.reg r) ∧ t.dev.mem = d.mem)) ∧
    (∃ t, exec (.intset x) s = .next t ∧ OnlyRegs s t [.hstInt] ∧ t.dev.reg .hstInt = d.reg .hstInt ||| (x &&& 0xFFFF))

/-- R299, R435, R436, R438 to R440, R481: on a link lane that is up a block with a bad CRC is counted and nothing of it is taken; one in order is
acknowledged, its updates for inbound windows of the lane are posted and the lane's source raises; one out of order is not taken; the blocks that the peer
acknowledges are done, and those it asks for again are counted as replays; a line reset of the peer resets the module, but for one that comes while stage
8 of Configure runs; a link that goes down leaves every point of its
inbound windows STALE with its value; a trained lane shows its peer and begins its sequence anew; a change of UP raises the lane's status
source (the conditions of the two sources are log entry 67's reading, the replays counted and the queue dropped those of 86 and 97); a line reset goes out. -/
def Obligations.LinksCarryUpdates : Prop :=
  ∀ (s : State) (m p seq ack : Nat) (again : Bool) (peer : BitVec 4) (u : LinkUpdate),
    let d := s.dev
    let a := d.reg (.lnkXwa u.window)
    let b := d.reg (.lnkXwb u.window)
    let inside := fun (k : Nat) => ∃ j, j < 64 ∧ bit (d.reg (.lnkXwa j)) 31 = true ∧ bit (d.reg (.lnkXwa j)) 30 = true ∧
      fld (d.reg (.lnkXwb j)) 16 4 = m ∧ fld (d.reg (.lnkXwa j)) 0 25 ≤ k ∧
      k ≤ fld (d.reg (.lnkXwa j)) 0 25 + fld (d.reg (.lnkXwb j)) 0 16
    let update : Update := { point := fld a 0 25 + u.offset, aux := false, value := u.value, part := p, trig := d.now, posted := d.now,
                             origin := .link m u.aux u.quality u.stamp, arrive := none, coalesced := false }
    let raised := fun (t : State) (src : Nat) => t.dev.raises = (d.raise src).raises ∧ t.dev.heldRaises = (d.raise src).heldRaises
    let x := d.link m
    let left := if x.txSeq < ack then x.unacked else x.unacked.filter (fun b => decide (ack ≤ b.1))
    let replayed := if again = true ∧ ack ≤ x.txSeq then left.length else 0
    let acked := fun (t : State) => (t.dev.link m).unacked = left ∧ (t.dev.link m).txSeq = x.txSeq ∧
      (t.dev.reg (.lnkRetry m)).toNat = (if replayed = 0 then (d.reg (.lnkRetry m)).toNat else
        min (2 ^ 32 - 1) ((d.reg (.lnkRetry m)).toNat + replayed))
    let block := fun (n : Nat) (q : LinkPayload) => ({ seq := n, crcGood := true, payload := q, ack := ack, again := again } : LinkBlock)
    m < d.grade.linkLanes → d.isOffline .linkLane m = false →
    (bit (d.reg (.lnkStat m)) 0 = true →
      (∀ q, seq ≠ x.nextSeq → ∃ t, exec (.linkBlockReceive m (block seq q)) s = .next t ∧ t.pending = s.pending ∧ acked t ∧
        (t.dev.link m).nextSeq = x.nextSeq ∧ (t.dev.link m).ackSent = x.nextSeq ∧ { t.dev with links := d.links, regs := d.regs } = d ∧
        ∀ r, r ≠ .lnkRetry m → t.dev.reg r = d.reg r) ∧
      (d.stage = some 8 → ∃ t, exec (.linkBlockReceive m (block x.nextSeq .lineReset)) s = .next t ∧ t.pending = s.pending ∧ acked t ∧
        { t.dev with links := d.links, regs := d.regs } = d) ∧
      (d.stage = none → (d.phase = .running ∨ d.phase = .cocoon ∨ d.phase = .ejectDrain) → bit (d.reg (.lnkCtl m)) 1 = true →
        ∃ t, exec (.linkBlockReceive m (block x.nextSeq .lineReset)) s = .next t ∧ t.pending = s.pending ∧ t.dev.phase = .off ∧
          ({ cause := 20, reach := 5, target := 0, cond := false } : Source) ∈ t.dev.sources) ∧
      (∃ t, exec (.linkBlockReceive m { seq := seq, crcGood := false, payload := .updates [u], ack := ack, again := again }) s = .next t ∧ OnlyRegs s t [.lnkRetry m] ∧
        (t.dev.reg (.lnkRetry m)).toNat = min (2 ^ 32 - 1) ((d.reg (.lnkRetry m)).toNat + 1)) ∧
      (seq = x.nextSeq → bit (d.reg (.lnkStat m)) 6 = false → d.linkOwner m = some p → d.released p = true → u.window < 64 →
        bit a 31 = true → bit a 30 = true → fld b 16 4 = m → u.offset ≤ fld b 0 16 →
        ∃ t, exec (.linkBlockReceive m (block seq (.updates [u]))) s = .next t ∧ t.pending = s.pending ∧ acked t ∧
          (t.dev.link m).nextSeq = seq + 1 ∧ (t.dev.link m).ackSent = seq + 1 ∧ (∀ j, j ≠ m → t.dev.link j = d.link j) ∧
          t.dev.inFlight = d.inFlight ++ [update] ∧ raised t (0x80 + 2 * m) ∧
          (∀ r, r ≠ .lnkRetry m → t.dev.reg r = d.reg r) ∧
          { t.dev with inFlight := d.inFlight, links := d.links, regs := d.regs, raises := d.raises, heldRaises := d.heldRaises } = d) ∧
      (∃ t, exec (.linkDown m false) s = .next t ∧ t.pending = s.pending ∧ t.dev.reg (.lnkStat m) = 0 ∧
        (∀ r, r ≠ .lnkStat m → t.dev.reg r = d.reg r) ∧
        (∀ k, inside k → t.dev.point k = { d.point k with squal := (d.point k).squal ||| 2 }) ∧
        (∀ k, ¬ inside k → t.dev.point k = d.point k) ∧ raised t (0x80 + 2 * m + 1) ∧
        { t.dev with points := d.points, staleRanges := d.staleRanges, regs := d.regs, raises := d.raises, heldRaises := d.heldRaises } = d) ∧
      (∃ t, exec (.lineReset m) s = .next t ∧ t.pending = s.pending ∧ { t.dev with links := d.links } = d ∧
        (t.dev.link m).outbox = (d.link m).outbox ++ [.lineReset] ∧ ∀ j, j ≠ m → t.dev.link j = d.link j)) ∧
    (bit (d.reg (.lnkCtl m)) 0 = true → d.domain 82 = .on →
      ∃ t, exec (.linkLaneUp m peer) s = .next t ∧ t.pending = s.pending ∧ bit (t.dev.reg (.lnkStat m)) 0 = true ∧
        fld (t.dev.reg (.lnkStat m)) 2 4 = peer.toNat ∧
        bit (t.dev.reg (.lnkStat m)) 6 = decide (fld (d.reg (.lnkCtl m)) 2 4 ≠ peer.toNat) ∧ t.dev.link m = {} ∧
        (∀ r, r ≠ .lnkStat m → t.dev.reg r = d.reg r) ∧ (bit (d.reg (.lnkStat m)) 0 = false → raised t (0x80 + 2 * m + 1)) ∧
        (bit (d.reg (.lnkStat m)) 0 = true → t.dev.raises = d.raises) ∧
        { t.dev with links := d.links, regs := d.regs, raises := d.raises, heldRaises := d.heldRaises } = d)

/-- R370, R430, R432 to R434, R479: a store port that comes up shows its controller, ready, with its speed and width within the limits of PCTL, and
takes only namespaces of 4,096-byte blocks without metadata or protection and of at least 1,042 blocks, numbered by port, sub-port and NSID; each that
a partition owns holds its header, in two blocks, and the others are counted; AER events and failed commands are counted, and where the write cache
could not be disabled the Writes carry FUA. A surprise down takes the controller and its namespaces out and raises the port's status
source. -/
def Obligations.StorePortsComeAndGo : Prop :=
  ∀ (s : State) (n k : Nat) (speed : BitVec 2) (width : BitVec 3) (found : ControllerReport),
    let d := s.dev
    let spaces := found.spaces
    let count := fun (t : State) (i j : Nat) => (t.dev.namespaces.filter (fun x => decide (x.port = i) && decide (x.sub = j))).length
    let good := fun (x : NamespaceInfo) => x.blockBytes = 4096 ∧ x.metadata = false ∧ x.protection = false ∧ 1042 ≤ x.lbas
    let ordered := fun (x y : Namespace) => x.port < y.port ∨ (x.port = y.port ∧ (x.sub < y.sub ∨ (x.sub = y.sub ∧ x.nsid ≤ y.nsid)))
    d.grade.hasCellar = true → n < 2 → k < 2 →
    ((k = 0 ∨ bit (d.reg (.stoPctl n)) 2 = true) → d.domain (80 + n) = .on → bit (d.reg (.stoPstat n k)) 7 = false →
      ∃ t, exec (.storePortLinkUp n k speed width found) s = .next t ∧ t.pending = s.pending ∧
        bit (t.dev.reg (.stoPstat n k)) 0 = true ∧ bit (t.dev.reg (.stoPstat n k)) 6 = true ∧ bit (t.dev.reg (.stoPstat n k)) 7 = false ∧
        fld (t.dev.reg (.stoPstat n k)) 4 2 = min speed.toNat (fld (d.reg (.stoPctl n)) 0 2) ∧
        fld (t.dev.reg (.stoPstat n k)) 1 3 = min width.toNat (if bit (d.reg (.stoPctl n)) 2 then 3 else 4) ∧
        fld (t.dev.reg (.stoPstat n k)) 16 9 = count t n k % 512 ∧
        (∀ i j, i < 2 → j < 2 → (i, j) ≠ (n, k) → t.dev.reg (.stoPstat i j) = setFld (d.reg (.stoPstat i j)) 16 9 (count t i j)) ∧
        t.dev.namespaces.length ≤ 512 ∧ (d.namespaces.Pairwise ordered → t.dev.namespaces.Pairwise ordered) ∧
        (∀ x ∈ t.dev.namespaces, (x.port = n ∧ x.sub = k → x.failed = false ∧ x.fua = !found.cacheOff ∧ ∃ y ∈ spaces, good y ∧ y.nsid = x.nsid ∧ y.lbas = x.lbas) ∧
          (¬ (x.port = n ∧ x.sub = k) → ∃ y ∈ d.namespaces, x = { y with header := x.header })) ∧
        (d.namespaces.length + spaces.length ≤ 512 → ∀ y ∈ spaces, good y →
          ∃ x ∈ t.dev.namespaces, x.port = n ∧ x.sub = k ∧ x.nsid = y.nsid ∧ x.lbas = y.lbas ∧ x.failed = false) ∧
        (d.namespaces.length + spaces.length ≤ 512 → (t.dev.reg .stoNsrej).toNat =
          min (2 ^ 32 - 1) ((d.reg .stoNsrej).toNat + (spaces.filter (fun y => !NamespaceInfo.accepted y)).length)) ∧
        (∀ (i : Nat) x, t.dev.namespaces[i]? = some x → x.header =
          if bit (d.reg (.parNs (i / 4))) (8 * (i % 4) + 7) then
            some { part := fld (d.reg (.parNs (i / 4))) (8 * (i % 4)) 4, number := i, slots := (x.lbas - 1026) / 16 } else none) ∧
        (∀ (i : Nat) x h, t.dev.namespaces[i]? = some x → x.header = some h →
          Assoc.get [] t.dev.blocks (i, 0) = h.encode ∧ Assoc.get [] t.dev.blocks (i, 1) = h.encode) ∧
        (t.dev.reg (.stoErr n k)).toNat = min (2 ^ 32 - 1)
          ((d.reg (.stoErr n k)).toNat + found.aer + found.failed + if found.cacheOff then 0 else 1) ∧
        (∀ r, (∀ i j, r ≠ .stoPstat i j) → r ≠ .stoNsrej → r ≠ .stoErr n k → t.dev.reg r = d.reg r) ∧
        { t.dev with namespaces := d.namespaces, blocks := d.blocks, regs := d.regs } = d) ∧
    (bit (d.reg (.stoPstat n k)) 0 = true →
      ∃ t, exec (.surpriseDown n k) s = .next t ∧ t.pending = s.pending ∧ bit (t.dev.reg (.stoPstat n k)) 0 = false ∧
        bit (t.dev.reg (.stoPstat n k)) 7 = true ∧ (∀ r, r ≠ .stoPstat n k → t.dev.reg r = d.reg r) ∧
        t.dev.namespaces = d.namespaces.map (fun x => if x.port = n ∧ x.sub = k then { x with failed := true } else x) ∧
        t.dev.raises = (d.raise (0xA0 + 2 * n + 1)).raises ∧ t.dev.heldRaises = (d.raise (0xA0 + 2 * n + 1)).heldRaises ∧
        { t.dev with namespaces := d.namespaces, regs := d.regs, raises := d.raises, heldRaises := d.heldRaises } = d)

/-! ### Test access and device registers -/

/-- R508, R509: a test multiplexer takes a probe only of a partition in Recovery, a module probe only once every partition is scrubbed,
and otherwise sets REF; a scrub of a partition in Recovery clears its memories and stops its engines, and its end sets SCRUBBED; the
wrong key does nothing. -/
def Obligations.ProbesNeedRecoveryAndScrub : Prop :=
  ∀ (s : State) (k p : Nat) (v : Word),
    let d := s.dev
    let n := fld v 0 13
    let idle := fun (q : Nat) => (d.part q).mode = .recovery ∧ (d.part q).changing = none ∧ d.partCovered q = false
    let may := if n < 8064 then ∃ q, d.clusterOwner (n / 126) = some q ∧ n / 126 < d.grade.clusters ∧ idle q
      else ∀ q, q < 16 → d.valid q = true → idle q ∧ bit (d.reg .tmxStat) (16 + q) = true
    let cleared := fun (t : State) => t.pending = s.pending ∧ t.dev.engines.length = d.engines.length ∧
      ∀ a, t.dev.byte a = if d.inPartMemory p a then 0 else d.byte a
    (k < 8 →
      ((bit v 31 = false ∨ may) → ∃ t, exec (.tmxSelect k v) s = .next t ∧ OnlyRegs s t [.tmxSel k] ∧
        t.dev.reg (.tmxSel k) = v &&& 0x80007FFF) ∧
      (bit v 31 = true → ¬ may → ∃ t, exec (.tmxSelect k v) s = .next t ∧ OnlyRegs s t [.tmxStat] ∧ bit (t.dev.reg .tmxStat) k = true)) ∧
    (fld v 24 8 ≠ 0xA5 → exec (.scrub v) s = .next s) ∧
    (fld v 24 8 = 0xA5 → p = fld v 0 4 →
      (¬ idle p → ∃ t, exec (.scrub v) s = .next t ∧ OnlyRegs s t [.tmxScrst] ∧ bit (t.dev.reg .tmxScrst) 0 = true) ∧
      (idle p → ∃ t, exec (.scrub v) s = .next t ∧ cleared t ∧ (t.dev.part p).scrubbing = true ∧
        (∀ e ∈ d.partEngines p, (t.dev.eng e).run ≠ .running ∧ (t.dev.eng e).d = [] ∧ (t.dev.eng e).lsu = []) ∧
        ∀ e, e ∉ d.partEngines p → t.dev.eng e = d.eng e)) ∧
    (p < 16 → (d.part p).scrubbing = true →
      ∃ t, exec (.scrubComplete p) s = .next t ∧ cleared t ∧ (t.dev.part p).scrubbing = false ∧
        bit (t.dev.reg .tmxStat) (16 + p) = true ∧ t.dev.engines = d.engines)

/-- R511, R512: EXTEST, CLAMP and HIGHZ take effect only without an image or under RESET#, and otherwise leave BYPASS and the refusal;
IDCODE names the grade, MSTAT shows supplies, pins and the refusal. What a capture of the contacts holds is open (log entry 15). -/
def Obligations.TestPortHoldsInstruction : Prop :=
  ∀ (s : State) (cells : List Bool),
    let d := s.dev
    let open_ := d.phase = .noimage ∨ d.pins.resetLow = true
    let tap := fun (o : Host.Outcome State Fault Refusal) (x : Tap) => ∃ t, o = .next t ∧ t.pending = s.pending ∧ t.dev = { d with tap := x }
    let captured := fun (o : Host.Outcome State Fault Refusal) (x : Tap) => ∃ t, o = .next t ∧ t.pending = s.pending ∧
      t.dev = { d with fresh := d.fresh + 1, tap := { x with out := Config.freeWord d.fresh } }
    let code : Word := match d.grade with
      | .x1024P => 0x1A4015AF | .x1024C => 0x1A4025AF | .x512C => 0x1A4035AF | .x256E => 0x1A4045AF
    let refused : Tap := { d.tap with ir := .bypass, refused := true }
    (open_ → captured (exec (.extest cells) s) { d.tap with ir := .extest, cells := cells, refused := false } ∧
      tap (exec .clamp s) { d.tap with ir := .clamp, refused := false } ∧ tap (exec .highz s) { d.tap with ir := .highz, refused := false }) ∧
    (¬ open_ → tap (exec (.extest cells) s) refused ∧ tap (exec .clamp s) refused ∧ tap (exec .highz s) refused) ∧
    captured (exec (.samplePreload cells) s) { d.tap with ir := .samplePreload, cells := cells } ∧
    tap (exec .bypass s) { d.tap with ir := .bypass } ∧
    tap (exec .idcode s) { d.tap with ir := .idcode, out := code } ∧
    ∃ w, tap (exec .mstat s) { d.tap with ir := .mstat, out := w } ∧ bit w 0 = d.pins.auxGood ∧ bit w 1 = d.pins.mainGood ∧
      bit w 2 = d.pins.seatLow ∧ bit w 3 = d.pins.removeOk ∧ bit w 6 = d.tap.refused

/-- R15, R196, R396, R407: a write that its ring and its partition permit, of a present register that only holds its fields, takes the datum into its RW
and WO bits and, before the lock, its RWL bits, clears the W1C bits it writes as 1, leaves the rest, and changes no other register; a write of a
command register is that command. Ring 0 reaches every register; a higher ring those of its block within the block's limit, and of a partition's
registers its own alone, of whose fields in PAR it writes only the W1C bits (log entry 96), a shadow those of the partition it decants (log entry 75). A
write that is not permitted changes nothing (log entry 1). -/
def Obligations.RegisterWritesFollowAccess : Prop :=
  ∀ (s : State) (x : Writer) (r : Reg) (b p e w : Nat) (v : Word) (r1 : Nat),
    let d := s.dev
    let acts := match r with
      | .rstSwrst | .rstMwdctl | .rstMwdkick | .pwrCctl | .pwrDom _ | .cfgCommit | .cfgFallback | .cfgQcmd | .parMode _ | .parWdctl _
      | .parWdkick _ | .trlSvc | .evrRoute _ | .evrTctl _ | .evrTper _ | .evrRaise _ | .ptrFctl _ | .timAdj | .timCmd | .celKctl
      | .celCtl _ | .fldRxb _ | .fldTxb _ | .lnkCmd | .hstIntset | .idnCmd | .tmxSel _ | .tmxScrub => true
      | _ => false
    let highest := if b ∈ [3, 5, 6, 8, 9, 12, 13] then 1 else if b ≤ 14 then 0 else 3
    let reaches := x.ring = 0 ∨ (x.ring.toNat ≤ highest ∧ (d.regScope r = .block ∨ ∃ q, d.regScope r = .ofPart q ∧ d.standsFor x.part q = true))
    let write := exec (.registerWrite x r.addr v) s
    (regionOf r.addr = some (.device b) → Reg.ofAddr r.addr = some r → r.addr % 4 = 0 → absentUnit d.grade r.addr = false →
      (¬ reaches → write = .next s) ∧
      (reaches → acts = false → ∃ t, write = .next t ∧ OnlyRegs s t [r] ∧ ∀ i, i < 32 →
        bit (t.dev.reg r) i = if bit v i ∧ bit r.access.w1c i then false
          else if (x.ring = 0 ∨ r.ringZeroFields = false) ∧
            (bit r.access.rw i ∨ bit r.access.hidden i ∨ (bit r.access.rwl i ∧ bit (d.reg .parLock) 0 = false)) then bit v i
          else bit (d.reg r) i) ∧
      (reaches → (∀ q, r = .parMode q → write = exec (.modeRequest q (BitVec.ofNat 3 (fld v 0 3))) s) ∧
        (∀ q, r = .pwrDom q → write = exec (.vset q (BitVec.ofNat 8 (fld v 8 8))) s) ∧
        (∀ q, r = .parWdkick q → write = exec (.wdkick q v) s) ∧ (r = .rstMwdkick → write = exec (.mwdkick v) s) ∧
        (r = .cfgCommit → write = exec (.commit v) s) ∧ (r = .cfgFallback → write = exec (.fallback v) s) ∧
        (∀ q, r = .evrRaise q → write = exec (.softwareRaise q v) s) ∧
        (∀ q, r = .evrTctl q → write = exec (.timerArm q false v) s) ∧ (∀ q, r = .evrTper q → write = exec (.timerArm q true v) s) ∧
        (∀ q, r = .ptrFctl q → fld v 0 2 = 1 → write = exec (.force q) s) ∧
        (∀ q, r = .ptrFctl q → fld v 0 2 = 2 → write = exec (.forceRelease q) s) ∧
        (r = .timCmd → fld v 0 2 = 1 → write = exec .timSet s) ∧ (r = .timCmd → fld v 0 2 = 2 → write = exec .timOffset s) ∧
        (r = .timAdj → write = exec (.timAdj v) s) ∧ (r = .celKctl → fld v 0 2 = 1 → write = exec .enroll s) ∧
        (r = .celKctl → fld v 0 2 = 2 → write = exec (.newkey (fld v 4 4)) s) ∧ (r = .celKctl → fld v 0 2 = 3 → write = exec .clear s) ∧
        (r = .lnkCmd → fld v 8 2 = 1 → write = exec (.lineReset (fld v 0 4)) s) ∧ (r = .hstIntset → write = exec (.intset v) s) ∧
        (r = .idnCmd → bit v 0 = true → write = exec (.rescan (if x.ring = 0 then none else x.part)) s) ∧
        (∀ q, r = .tmxSel q → write = exec (.tmxSelect q v) s) ∧ (r = .tmxScrub → write = exec (.scrub v) s))) ∧
    (
    let zero : Writer := { ring := 0, part := none }
    let one := fun (q : Nat) => ({ ring := 1, part := some q } : Writer)
    p < 16 → e < d.grade.engines → w < 6 →
    (∀ x, x = zero ∨ x = one p →
      (∃ t, exec (.registerWrite x (0xFF00610008 + 0x100 * p) v) s = .next t ∧ OnlyRegs s t [.ptrFval p] ∧ t.dev.reg (.ptrFval p) = v) ∧
      (∃ t, exec (.registerWrite x (0xFF00610004 + 0x100 * p) v) s = .next t ∧ OnlyRegs s t [.ptrFpnt p] ∧
        fld (t.dev.reg (.ptrFpnt p)) 0 25 = fld v 0 25 ∧ fld (t.dev.reg (.ptrFpnt p)) 25 7 = fld (d.reg (.ptrFpnt p)) 25 7) ∧
      (∃ t, exec (.registerWrite x (0xFF00310048 + 0x100 * p) v) s = .next t ∧ OnlyRegs s t [.parCause p] ∧
        t.dev.reg (.parCause p) = d.reg (.parCause p) &&& ~~~ (v &&& 0x3F))) ∧
    (∃ t, exec (.registerWrite zero (0xFF00508000 + 0x20 * e + 0x4 * w) v) s = .next t ∧ OnlyRegs s t [.evrEnt e w] ∧
      t.dev.reg (.evrEnt e w) = v) ∧
    (∃ t, exec (.registerWrite zero (Reg.timCycle p).addr v) s = .next t ∧ OnlyRegs s t [.timCycle p] ∧
      t.dev.reg (.timCycle p) = if bit (d.reg .parLock) 0 then d.reg (.timCycle p) else (d.reg (.timCycle p) &&& 0xFF000000) ||| (v &&& 0xFFFFFF)) ∧
    (∃ t, exec (.registerWrite zero 0xFF00F00000 v) s = .next t ∧ OnlyRegs s t []) ∧
    (d.standsFor (some r1) p = false → exec (.registerWrite (one r1) (0xFF00610008 + 0x100 * p) v) s = .next s) ∧
    exec (.registerWrite { ring := 3, part := some p } (0xFF00610008 + 0x100 * p) v) s = .next s ∧
    exec (.registerWrite (one p) (Reg.timCycle p).addr v) s = .next s)

/-! ### What every step keeps -/

/-- R76 to R93: the decoder of the engines reads back every well-formed instruction from its bytes, with every operand at every value
the encoding admits and whatever bytes follow. -/
def Obligations.MoveEncodingRoundTrips : Prop :=
  ∀ (i : Move) (rest : List Byte), i.wf = true → decodeMove (encodeMove i ++ rest) = .ok i (encodeMove i).length

/-- No command and no idle period takes a memory out of its canonical form: addresses strictly rising, no listed byte equal to what an
unlisted one reads as. -/
def Obligations.EveryStepKeepsMemoriesCanonical : Prop :=
  ∀ (s t : State), s.safe = true → step s = .next t → t.safe = true

/-- R24, R112, R483, R489: the state after reset is canonical and idle: nothing waits, every partition is held, no engine runs, no
register holds anything, no reset source is asserted. The values the spec does not give are the model's (log entries 3, 10). -/
def Obligations.ResetIsCanonicalAndIdle : Prop :=
  State.reset.safe = true ∧ State.reset.pending = [] ∧ State.reset.dev.phase = .off ∧ State.reset.dev.sources = [] ∧
  (∀ p, (State.reset.dev.part p).mode = .held ∧ (State.reset.dev.part p).pending = none) ∧
  (∀ e, (State.reset.dev.eng e).run = .held ∧ (State.reset.dev.eng e).st.ring = 0 ∧ (State.reset.dev.eng e).st.lvl = 0 ∧
    (State.reset.dev.eng e).acst = 0 ∧ ∀ r, ((State.reset.dev.eng e).result r).readable = false) ∧
  (∀ r, State.reset.dev.reg r = 0) ∧ (∀ p, (State.reset.dev.point p).value = 0 ∧ (State.reset.dev.point p).squal = 0) ∧
  State.reset.dev.pace.s = 1 ∧ State.reset.dev.pace.pcnt = 0

end
end

