-- ==== Sys2Proof/Laws/Assoc.lean ====
section
/-! SUPPORT. Read after write for the association lists that hold sparse state. -/

namespace Sys2Proof

/-- A key reads back what was put there. -/
@[simp] theorem Assoc.get_put_self {κ α : Type} [DecidableEq κ] (dflt : α) (t : Assoc κ α) (k : κ) (x : α) :
    Assoc.get dflt (Assoc.put t k x) k = x := by
  induction t with
  | nil => simp [Assoc.put, Assoc.get]
  | cons h rest ih =>
    obtain ⟨q, v⟩ := h
    by_cases hq : q = k <;> simp [Assoc.put, Assoc.get, hq, ih]

/-- A put leaves every other key. -/
theorem Assoc.get_put_of_ne {κ α : Type} [DecidableEq κ] (dflt : α) (t : Assoc κ α) (k q : κ) (x : α) (h : q ≠ k) :
    Assoc.get dflt (Assoc.put t k x) q = Assoc.get dflt t q := by
  induction t with
  | nil => simp [Assoc.put, Assoc.get, Ne.symm h]
  | cons p rest ih =>
    obtain ⟨j, v⟩ := p
    by_cases hj : j = k
    · subst hj; simp [Assoc.put, Assoc.get, Ne.symm h]
    · by_cases hq : j = q
      · subst hq; simp [Assoc.put, Assoc.get, hj]
      · simp [Assoc.put, Assoc.get, hj, hq, ih]

/-- Every key after a put. -/
theorem Assoc.get_put {κ α : Type} [DecidableEq κ] (dflt : α) (t : Assoc κ α) (k q : κ) (x : α) :
    Assoc.get dflt (Assoc.put t k x) q = if q = k then x else Assoc.get dflt t q := by
  split
  · subst_vars; exact Assoc.get_put_self dflt t _ x
  · rename_i h; exact Assoc.get_put_of_ne dflt t k q x h

end Sys2Proof
end

