-- ==== Sys2Proof/Laws/State.lean ====
section
/-! SUPPORT. What each named update of the block leaves and changes: one lemma for the fields, one for the accessors, one for
what it changes. All are simp lemmas, so that no proof unfolds a record update. -/

namespace Sys2Proof.Machine

/-- A register reads back what was stored. -/
@[simp] theorem Device.setReg_self (d : Device) (r : Reg) (w : Word) : (d.setReg r w).reg r = w := by
  simp [Device.setReg, Device.reg]
/-- Storing a register leaves the others. -/
theorem Device.setReg_other (d : Device) (r q : Reg) (w : Word) (h : q ≠ r) : (d.setReg r w).reg q = d.reg q := by
  simp [Device.setReg, Device.reg, Assoc.get_put_of_ne _ _ _ _ _ h]
/-- Every register after a store. -/
theorem Device.reg_setReg (d : Device) (r q : Reg) (w : Word) : (d.setReg r w).reg q = if q = r then w else d.reg q := by
  split
  · subst_vars; simp
  · rename_i h; exact Device.setReg_other d r q w h
/-- A field store stores the word with the field. -/
@[simp] theorem Device.setRegFld_self (d : Device) (r : Reg) (lo len v : Nat) :
    (d.setRegFld r lo len v).reg r = setFld (d.reg r) lo len v := by simp [Device.setRegFld]
theorem Device.setRegFld_other (d : Device) (r q : Reg) (lo len v : Nat) (h : q ≠ r) :
    (d.setRegFld r lo len v).reg q = d.reg q := Device.setReg_other d r q _ h
/-- A bit store stores the word with the bit. -/
@[simp] theorem Device.setRegBit_self (d : Device) (r : Reg) (i : Nat) (b : Bool) :
    (d.setRegBit r i b).reg r = setBit (d.reg r) i b := by simp [Device.setRegBit]
theorem Device.setRegBit_other (d : Device) (r q : Reg) (i : Nat) (b : Bool) (h : q ≠ r) :
    (d.setRegBit r i b).reg q = d.reg q := Device.setReg_other d r q _ h
/-- An engine reads back what was stored. -/
@[simp] theorem Device.setEng_self (d : Device) (e : Nat) (x : Engine) : (d.setEng e x).eng e = x := by
  simp [Device.setEng, Device.eng]
theorem Device.setEng_other (d : Device) (e q : Nat) (x : Engine) (h : q ≠ e) : (d.setEng e x).eng q = d.eng q := by
  simp [Device.setEng, Device.eng, Assoc.get_put_of_ne _ _ _ _ _ h]
/-- A change of the block leaves the queue. -/
@[simp] theorem State.onDev_pending (s : State) (f : Device → Device) : (s.onDev f).pending = s.pending := rfl
@[simp] theorem State.onDev_dev (s : State) (f : Device → Device) : (s.onDev f).dev = f s.dev := rfl

/-- What `Device.setReg` leaves: every field but regs. -/
@[simp] theorem Device.setReg_fields (d : Device) (r : Reg) (w : Word) :
    (d.setReg r w).grade = d.grade ∧ (d.setReg r w).phase = d.phase ∧ (d.setReg r w).fresh = d.fresh ∧
    (d.setReg r w).pace = d.pace ∧ (d.setReg r w).mem = d.mem ∧ (d.setReg r w).marks = d.marks ∧
    (d.setReg r w).unfilled = d.unfilled ∧ (d.setReg r w).cache = d.cache ∧ (d.setReg r w).cachePicks = d.cachePicks ∧
    (d.setReg r w).accesses = d.accesses ∧ (d.setReg r w).fusedSpares = d.fusedSpares ∧
    (d.setReg r w).fusedColumns = d.fusedColumns ∧ (d.setReg r w).nor = d.nor ∧ (d.setReg r w).norPresent = d.norPresent ∧
    (d.setReg r w).flashDig = d.flashDig ∧ (d.setReg r w).flashKept = d.flashKept ∧ (d.setReg r w).selfTest = d.selfTest ∧
    (d.setReg r w).engines = d.engines ∧ (d.setReg r w).clusters = d.clusters ∧ (d.setReg r w).points = d.points ∧
    (d.setReg r w).staleRanges = d.staleRanges ∧ (d.setReg r w).subs = d.subs ∧ (d.setReg r w).inFlight = d.inFlight ∧
    (d.setReg r w).routers = d.routers ∧ (d.setReg r w).raises = d.raises ∧ (d.setReg r w).heldRaises = d.heldRaises ∧
    (d.setReg r w).lineDue = d.lineDue ∧ (d.setReg r w).timers = d.timers ∧ (d.setReg r w).lanes = d.lanes ∧
    (d.setReg r w).links = d.links ∧ (d.setReg r w).namespaces = d.namespaces ∧ (d.setReg r w).store = d.store ∧
    (d.setReg r w).blocks = d.blocks ∧ (d.setReg r w).ids = d.ids ∧ (d.setReg r w).scanning = d.scanning ∧
    (d.setReg r w).host = d.host ∧ (d.setReg r w).parts = d.parts ∧ (d.setReg r w).sources = d.sources ∧
    (d.setReg r w).image = d.image ∧ (d.setReg r w).stage = d.stage ∧ (d.setReg r w).qcmd = d.qcmd ∧
    (d.setReg r w).qAddr = d.qAddr ∧ (d.setReg r w).qPage = d.qPage ∧ (d.setReg r w).returning = d.returning ∧
    (d.setReg r w).failedSlots = d.failedSlots ∧ (d.setReg r w).enginesReset = d.enginesReset ∧
    (d.setReg r w).domains = d.domains ∧ (d.setReg r w).mwdCount = d.mwdCount ∧ (d.setReg r w).mwdPre = d.mwdPre ∧
    (d.setReg r w).ejectReset = d.ejectReset ∧ (d.setReg r w).ejectStopped = d.ejectStopped ∧ (d.setReg r w).pins = d.pins ∧
    (d.setReg r w).tap = d.tap ∧ (d.setReg r w).targets = d.targets ∧ (d.setReg r w).keys = d.keys ∧
    (d.setReg r w).answer = d.answer :=
  ⟨rfl, rfl, rfl, rfl, rfl, rfl, rfl, rfl, rfl, rfl, rfl, rfl, rfl, rfl, rfl, rfl, rfl, rfl, rfl, rfl, rfl, rfl, rfl, rfl, rfl, rfl, rfl, rfl, rfl, rfl, rfl, rfl, rfl, rfl, rfl, rfl, rfl, rfl, rfl, rfl, rfl, rfl, rfl, rfl, rfl, rfl, rfl, rfl, rfl, rfl, rfl, rfl, rfl, rfl, rfl, rfl⟩

/-- What `Device.setReg` leaves, by accessor. -/
@[simp] theorem Device.setReg_reads (d : Device) (r : Reg) (w : Word) :
    (∀ (q : Nat), (d.setReg r w).eng q = d.eng q) ∧ (∀ (q : Nat), (d.setReg r w).cluster q = d.cluster q) ∧
    (∀ (q : Nat), (d.setReg r w).part q = d.part q) ∧ (∀ (q : Nat), (d.setReg r w).lane q = d.lane q) ∧
    (∀ (q : Nat), (d.setReg r w).point q = d.point q) ∧ (∀ (q : Nat), (d.setReg r w).link q = d.link q) ∧
    (∀ (q : Nat), (d.setReg r w).target q = d.target q) ∧ (∀ (q : Nat), (d.setReg r w).router q = d.router q) ∧
    (∀ (q : Nat), (d.setReg r w).byte q = d.byte q) ∧ ((d.setReg r w).now = d.now) :=
  ⟨fun _ => rfl, fun _ => rfl, fun _ => rfl, fun _ => rfl, fun _ => rfl, fun _ => rfl, fun _ => rfl, fun _ => rfl, fun _ => rfl, rfl⟩

/-- What `Device.setRegFld` leaves: every field but regs. -/
@[simp] theorem Device.setRegFld_fields (d : Device) (r : Reg) (lo len v : Nat) :
    (d.setRegFld r lo len v).grade = d.grade ∧ (d.setRegFld r lo len v).phase = d.phase ∧
    (d.setRegFld r lo len v).fresh = d.fresh ∧ (d.setRegFld r lo len v).pace = d.pace ∧ (d.setRegFld r lo len v).mem = d.mem ∧
    (d.setRegFld r lo len v).marks = d.marks ∧ (d.setRegFld r lo len v).unfilled = d.unfilled ∧
    (d.setRegFld r lo len v).cache = d.cache ∧ (d.setRegFld r lo len v).cachePicks = d.cachePicks ∧
    (d.setRegFld r lo len v).accesses = d.accesses ∧ (d.setRegFld r lo len v).fusedSpares = d.fusedSpares ∧
    (d.setRegFld r lo len v).fusedColumns = d.fusedColumns ∧ (d.setRegFld r lo len v).nor = d.nor ∧
    (d.setRegFld r lo len v).norPresent = d.norPresent ∧ (d.setRegFld r lo len v).flashDig = d.flashDig ∧
    (d.setRegFld r lo len v).flashKept = d.flashKept ∧ (d.setRegFld r lo len v).selfTest = d.selfTest ∧
    (d.setRegFld r lo len v).engines = d.engines ∧ (d.setRegFld r lo len v).clusters = d.clusters ∧
    (d.setRegFld r lo len v).points = d.points ∧ (d.setRegFld r lo len v).staleRanges = d.staleRanges ∧
    (d.setRegFld r lo len v).subs = d.subs ∧ (d.setRegFld r lo len v).inFlight = d.inFlight ∧
    (d.setRegFld r lo len v).routers = d.routers ∧ (d.setRegFld r lo len v).raises = d.raises ∧
    (d.setRegFld r lo len v).heldRaises = d.heldRaises ∧ (d.setRegFld r lo len v).lineDue = d.lineDue ∧
    (d.setRegFld r lo len v).timers = d.timers ∧ (d.setRegFld r lo len v).lanes = d.lanes ∧
    (d.setRegFld r lo len v).links = d.links ∧ (d.setRegFld r lo len v).namespaces = d.namespaces ∧
    (d.setRegFld r lo len v).store = d.store ∧ (d.setRegFld r lo len v).blocks = d.blocks ∧
    (d.setRegFld r lo len v).ids = d.ids ∧ (d.setRegFld r lo len v).scanning = d.scanning ∧
    (d.setRegFld r lo len v).host = d.host ∧ (d.setRegFld r lo len v).parts = d.parts ∧
    (d.setRegFld r lo len v).sources = d.sources ∧ (d.setRegFld r lo len v).image = d.image ∧
    (d.setRegFld r lo len v).stage = d.stage ∧ (d.setRegFld r lo len v).qcmd = d.qcmd ∧
    (d.setRegFld r lo len v).qAddr = d.qAddr ∧ (d.setRegFld r lo len v).qPage = d.qPage ∧
    (d.setRegFld r lo len v).returning = d.returning ∧ (d.setRegFld r lo len v).failedSlots = d.failedSlots ∧
    (d.setRegFld r lo len v).enginesReset = d.enginesReset ∧ (d.setRegFld r lo len v).domains = d.domains ∧
    (d.setRegFld r lo len v).mwdCount = d.mwdCount ∧ (d.setRegFld r lo len v).mwdPre = d.mwdPre ∧
    (d.setRegFld r lo len v).ejectReset = d.ejectReset ∧ (d.setRegFld r lo len v).ejectStopped = d.ejectStopped ∧
    (d.setRegFld r lo len v).pins = d.pins ∧ (d.setRegFld r lo len v).tap = d.tap ∧
    (d.setRegFld r lo len v).targets = d.targets ∧ (d.setRegFld r lo len v).keys = d.keys ∧
    (d.setRegFld r lo len v).answer = d.answer :=
  ⟨rfl, rfl, rfl, rfl, rfl, rfl, rfl, rfl, rfl, rfl, rfl, rfl, rfl, rfl, rfl, rfl, rfl, rfl, rfl, rfl, rfl, rfl, rfl, rfl, rfl, rfl, rfl, rfl, rfl, rfl, rfl, rfl, rfl, rfl, rfl, rfl, rfl, rfl, rfl, rfl, rfl, rfl, rfl, rfl, rfl, rfl, rfl, rfl, rfl, rfl, rfl, rfl, rfl, rfl, rfl, rfl⟩

/-- What `Device.setRegFld` leaves, by accessor. -/
@[simp] theorem Device.setRegFld_reads (d : Device) (r : Reg) (lo len v : Nat) :
    (∀ (q : Nat), (d.setRegFld r lo len v).eng q = d.eng q) ∧ (∀ (q : Nat), (d.setRegFld r lo len v).cluster q = d.cluster q) ∧
    (∀ (q : Nat), (d.setRegFld r lo len v).part q = d.part q) ∧ (∀ (q : Nat), (d.setRegFld r lo len v).lane q = d.lane q) ∧
    (∀ (q : Nat), (d.setRegFld r lo len v).point q = d.point q) ∧ (∀ (q : Nat), (d.setRegFld r lo len v).link q = d.link q) ∧
    (∀ (q : Nat), (d.setRegFld r lo len v).target q = d.target q) ∧
    (∀ (q : Nat), (d.setRegFld r lo len v).router q = d.router q) ∧ (∀ (q : Nat), (d.setRegFld r lo len v).byte q = d.byte q) ∧
    ((d.setRegFld r lo len v).now = d.now) :=
  ⟨fun _ => rfl, fun _ => rfl, fun _ => rfl, fun _ => rfl, fun _ => rfl, fun _ => rfl, fun _ => rfl, fun _ => rfl, fun _ => rfl, rfl⟩

/-- What `Device.setRegBit` leaves: every field but regs. -/
@[simp] theorem Device.setRegBit_fields (d : Device) (r : Reg) (i : Nat) (b : Bool) :
    (d.setRegBit r i b).grade = d.grade ∧ (d.setRegBit r i b).phase = d.phase ∧ (d.setRegBit r i b).fresh = d.fresh ∧
    (d.setRegBit r i b).pace = d.pace ∧ (d.setRegBit r i b).mem = d.mem ∧ (d.setRegBit r i b).marks = d.marks ∧
    (d.setRegBit r i b).unfilled = d.unfilled ∧ (d.setRegBit r i b).cache = d.cache ∧
    (d.setRegBit r i b).cachePicks = d.cachePicks ∧ (d.setRegBit r i b).accesses = d.accesses ∧
    (d.setRegBit r i b).fusedSpares = d.fusedSpares ∧ (d.setRegBit r i b).fusedColumns = d.fusedColumns ∧
    (d.setRegBit r i b).nor = d.nor ∧ (d.setRegBit r i b).norPresent = d.norPresent ∧
    (d.setRegBit r i b).flashDig = d.flashDig ∧ (d.setRegBit r i b).flashKept = d.flashKept ∧
    (d.setRegBit r i b).selfTest = d.selfTest ∧ (d.setRegBit r i b).engines = d.engines ∧
    (d.setRegBit r i b).clusters = d.clusters ∧ (d.setRegBit r i b).points = d.points ∧
    (d.setRegBit r i b).staleRanges = d.staleRanges ∧ (d.setRegBit r i b).subs = d.subs ∧
    (d.setRegBit r i b).inFlight = d.inFlight ∧ (d.setRegBit r i b).routers = d.routers ∧
    (d.setRegBit r i b).raises = d.raises ∧ (d.setRegBit r i b).heldRaises = d.heldRaises ∧
    (d.setRegBit r i b).lineDue = d.lineDue ∧ (d.setRegBit r i b).timers = d.timers ∧ (d.setRegBit r i b).lanes = d.lanes ∧
    (d.setRegBit r i b).links = d.links ∧ (d.setRegBit r i b).namespaces = d.namespaces ∧ (d.setRegBit r i b).store = d.store ∧
    (d.setRegBit r i b).blocks = d.blocks ∧ (d.setRegBit r i b).ids = d.ids ∧ (d.setRegBit r i b).scanning = d.scanning ∧
    (d.setRegBit r i b).host = d.host ∧ (d.setRegBit r i b).parts = d.parts ∧ (d.setRegBit r i b).sources = d.sources ∧
    (d.setRegBit r i b).image = d.image ∧ (d.setRegBit r i b).stage = d.stage ∧ (d.setRegBit r i b).qcmd = d.qcmd ∧
    (d.setRegBit r i b).qAddr = d.qAddr ∧ (d.setRegBit r i b).qPage = d.qPage ∧ (d.setRegBit r i b).returning = d.returning ∧
    (d.setRegBit r i b).failedSlots = d.failedSlots ∧ (d.setRegBit r i b).enginesReset = d.enginesReset ∧
    (d.setRegBit r i b).domains = d.domains ∧ (d.setRegBit r i b).mwdCount = d.mwdCount ∧
    (d.setRegBit r i b).mwdPre = d.mwdPre ∧ (d.setRegBit r i b).ejectReset = d.ejectReset ∧
    (d.setRegBit r i b).ejectStopped = d.ejectStopped ∧ (d.setRegBit r i b).pins = d.pins ∧ (d.setRegBit r i b).tap = d.tap ∧
    (d.setRegBit r i b).targets = d.targets ∧ (d.setRegBit r i b).keys = d.keys ∧ (d.setRegBit r i b).answer = d.answer :=
  ⟨rfl, rfl, rfl, rfl, rfl, rfl, rfl, rfl, rfl, rfl, rfl, rfl, rfl, rfl, rfl, rfl, rfl, rfl, rfl, rfl, rfl, rfl, rfl, rfl, rfl, rfl, rfl, rfl, rfl, rfl, rfl, rfl, rfl, rfl, rfl, rfl, rfl, rfl, rfl, rfl, rfl, rfl, rfl, rfl, rfl, rfl, rfl, rfl, rfl, rfl, rfl, rfl, rfl, rfl, rfl, rfl⟩

/-- What `Device.setRegBit` leaves, by accessor. -/
@[simp] theorem Device.setRegBit_reads (d : Device) (r : Reg) (i : Nat) (b : Bool) :
    (∀ (q : Nat), (d.setRegBit r i b).eng q = d.eng q) ∧ (∀ (q : Nat), (d.setRegBit r i b).cluster q = d.cluster q) ∧
    (∀ (q : Nat), (d.setRegBit r i b).part q = d.part q) ∧ (∀ (q : Nat), (d.setRegBit r i b).lane q = d.lane q) ∧
    (∀ (q : Nat), (d.setRegBit r i b).point q = d.point q) ∧ (∀ (q : Nat), (d.setRegBit r i b).link q = d.link q) ∧
    (∀ (q : Nat), (d.setRegBit r i b).target q = d.target q) ∧ (∀ (q : Nat), (d.setRegBit r i b).router q = d.router q) ∧
    (∀ (q : Nat), (d.setRegBit r i b).byte q = d.byte q) ∧ ((d.setRegBit r i b).now = d.now) :=
  ⟨fun _ => rfl, fun _ => rfl, fun _ => rfl, fun _ => rfl, fun _ => rfl, fun _ => rfl, fun _ => rfl, fun _ => rfl, fun _ => rfl, rfl⟩

/-- What `Device.setEng` leaves: every field but engines. -/
@[simp] theorem Device.setEng_fields (d : Device) (e : Nat) (x : Engine) :
    (d.setEng e x).grade = d.grade ∧ (d.setEng e x).phase = d.phase ∧ (d.setEng e x).fresh = d.fresh ∧
    (d.setEng e x).pace = d.pace ∧ (d.setEng e x).regs = d.regs ∧ (d.setEng e x).mem = d.mem ∧ (d.setEng e x).marks = d.marks ∧
    (d.setEng e x).unfilled = d.unfilled ∧ (d.setEng e x).cache = d.cache ∧ (d.setEng e x).cachePicks = d.cachePicks ∧
    (d.setEng e x).accesses = d.accesses ∧ (d.setEng e x).fusedSpares = d.fusedSpares ∧
    (d.setEng e x).fusedColumns = d.fusedColumns ∧ (d.setEng e x).nor = d.nor ∧ (d.setEng e x).norPresent = d.norPresent ∧
    (d.setEng e x).flashDig = d.flashDig ∧ (d.setEng e x).flashKept = d.flashKept ∧ (d.setEng e x).selfTest = d.selfTest ∧
    (d.setEng e x).clusters = d.clusters ∧ (d.setEng e x).points = d.points ∧ (d.setEng e x).staleRanges = d.staleRanges ∧
    (d.setEng e x).subs = d.subs ∧ (d.setEng e x).inFlight = d.inFlight ∧ (d.setEng e x).routers = d.routers ∧
    (d.setEng e x).raises = d.raises ∧ (d.setEng e x).heldRaises = d.heldRaises ∧ (d.setEng e x).lineDue = d.lineDue ∧
    (d.setEng e x).timers = d.timers ∧ (d.setEng e x).lanes = d.lanes ∧ (d.setEng e x).links = d.links ∧
    (d.setEng e x).namespaces = d.namespaces ∧ (d.setEng e x).store = d.store ∧ (d.setEng e x).blocks = d.blocks ∧
    (d.setEng e x).ids = d.ids ∧ (d.setEng e x).scanning = d.scanning ∧ (d.setEng e x).host = d.host ∧
    (d.setEng e x).parts = d.parts ∧ (d.setEng e x).sources = d.sources ∧ (d.setEng e x).image = d.image ∧
    (d.setEng e x).stage = d.stage ∧ (d.setEng e x).qcmd = d.qcmd ∧ (d.setEng e x).qAddr = d.qAddr ∧
    (d.setEng e x).qPage = d.qPage ∧ (d.setEng e x).returning = d.returning ∧ (d.setEng e x).failedSlots = d.failedSlots ∧
    (d.setEng e x).enginesReset = d.enginesReset ∧ (d.setEng e x).domains = d.domains ∧ (d.setEng e x).mwdCount = d.mwdCount ∧
    (d.setEng e x).mwdPre = d.mwdPre ∧ (d.setEng e x).ejectReset = d.ejectReset ∧ (d.setEng e x).ejectStopped = d.ejectStopped ∧
    (d.setEng e x).pins = d.pins ∧ (d.setEng e x).tap = d.tap ∧ (d.setEng e x).targets = d.targets ∧
    (d.setEng e x).keys = d.keys ∧ (d.setEng e x).answer = d.answer :=
  ⟨rfl, rfl, rfl, rfl, rfl, rfl, rfl, rfl, rfl, rfl, rfl, rfl, rfl, rfl, rfl, rfl, rfl, rfl, rfl, rfl, rfl, rfl, rfl, rfl, rfl, rfl, rfl, rfl, rfl, rfl, rfl, rfl, rfl, rfl, rfl, rfl, rfl, rfl, rfl, rfl, rfl, rfl, rfl, rfl, rfl, rfl, rfl, rfl, rfl, rfl, rfl, rfl, rfl, rfl, rfl, rfl⟩

/-- What `Device.setEng` leaves, by accessor. -/
@[simp] theorem Device.setEng_reads (d : Device) (e : Nat) (x : Engine) :
    (∀ (q : Reg), (d.setEng e x).reg q = d.reg q) ∧ (∀ (q : Nat), (d.setEng e x).cluster q = d.cluster q) ∧
    (∀ (q : Nat), (d.setEng e x).part q = d.part q) ∧ (∀ (q : Nat), (d.setEng e x).lane q = d.lane q) ∧
    (∀ (q : Nat), (d.setEng e x).point q = d.point q) ∧ (∀ (q : Nat), (d.setEng e x).link q = d.link q) ∧
    (∀ (q : Nat), (d.setEng e x).target q = d.target q) ∧ (∀ (q : Nat), (d.setEng e x).router q = d.router q) ∧
    (∀ (q : Nat), (d.setEng e x).byte q = d.byte q) ∧ ((d.setEng e x).now = d.now) :=
  ⟨fun _ => rfl, fun _ => rfl, fun _ => rfl, fun _ => rfl, fun _ => rfl, fun _ => rfl, fun _ => rfl, fun _ => rfl, fun _ => rfl, rfl⟩

/-- What `Device.onEng` leaves: every field but engines. -/
@[simp] theorem Device.onEng_fields (d : Device) (e : Nat) (f : Engine → Engine) :
    (d.onEng e f).grade = d.grade ∧ (d.onEng e f).phase = d.phase ∧ (d.onEng e f).fresh = d.fresh ∧
    (d.onEng e f).pace = d.pace ∧ (d.onEng e f).regs = d.regs ∧ (d.onEng e f).mem = d.mem ∧ (d.onEng e f).marks = d.marks ∧
    (d.onEng e f).unfilled = d.unfilled ∧ (d.onEng e f).cache = d.cache ∧ (d.onEng e f).cachePicks = d.cachePicks ∧
    (d.onEng e f).accesses = d.accesses ∧ (d.onEng e f).fusedSpares = d.fusedSpares ∧
    (d.onEng e f).fusedColumns = d.fusedColumns ∧ (d.onEng e f).nor = d.nor ∧ (d.onEng e f).norPresent = d.norPresent ∧
    (d.onEng e f).flashDig = d.flashDig ∧ (d.onEng e f).flashKept = d.flashKept ∧ (d.onEng e f).selfTest = d.selfTest ∧
    (d.onEng e f).clusters = d.clusters ∧ (d.onEng e f).points = d.points ∧ (d.onEng e f).staleRanges = d.staleRanges ∧
    (d.onEng e f).subs = d.subs ∧ (d.onEng e f).inFlight = d.inFlight ∧ (d.onEng e f).routers = d.routers ∧
    (d.onEng e f).raises = d.raises ∧ (d.onEng e f).heldRaises = d.heldRaises ∧ (d.onEng e f).lineDue = d.lineDue ∧
    (d.onEng e f).timers = d.timers ∧ (d.onEng e f).lanes = d.lanes ∧ (d.onEng e f).links = d.links ∧
    (d.onEng e f).namespaces = d.namespaces ∧ (d.onEng e f).store = d.store ∧ (d.onEng e f).blocks = d.blocks ∧
    (d.onEng e f).ids = d.ids ∧ (d.onEng e f).scanning = d.scanning ∧ (d.onEng e f).host = d.host ∧
    (d.onEng e f).parts = d.parts ∧ (d.onEng e f).sources = d.sources ∧ (d.onEng e f).image = d.image ∧
    (d.onEng e f).stage = d.stage ∧ (d.onEng e f).qcmd = d.qcmd ∧ (d.onEng e f).qAddr = d.qAddr ∧
    (d.onEng e f).qPage = d.qPage ∧ (d.onEng e f).returning = d.returning ∧ (d.onEng e f).failedSlots = d.failedSlots ∧
    (d.onEng e f).enginesReset = d.enginesReset ∧ (d.onEng e f).domains = d.domains ∧ (d.onEng e f).mwdCount = d.mwdCount ∧
    (d.onEng e f).mwdPre = d.mwdPre ∧ (d.onEng e f).ejectReset = d.ejectReset ∧ (d.onEng e f).ejectStopped = d.ejectStopped ∧
    (d.onEng e f).pins = d.pins ∧ (d.onEng e f).tap = d.tap ∧ (d.onEng e f).targets = d.targets ∧ (d.onEng e f).keys = d.keys ∧
    (d.onEng e f).answer = d.answer :=
  ⟨rfl, rfl, rfl, rfl, rfl, rfl, rfl, rfl, rfl, rfl, rfl, rfl, rfl, rfl, rfl, rfl, rfl, rfl, rfl, rfl, rfl, rfl, rfl, rfl, rfl, rfl, rfl, rfl, rfl, rfl, rfl, rfl, rfl, rfl, rfl, rfl, rfl, rfl, rfl, rfl, rfl, rfl, rfl, rfl, rfl, rfl, rfl, rfl, rfl, rfl, rfl, rfl, rfl, rfl, rfl, rfl⟩

/-- What `Device.onEng` leaves, by accessor. -/
@[simp] theorem Device.onEng_reads (d : Device) (e : Nat) (f : Engine → Engine) :
    (∀ (q : Reg), (d.onEng e f).reg q = d.reg q) ∧ (∀ (q : Nat), (d.onEng e f).cluster q = d.cluster q) ∧
    (∀ (q : Nat), (d.onEng e f).part q = d.part q) ∧ (∀ (q : Nat), (d.onEng e f).lane q = d.lane q) ∧
    (∀ (q : Nat), (d.onEng e f).point q = d.point q) ∧ (∀ (q : Nat), (d.onEng e f).link q = d.link q) ∧
    (∀ (q : Nat), (d.onEng e f).target q = d.target q) ∧ (∀ (q : Nat), (d.onEng e f).router q = d.router q) ∧
    (∀ (q : Nat), (d.onEng e f).byte q = d.byte q) ∧ ((d.onEng e f).now = d.now) :=
  ⟨fun _ => rfl, fun _ => rfl, fun _ => rfl, fun _ => rfl, fun _ => rfl, fun _ => rfl, fun _ => rfl, fun _ => rfl, fun _ => rfl, rfl⟩

/-- What `Device.onCluster` leaves: every field but clusters. -/
@[simp] theorem Device.onCluster_fields (d : Device) (c : Nat) (f : Cluster → Cluster) :
    (d.onCluster c f).grade = d.grade ∧ (d.onCluster c f).phase = d.phase ∧ (d.onCluster c f).fresh = d.fresh ∧
    (d.onCluster c f).pace = d.pace ∧ (d.onCluster c f).regs = d.regs ∧ (d.onCluster c f).mem = d.mem ∧
    (d.onCluster c f).marks = d.marks ∧ (d.onCluster c f).unfilled = d.unfilled ∧ (d.onCluster c f).cache = d.cache ∧
    (d.onCluster c f).cachePicks = d.cachePicks ∧ (d.onCluster c f).accesses = d.accesses ∧
    (d.onCluster c f).fusedSpares = d.fusedSpares ∧ (d.onCluster c f).fusedColumns = d.fusedColumns ∧
    (d.onCluster c f).nor = d.nor ∧ (d.onCluster c f).norPresent = d.norPresent ∧ (d.onCluster c f).flashDig = d.flashDig ∧
    (d.onCluster c f).flashKept = d.flashKept ∧ (d.onCluster c f).selfTest = d.selfTest ∧
    (d.onCluster c f).engines = d.engines ∧ (d.onCluster c f).points = d.points ∧
    (d.onCluster c f).staleRanges = d.staleRanges ∧ (d.onCluster c f).subs = d.subs ∧ (d.onCluster c f).inFlight = d.inFlight ∧
    (d.onCluster c f).routers = d.routers ∧ (d.onCluster c f).raises = d.raises ∧ (d.onCluster c f).heldRaises = d.heldRaises ∧
    (d.onCluster c f).lineDue = d.lineDue ∧ (d.onCluster c f).timers = d.timers ∧ (d.onCluster c f).lanes = d.lanes ∧
    (d.onCluster c f).links = d.links ∧ (d.onCluster c f).namespaces = d.namespaces ∧ (d.onCluster c f).store = d.store ∧
    (d.onCluster c f).blocks = d.blocks ∧ (d.onCluster c f).ids = d.ids ∧ (d.onCluster c f).scanning = d.scanning ∧
    (d.onCluster c f).host = d.host ∧ (d.onCluster c f).parts = d.parts ∧ (d.onCluster c f).sources = d.sources ∧
    (d.onCluster c f).image = d.image ∧ (d.onCluster c f).stage = d.stage ∧ (d.onCluster c f).qcmd = d.qcmd ∧
    (d.onCluster c f).qAddr = d.qAddr ∧ (d.onCluster c f).qPage = d.qPage ∧ (d.onCluster c f).returning = d.returning ∧
    (d.onCluster c f).failedSlots = d.failedSlots ∧ (d.onCluster c f).enginesReset = d.enginesReset ∧
    (d.onCluster c f).domains = d.domains ∧ (d.onCluster c f).mwdCount = d.mwdCount ∧ (d.onCluster c f).mwdPre = d.mwdPre ∧
    (d.onCluster c f).ejectReset = d.ejectReset ∧ (d.onCluster c f).ejectStopped = d.ejectStopped ∧
    (d.onCluster c f).pins = d.pins ∧ (d.onCluster c f).tap = d.tap ∧ (d.onCluster c f).targets = d.targets ∧
    (d.onCluster c f).keys = d.keys ∧ (d.onCluster c f).answer = d.answer :=
  ⟨rfl, rfl, rfl, rfl, rfl, rfl, rfl, rfl, rfl, rfl, rfl, rfl, rfl, rfl, rfl, rfl, rfl, rfl, rfl, rfl, rfl, rfl, rfl, rfl, rfl, rfl, rfl, rfl, rfl, rfl, rfl, rfl, rfl, rfl, rfl, rfl, rfl, rfl, rfl, rfl, rfl, rfl, rfl, rfl, rfl, rfl, rfl, rfl, rfl, rfl, rfl, rfl, rfl, rfl, rfl, rfl⟩

/-- What `Device.onCluster` leaves, by accessor. -/
@[simp] theorem Device.onCluster_reads (d : Device) (c : Nat) (f : Cluster → Cluster) :
    (∀ (q : Reg), (d.onCluster c f).reg q = d.reg q) ∧ (∀ (q : Nat), (d.onCluster c f).eng q = d.eng q) ∧
    (∀ (q : Nat), (d.onCluster c f).part q = d.part q) ∧ (∀ (q : Nat), (d.onCluster c f).lane q = d.lane q) ∧
    (∀ (q : Nat), (d.onCluster c f).point q = d.point q) ∧ (∀ (q : Nat), (d.onCluster c f).link q = d.link q) ∧
    (∀ (q : Nat), (d.onCluster c f).target q = d.target q) ∧ (∀ (q : Nat), (d.onCluster c f).router q = d.router q) ∧
    (∀ (q : Nat), (d.onCluster c f).byte q = d.byte q) ∧ ((d.onCluster c f).now = d.now) :=
  ⟨fun _ => rfl, fun _ => rfl, fun _ => rfl, fun _ => rfl, fun _ => rfl, fun _ => rfl, fun _ => rfl, fun _ => rfl, fun _ => rfl, rfl⟩

/-- What `Device.onPart` leaves: every field but parts. -/
@[simp] theorem Device.onPart_fields (d : Device) (p : Nat) (f : Part → Part) :
    (d.onPart p f).grade = d.grade ∧ (d.onPart p f).phase = d.phase ∧ (d.onPart p f).fresh = d.fresh ∧
    (d.onPart p f).pace = d.pace ∧ (d.onPart p f).regs = d.regs ∧ (d.onPart p f).mem = d.mem ∧ (d.onPart p f).marks = d.marks ∧
    (d.onPart p f).unfilled = d.unfilled ∧ (d.onPart p f).cache = d.cache ∧ (d.onPart p f).cachePicks = d.cachePicks ∧
    (d.onPart p f).accesses = d.accesses ∧ (d.onPart p f).fusedSpares = d.fusedSpares ∧
    (d.onPart p f).fusedColumns = d.fusedColumns ∧ (d.onPart p f).nor = d.nor ∧ (d.onPart p f).norPresent = d.norPresent ∧
    (d.onPart p f).flashDig = d.flashDig ∧ (d.onPart p f).flashKept = d.flashKept ∧ (d.onPart p f).selfTest = d.selfTest ∧
    (d.onPart p f).engines = d.engines ∧ (d.onPart p f).clusters = d.clusters ∧ (d.onPart p f).points = d.points ∧
    (d.onPart p f).staleRanges = d.staleRanges ∧ (d.onPart p f).subs = d.subs ∧ (d.onPart p f).inFlight = d.inFlight ∧
    (d.onPart p f).routers = d.routers ∧ (d.onPart p f).raises = d.raises ∧ (d.onPart p f).heldRaises = d.heldRaises ∧
    (d.onPart p f).lineDue = d.lineDue ∧ (d.onPart p f).timers = d.timers ∧ (d.onPart p f).lanes = d.lanes ∧
    (d.onPart p f).links = d.links ∧ (d.onPart p f).namespaces = d.namespaces ∧ (d.onPart p f).store = d.store ∧
    (d.onPart p f).blocks = d.blocks ∧ (d.onPart p f).ids = d.ids ∧ (d.onPart p f).scanning = d.scanning ∧
    (d.onPart p f).host = d.host ∧ (d.onPart p f).sources = d.sources ∧ (d.onPart p f).image = d.image ∧
    (d.onPart p f).stage = d.stage ∧ (d.onPart p f).qcmd = d.qcmd ∧ (d.onPart p f).qAddr = d.qAddr ∧
    (d.onPart p f).qPage = d.qPage ∧ (d.onPart p f).returning = d.returning ∧ (d.onPart p f).failedSlots = d.failedSlots ∧
    (d.onPart p f).enginesReset = d.enginesReset ∧ (d.onPart p f).domains = d.domains ∧ (d.onPart p f).mwdCount = d.mwdCount ∧
    (d.onPart p f).mwdPre = d.mwdPre ∧ (d.onPart p f).ejectReset = d.ejectReset ∧ (d.onPart p f).ejectStopped = d.ejectStopped ∧
    (d.onPart p f).pins = d.pins ∧ (d.onPart p f).tap = d.tap ∧ (d.onPart p f).targets = d.targets ∧
    (d.onPart p f).keys = d.keys ∧ (d.onPart p f).answer = d.answer :=
  ⟨rfl, rfl, rfl, rfl, rfl, rfl, rfl, rfl, rfl, rfl, rfl, rfl, rfl, rfl, rfl, rfl, rfl, rfl, rfl, rfl, rfl, rfl, rfl, rfl, rfl, rfl, rfl, rfl, rfl, rfl, rfl, rfl, rfl, rfl, rfl, rfl, rfl, rfl, rfl, rfl, rfl, rfl, rfl, rfl, rfl, rfl, rfl, rfl, rfl, rfl, rfl, rfl, rfl, rfl, rfl, rfl⟩

/-- What `Device.onPart` leaves, by accessor. -/
@[simp] theorem Device.onPart_reads (d : Device) (p : Nat) (f : Part → Part) :
    (∀ (q : Reg), (d.onPart p f).reg q = d.reg q) ∧ (∀ (q : Nat), (d.onPart p f).eng q = d.eng q) ∧
    (∀ (q : Nat), (d.onPart p f).cluster q = d.cluster q) ∧ (∀ (q : Nat), (d.onPart p f).lane q = d.lane q) ∧
    (∀ (q : Nat), (d.onPart p f).point q = d.point q) ∧ (∀ (q : Nat), (d.onPart p f).link q = d.link q) ∧
    (∀ (q : Nat), (d.onPart p f).target q = d.target q) ∧ (∀ (q : Nat), (d.onPart p f).router q = d.router q) ∧
    (∀ (q : Nat), (d.onPart p f).byte q = d.byte q) ∧ ((d.onPart p f).now = d.now) :=
  ⟨fun _ => rfl, fun _ => rfl, fun _ => rfl, fun _ => rfl, fun _ => rfl, fun _ => rfl, fun _ => rfl, fun _ => rfl, fun _ => rfl, rfl⟩

/-- What `Device.onLane` leaves: every field but lanes. -/
@[simp] theorem Device.onLane_fields (d : Device) (n : Nat) (f : Lane → Lane) :
    (d.onLane n f).grade = d.grade ∧ (d.onLane n f).phase = d.phase ∧ (d.onLane n f).fresh = d.fresh ∧
    (d.onLane n f).pace = d.pace ∧ (d.onLane n f).regs = d.regs ∧ (d.onLane n f).mem = d.mem ∧ (d.onLane n f).marks = d.marks ∧
    (d.onLane n f).unfilled = d.unfilled ∧ (d.onLane n f).cache = d.cache ∧ (d.onLane n f).cachePicks = d.cachePicks ∧
    (d.onLane n f).accesses = d.accesses ∧ (d.onLane n f).fusedSpares = d.fusedSpares ∧
    (d.onLane n f).fusedColumns = d.fusedColumns ∧ (d.onLane n f).nor = d.nor ∧ (d.onLane n f).norPresent = d.norPresent ∧
    (d.onLane n f).flashDig = d.flashDig ∧ (d.onLane n f).flashKept = d.flashKept ∧ (d.onLane n f).selfTest = d.selfTest ∧
    (d.onLane n f).engines = d.engines ∧ (d.onLane n f).clusters = d.clusters ∧ (d.onLane n f).points = d.points ∧
    (d.onLane n f).staleRanges = d.staleRanges ∧ (d.onLane n f).subs = d.subs ∧ (d.onLane n f).inFlight = d.inFlight ∧
    (d.onLane n f).routers = d.routers ∧ (d.onLane n f).raises = d.raises ∧ (d.onLane n f).heldRaises = d.heldRaises ∧
    (d.onLane n f).lineDue = d.lineDue ∧ (d.onLane n f).timers = d.timers ∧ (d.onLane n f).links = d.links ∧
    (d.onLane n f).namespaces = d.namespaces ∧ (d.onLane n f).store = d.store ∧ (d.onLane n f).blocks = d.blocks ∧
    (d.onLane n f).ids = d.ids ∧ (d.onLane n f).scanning = d.scanning ∧ (d.onLane n f).host = d.host ∧
    (d.onLane n f).parts = d.parts ∧ (d.onLane n f).sources = d.sources ∧ (d.onLane n f).image = d.image ∧
    (d.onLane n f).stage = d.stage ∧ (d.onLane n f).qcmd = d.qcmd ∧ (d.onLane n f).qAddr = d.qAddr ∧
    (d.onLane n f).qPage = d.qPage ∧ (d.onLane n f).returning = d.returning ∧ (d.onLane n f).failedSlots = d.failedSlots ∧
    (d.onLane n f).enginesReset = d.enginesReset ∧ (d.onLane n f).domains = d.domains ∧ (d.onLane n f).mwdCount = d.mwdCount ∧
    (d.onLane n f).mwdPre = d.mwdPre ∧ (d.onLane n f).ejectReset = d.ejectReset ∧ (d.onLane n f).ejectStopped = d.ejectStopped ∧
    (d.onLane n f).pins = d.pins ∧ (d.onLane n f).tap = d.tap ∧ (d.onLane n f).targets = d.targets ∧
    (d.onLane n f).keys = d.keys ∧ (d.onLane n f).answer = d.answer :=
  ⟨rfl, rfl, rfl, rfl, rfl, rfl, rfl, rfl, rfl, rfl, rfl, rfl, rfl, rfl, rfl, rfl, rfl, rfl, rfl, rfl, rfl, rfl, rfl, rfl, rfl, rfl, rfl, rfl, rfl, rfl, rfl, rfl, rfl, rfl, rfl, rfl, rfl, rfl, rfl, rfl, rfl, rfl, rfl, rfl, rfl, rfl, rfl, rfl, rfl, rfl, rfl, rfl, rfl, rfl, rfl, rfl⟩

/-- What `Device.onLane` leaves, by accessor. -/
@[simp] theorem Device.onLane_reads (d : Device) (n : Nat) (f : Lane → Lane) :
    (∀ (q : Reg), (d.onLane n f).reg q = d.reg q) ∧ (∀ (q : Nat), (d.onLane n f).eng q = d.eng q) ∧
    (∀ (q : Nat), (d.onLane n f).cluster q = d.cluster q) ∧ (∀ (q : Nat), (d.onLane n f).part q = d.part q) ∧
    (∀ (q : Nat), (d.onLane n f).point q = d.point q) ∧ (∀ (q : Nat), (d.onLane n f).link q = d.link q) ∧
    (∀ (q : Nat), (d.onLane n f).target q = d.target q) ∧ (∀ (q : Nat), (d.onLane n f).router q = d.router q) ∧
    (∀ (q : Nat), (d.onLane n f).byte q = d.byte q) ∧ ((d.onLane n f).now = d.now) :=
  ⟨fun _ => rfl, fun _ => rfl, fun _ => rfl, fun _ => rfl, fun _ => rfl, fun _ => rfl, fun _ => rfl, fun _ => rfl, fun _ => rfl, rfl⟩

/-- What `Device.onPoint` leaves: every field but points. -/
@[simp] theorem Device.onPoint_fields (d : Device) (k : Nat) (f : Point → Point) :
    (d.onPoint k f).grade = d.grade ∧ (d.onPoint k f).phase = d.phase ∧ (d.onPoint k f).fresh = d.fresh ∧
    (d.onPoint k f).pace = d.pace ∧ (d.onPoint k f).regs = d.regs ∧ (d.onPoint k f).mem = d.mem ∧
    (d.onPoint k f).marks = d.marks ∧ (d.onPoint k f).unfilled = d.unfilled ∧ (d.onPoint k f).cache = d.cache ∧
    (d.onPoint k f).cachePicks = d.cachePicks ∧ (d.onPoint k f).accesses = d.accesses ∧
    (d.onPoint k f).fusedSpares = d.fusedSpares ∧ (d.onPoint k f).fusedColumns = d.fusedColumns ∧ (d.onPoint k f).nor = d.nor ∧
    (d.onPoint k f).norPresent = d.norPresent ∧ (d.onPoint k f).flashDig = d.flashDig ∧
    (d.onPoint k f).flashKept = d.flashKept ∧ (d.onPoint k f).selfTest = d.selfTest ∧ (d.onPoint k f).engines = d.engines ∧
    (d.onPoint k f).clusters = d.clusters ∧ (d.onPoint k f).staleRanges = d.staleRanges ∧ (d.onPoint k f).subs = d.subs ∧
    (d.onPoint k f).inFlight = d.inFlight ∧ (d.onPoint k f).routers = d.routers ∧ (d.onPoint k f).raises = d.raises ∧
    (d.onPoint k f).heldRaises = d.heldRaises ∧ (d.onPoint k f).lineDue = d.lineDue ∧ (d.onPoint k f).timers = d.timers ∧
    (d.onPoint k f).lanes = d.lanes ∧ (d.onPoint k f).links = d.links ∧ (d.onPoint k f).namespaces = d.namespaces ∧
    (d.onPoint k f).store = d.store ∧ (d.onPoint k f).blocks = d.blocks ∧ (d.onPoint k f).ids = d.ids ∧
    (d.onPoint k f).scanning = d.scanning ∧ (d.onPoint k f).host = d.host ∧ (d.onPoint k f).parts = d.parts ∧
    (d.onPoint k f).sources = d.sources ∧ (d.onPoint k f).image = d.image ∧ (d.onPoint k f).stage = d.stage ∧
    (d.onPoint k f).qcmd = d.qcmd ∧ (d.onPoint k f).qAddr = d.qAddr ∧ (d.onPoint k f).qPage = d.qPage ∧
    (d.onPoint k f).returning = d.returning ∧ (d.onPoint k f).failedSlots = d.failedSlots ∧
    (d.onPoint k f).enginesReset = d.enginesReset ∧ (d.onPoint k f).domains = d.domains ∧
    (d.onPoint k f).mwdCount = d.mwdCount ∧ (d.onPoint k f).mwdPre = d.mwdPre ∧ (d.onPoint k f).ejectReset = d.ejectReset ∧
    (d.onPoint k f).ejectStopped = d.ejectStopped ∧ (d.onPoint k f).pins = d.pins ∧ (d.onPoint k f).tap = d.tap ∧
    (d.onPoint k f).targets = d.targets ∧ (d.onPoint k f).keys = d.keys ∧ (d.onPoint k f).answer = d.answer :=
  ⟨rfl, rfl, rfl, rfl, rfl, rfl, rfl, rfl, rfl, rfl, rfl, rfl, rfl, rfl, rfl, rfl, rfl, rfl, rfl, rfl, rfl, rfl, rfl, rfl, rfl, rfl, rfl, rfl, rfl, rfl, rfl, rfl, rfl, rfl, rfl, rfl, rfl, rfl, rfl, rfl, rfl, rfl, rfl, rfl, rfl, rfl, rfl, rfl, rfl, rfl, rfl, rfl, rfl, rfl, rfl, rfl⟩

/-- What `Device.onPoint` leaves, by accessor. -/
@[simp] theorem Device.onPoint_reads (d : Device) (k : Nat) (f : Point → Point) :
    (∀ (q : Reg), (d.onPoint k f).reg q = d.reg q) ∧ (∀ (q : Nat), (d.onPoint k f).eng q = d.eng q) ∧
    (∀ (q : Nat), (d.onPoint k f).cluster q = d.cluster q) ∧ (∀ (q : Nat), (d.onPoint k f).part q = d.part q) ∧
    (∀ (q : Nat), (d.onPoint k f).lane q = d.lane q) ∧ (∀ (q : Nat), (d.onPoint k f).link q = d.link q) ∧
    (∀ (q : Nat), (d.onPoint k f).target q = d.target q) ∧ (∀ (q : Nat), (d.onPoint k f).router q = d.router q) ∧
    (∀ (q : Nat), (d.onPoint k f).byte q = d.byte q) ∧ ((d.onPoint k f).now = d.now) :=
  ⟨fun _ => rfl, fun _ => rfl, fun _ => rfl, fun _ => rfl, fun _ => rfl, fun _ => rfl, fun _ => rfl, fun _ => rfl, fun _ => rfl, rfl⟩

/-- What `Device.onLink` leaves: every field but links. -/
@[simp] theorem Device.onLink_fields (d : Device) (m : Nat) (f : LinkLane → LinkLane) :
    (d.onLink m f).grade = d.grade ∧ (d.onLink m f).phase = d.phase ∧ (d.onLink m f).fresh = d.fresh ∧
    (d.onLink m f).pace = d.pace ∧ (d.onLink m f).regs = d.regs ∧ (d.onLink m f).mem = d.mem ∧ (d.onLink m f).marks = d.marks ∧
    (d.onLink m f).unfilled = d.unfilled ∧ (d.onLink m f).cache = d.cache ∧ (d.onLink m f).cachePicks = d.cachePicks ∧
    (d.onLink m f).accesses = d.accesses ∧ (d.onLink m f).fusedSpares = d.fusedSpares ∧
    (d.onLink m f).fusedColumns = d.fusedColumns ∧ (d.onLink m f).nor = d.nor ∧ (d.onLink m f).norPresent = d.norPresent ∧
    (d.onLink m f).flashDig = d.flashDig ∧ (d.onLink m f).flashKept = d.flashKept ∧ (d.onLink m f).selfTest = d.selfTest ∧
    (d.onLink m f).engines = d.engines ∧ (d.onLink m f).clusters = d.clusters ∧ (d.onLink m f).points = d.points ∧
    (d.onLink m f).staleRanges = d.staleRanges ∧ (d.onLink m f).subs = d.subs ∧ (d.onLink m f).inFlight = d.inFlight ∧
    (d.onLink m f).routers = d.routers ∧ (d.onLink m f).raises = d.raises ∧ (d.onLink m f).heldRaises = d.heldRaises ∧
    (d.onLink m f).lineDue = d.lineDue ∧ (d.onLink m f).timers = d.timers ∧ (d.onLink m f).lanes = d.lanes ∧
    (d.onLink m f).namespaces = d.namespaces ∧ (d.onLink m f).store = d.store ∧ (d.onLink m f).blocks = d.blocks ∧
    (d.onLink m f).ids = d.ids ∧ (d.onLink m f).scanning = d.scanning ∧ (d.onLink m f).host = d.host ∧
    (d.onLink m f).parts = d.parts ∧ (d.onLink m f).sources = d.sources ∧ (d.onLink m f).image = d.image ∧
    (d.onLink m f).stage = d.stage ∧ (d.onLink m f).qcmd = d.qcmd ∧ (d.onLink m f).qAddr = d.qAddr ∧
    (d.onLink m f).qPage = d.qPage ∧ (d.onLink m f).returning = d.returning ∧ (d.onLink m f).failedSlots = d.failedSlots ∧
    (d.onLink m f).enginesReset = d.enginesReset ∧ (d.onLink m f).domains = d.domains ∧ (d.onLink m f).mwdCount = d.mwdCount ∧
    (d.onLink m f).mwdPre = d.mwdPre ∧ (d.onLink m f).ejectReset = d.ejectReset ∧ (d.onLink m f).ejectStopped = d.ejectStopped ∧
    (d.onLink m f).pins = d.pins ∧ (d.onLink m f).tap = d.tap ∧ (d.onLink m f).targets = d.targets ∧
    (d.onLink m f).keys = d.keys ∧ (d.onLink m f).answer = d.answer :=
  ⟨rfl, rfl, rfl, rfl, rfl, rfl, rfl, rfl, rfl, rfl, rfl, rfl, rfl, rfl, rfl, rfl, rfl, rfl, rfl, rfl, rfl, rfl, rfl, rfl, rfl, rfl, rfl, rfl, rfl, rfl, rfl, rfl, rfl, rfl, rfl, rfl, rfl, rfl, rfl, rfl, rfl, rfl, rfl, rfl, rfl, rfl, rfl, rfl, rfl, rfl, rfl, rfl, rfl, rfl, rfl, rfl⟩

/-- What `Device.onLink` leaves, by accessor. -/
@[simp] theorem Device.onLink_reads (d : Device) (m : Nat) (f : LinkLane → LinkLane) :
    (∀ (q : Reg), (d.onLink m f).reg q = d.reg q) ∧ (∀ (q : Nat), (d.onLink m f).eng q = d.eng q) ∧
    (∀ (q : Nat), (d.onLink m f).cluster q = d.cluster q) ∧ (∀ (q : Nat), (d.onLink m f).part q = d.part q) ∧
    (∀ (q : Nat), (d.onLink m f).lane q = d.lane q) ∧ (∀ (q : Nat), (d.onLink m f).point q = d.point q) ∧
    (∀ (q : Nat), (d.onLink m f).target q = d.target q) ∧ (∀ (q : Nat), (d.onLink m f).router q = d.router q) ∧
    (∀ (q : Nat), (d.onLink m f).byte q = d.byte q) ∧ ((d.onLink m f).now = d.now) :=
  ⟨fun _ => rfl, fun _ => rfl, fun _ => rfl, fun _ => rfl, fun _ => rfl, fun _ => rfl, fun _ => rfl, fun _ => rfl, fun _ => rfl, rfl⟩

/-- What `Device.onTarget` leaves: every field but targets. -/
@[simp] theorem Device.onTarget_fields (d : Device) (t : Nat) (f : Target → Target) :
    (d.onTarget t f).grade = d.grade ∧ (d.onTarget t f).phase = d.phase ∧ (d.onTarget t f).fresh = d.fresh ∧
    (d.onTarget t f).pace = d.pace ∧ (d.onTarget t f).regs = d.regs ∧ (d.onTarget t f).mem = d.mem ∧
    (d.onTarget t f).marks = d.marks ∧ (d.onTarget t f).unfilled = d.unfilled ∧ (d.onTarget t f).cache = d.cache ∧
    (d.onTarget t f).cachePicks = d.cachePicks ∧ (d.onTarget t f).accesses = d.accesses ∧
    (d.onTarget t f).fusedSpares = d.fusedSpares ∧ (d.onTarget t f).fusedColumns = d.fusedColumns ∧
    (d.onTarget t f).nor = d.nor ∧ (d.onTarget t f).norPresent = d.norPresent ∧ (d.onTarget t f).flashDig = d.flashDig ∧
    (d.onTarget t f).flashKept = d.flashKept ∧ (d.onTarget t f).selfTest = d.selfTest ∧ (d.onTarget t f).engines = d.engines ∧
    (d.onTarget t f).clusters = d.clusters ∧ (d.onTarget t f).points = d.points ∧ (d.onTarget t f).staleRanges = d.staleRanges ∧
    (d.onTarget t f).subs = d.subs ∧ (d.onTarget t f).inFlight = d.inFlight ∧ (d.onTarget t f).routers = d.routers ∧
    (d.onTarget t f).raises = d.raises ∧ (d.onTarget t f).heldRaises = d.heldRaises ∧ (d.onTarget t f).lineDue = d.lineDue ∧
    (d.onTarget t f).timers = d.timers ∧ (d.onTarget t f).lanes = d.lanes ∧ (d.onTarget t f).links = d.links ∧
    (d.onTarget t f).namespaces = d.namespaces ∧ (d.onTarget t f).store = d.store ∧ (d.onTarget t f).blocks = d.blocks ∧
    (d.onTarget t f).ids = d.ids ∧ (d.onTarget t f).scanning = d.scanning ∧ (d.onTarget t f).host = d.host ∧
    (d.onTarget t f).parts = d.parts ∧ (d.onTarget t f).sources = d.sources ∧ (d.onTarget t f).image = d.image ∧
    (d.onTarget t f).stage = d.stage ∧ (d.onTarget t f).qcmd = d.qcmd ∧ (d.onTarget t f).qAddr = d.qAddr ∧
    (d.onTarget t f).qPage = d.qPage ∧ (d.onTarget t f).returning = d.returning ∧ (d.onTarget t f).failedSlots = d.failedSlots ∧
    (d.onTarget t f).enginesReset = d.enginesReset ∧ (d.onTarget t f).domains = d.domains ∧
    (d.onTarget t f).mwdCount = d.mwdCount ∧ (d.onTarget t f).mwdPre = d.mwdPre ∧ (d.onTarget t f).ejectReset = d.ejectReset ∧
    (d.onTarget t f).ejectStopped = d.ejectStopped ∧ (d.onTarget t f).pins = d.pins ∧ (d.onTarget t f).tap = d.tap ∧
    (d.onTarget t f).keys = d.keys ∧ (d.onTarget t f).answer = d.answer :=
  ⟨rfl, rfl, rfl, rfl, rfl, rfl, rfl, rfl, rfl, rfl, rfl, rfl, rfl, rfl, rfl, rfl, rfl, rfl, rfl, rfl, rfl, rfl, rfl, rfl, rfl, rfl, rfl, rfl, rfl, rfl, rfl, rfl, rfl, rfl, rfl, rfl, rfl, rfl, rfl, rfl, rfl, rfl, rfl, rfl, rfl, rfl, rfl, rfl, rfl, rfl, rfl, rfl, rfl, rfl, rfl, rfl⟩

/-- What `Device.onTarget` leaves, by accessor. -/
@[simp] theorem Device.onTarget_reads (d : Device) (t : Nat) (f : Target → Target) :
    (∀ (q : Reg), (d.onTarget t f).reg q = d.reg q) ∧ (∀ (q : Nat), (d.onTarget t f).eng q = d.eng q) ∧
    (∀ (q : Nat), (d.onTarget t f).cluster q = d.cluster q) ∧ (∀ (q : Nat), (d.onTarget t f).part q = d.part q) ∧
    (∀ (q : Nat), (d.onTarget t f).lane q = d.lane q) ∧ (∀ (q : Nat), (d.onTarget t f).point q = d.point q) ∧
    (∀ (q : Nat), (d.onTarget t f).link q = d.link q) ∧ (∀ (q : Nat), (d.onTarget t f).router q = d.router q) ∧
    (∀ (q : Nat), (d.onTarget t f).byte q = d.byte q) ∧ ((d.onTarget t f).now = d.now) :=
  ⟨fun _ => rfl, fun _ => rfl, fun _ => rfl, fun _ => rfl, fun _ => rfl, fun _ => rfl, fun _ => rfl, fun _ => rfl, fun _ => rfl, rfl⟩

/-- What `Device.onRouter` leaves: every field but routers. -/
@[simp] theorem Device.onRouter_fields (d : Device) (r : Nat) (f : Router → Router) :
    (d.onRouter r f).grade = d.grade ∧ (d.onRouter r f).phase = d.phase ∧ (d.onRouter r f).fresh = d.fresh ∧
    (d.onRouter r f).pace = d.pace ∧ (d.onRouter r f).regs = d.regs ∧ (d.onRouter r f).mem = d.mem ∧
    (d.onRouter r f).marks = d.marks ∧ (d.onRouter r f).unfilled = d.unfilled ∧ (d.onRouter r f).cache = d.cache ∧
    (d.onRouter r f).cachePicks = d.cachePicks ∧ (d.onRouter r f).accesses = d.accesses ∧
    (d.onRouter r f).fusedSpares = d.fusedSpares ∧ (d.onRouter r f).fusedColumns = d.fusedColumns ∧
    (d.onRouter r f).nor = d.nor ∧ (d.onRouter r f).norPresent = d.norPresent ∧ (d.onRouter r f).flashDig = d.flashDig ∧
    (d.onRouter r f).flashKept = d.flashKept ∧ (d.onRouter r f).selfTest = d.selfTest ∧ (d.onRouter r f).engines = d.engines ∧
    (d.onRouter r f).clusters = d.clusters ∧ (d.onRouter r f).points = d.points ∧ (d.onRouter r f).staleRanges = d.staleRanges ∧
    (d.onRouter r f).subs = d.subs ∧ (d.onRouter r f).inFlight = d.inFlight ∧ (d.onRouter r f).raises = d.raises ∧
    (d.onRouter r f).heldRaises = d.heldRaises ∧ (d.onRouter r f).lineDue = d.lineDue ∧ (d.onRouter r f).timers = d.timers ∧
    (d.onRouter r f).lanes = d.lanes ∧ (d.onRouter r f).links = d.links ∧ (d.onRouter r f).namespaces = d.namespaces ∧
    (d.onRouter r f).store = d.store ∧ (d.onRouter r f).blocks = d.blocks ∧ (d.onRouter r f).ids = d.ids ∧
    (d.onRouter r f).scanning = d.scanning ∧ (d.onRouter r f).host = d.host ∧ (d.onRouter r f).parts = d.parts ∧
    (d.onRouter r f).sources = d.sources ∧ (d.onRouter r f).image = d.image ∧ (d.onRouter r f).stage = d.stage ∧
    (d.onRouter r f).qcmd = d.qcmd ∧ (d.onRouter r f).qAddr = d.qAddr ∧ (d.onRouter r f).qPage = d.qPage ∧
    (d.onRouter r f).returning = d.returning ∧ (d.onRouter r f).failedSlots = d.failedSlots ∧
    (d.onRouter r f).enginesReset = d.enginesReset ∧ (d.onRouter r f).domains = d.domains ∧
    (d.onRouter r f).mwdCount = d.mwdCount ∧ (d.onRouter r f).mwdPre = d.mwdPre ∧ (d.onRouter r f).ejectReset = d.ejectReset ∧
    (d.onRouter r f).ejectStopped = d.ejectStopped ∧ (d.onRouter r f).pins = d.pins ∧ (d.onRouter r f).tap = d.tap ∧
    (d.onRouter r f).targets = d.targets ∧ (d.onRouter r f).keys = d.keys ∧ (d.onRouter r f).answer = d.answer :=
  ⟨rfl, rfl, rfl, rfl, rfl, rfl, rfl, rfl, rfl, rfl, rfl, rfl, rfl, rfl, rfl, rfl, rfl, rfl, rfl, rfl, rfl, rfl, rfl, rfl, rfl, rfl, rfl, rfl, rfl, rfl, rfl, rfl, rfl, rfl, rfl, rfl, rfl, rfl, rfl, rfl, rfl, rfl, rfl, rfl, rfl, rfl, rfl, rfl, rfl, rfl, rfl, rfl, rfl, rfl, rfl, rfl⟩

/-- What `Device.onRouter` leaves, by accessor. -/
@[simp] theorem Device.onRouter_reads (d : Device) (r : Nat) (f : Router → Router) :
    (∀ (q : Reg), (d.onRouter r f).reg q = d.reg q) ∧ (∀ (q : Nat), (d.onRouter r f).eng q = d.eng q) ∧
    (∀ (q : Nat), (d.onRouter r f).cluster q = d.cluster q) ∧ (∀ (q : Nat), (d.onRouter r f).part q = d.part q) ∧
    (∀ (q : Nat), (d.onRouter r f).lane q = d.lane q) ∧ (∀ (q : Nat), (d.onRouter r f).point q = d.point q) ∧
    (∀ (q : Nat), (d.onRouter r f).link q = d.link q) ∧ (∀ (q : Nat), (d.onRouter r f).target q = d.target q) ∧
    (∀ (q : Nat), (d.onRouter r f).byte q = d.byte q) ∧ ((d.onRouter r f).now = d.now) :=
  ⟨fun _ => rfl, fun _ => rfl, fun _ => rfl, fun _ => rfl, fun _ => rfl, fun _ => rfl, fun _ => rfl, fun _ => rfl, fun _ => rfl, rfl⟩

/-- What `Device.writeBytes` leaves: every field but mem. -/
@[simp] theorem Device.writeBytes_fields (d : Device) (a : Nat) (bs : List Byte) :
    (d.writeBytes a bs).grade = d.grade ∧ (d.writeBytes a bs).phase = d.phase ∧ (d.writeBytes a bs).fresh = d.fresh ∧
    (d.writeBytes a bs).pace = d.pace ∧ (d.writeBytes a bs).regs = d.regs ∧ (d.writeBytes a bs).marks = d.marks ∧
    (d.writeBytes a bs).unfilled = d.unfilled ∧ (d.writeBytes a bs).cache = d.cache ∧
    (d.writeBytes a bs).cachePicks = d.cachePicks ∧ (d.writeBytes a bs).accesses = d.accesses ∧
    (d.writeBytes a bs).fusedSpares = d.fusedSpares ∧ (d.writeBytes a bs).fusedColumns = d.fusedColumns ∧
    (d.writeBytes a bs).nor = d.nor ∧ (d.writeBytes a bs).norPresent = d.norPresent ∧
    (d.writeBytes a bs).flashDig = d.flashDig ∧ (d.writeBytes a bs).flashKept = d.flashKept ∧
    (d.writeBytes a bs).selfTest = d.selfTest ∧ (d.writeBytes a bs).engines = d.engines ∧
    (d.writeBytes a bs).clusters = d.clusters ∧ (d.writeBytes a bs).points = d.points ∧
    (d.writeBytes a bs).staleRanges = d.staleRanges ∧ (d.writeBytes a bs).subs = d.subs ∧
    (d.writeBytes a bs).inFlight = d.inFlight ∧ (d.writeBytes a bs).routers = d.routers ∧
    (d.writeBytes a bs).raises = d.raises ∧ (d.writeBytes a bs).heldRaises = d.heldRaises ∧
    (d.writeBytes a bs).lineDue = d.lineDue ∧ (d.writeBytes a bs).timers = d.timers ∧ (d.writeBytes a bs).lanes = d.lanes ∧
    (d.writeBytes a bs).links = d.links ∧ (d.writeBytes a bs).namespaces = d.namespaces ∧ (d.writeBytes a bs).store = d.store ∧
    (d.writeBytes a bs).blocks = d.blocks ∧ (d.writeBytes a bs).ids = d.ids ∧ (d.writeBytes a bs).scanning = d.scanning ∧
    (d.writeBytes a bs).host = d.host ∧ (d.writeBytes a bs).parts = d.parts ∧ (d.writeBytes a bs).sources = d.sources ∧
    (d.writeBytes a bs).image = d.image ∧ (d.writeBytes a bs).stage = d.stage ∧ (d.writeBytes a bs).qcmd = d.qcmd ∧
    (d.writeBytes a bs).qAddr = d.qAddr ∧ (d.writeBytes a bs).qPage = d.qPage ∧ (d.writeBytes a bs).returning = d.returning ∧
    (d.writeBytes a bs).failedSlots = d.failedSlots ∧ (d.writeBytes a bs).enginesReset = d.enginesReset ∧
    (d.writeBytes a bs).domains = d.domains ∧ (d.writeBytes a bs).mwdCount = d.mwdCount ∧
    (d.writeBytes a bs).mwdPre = d.mwdPre ∧ (d.writeBytes a bs).ejectReset = d.ejectReset ∧
    (d.writeBytes a bs).ejectStopped = d.ejectStopped ∧ (d.writeBytes a bs).pins = d.pins ∧ (d.writeBytes a bs).tap = d.tap ∧
    (d.writeBytes a bs).targets = d.targets ∧ (d.writeBytes a bs).keys = d.keys ∧ (d.writeBytes a bs).answer = d.answer :=
  ⟨rfl, rfl, rfl, rfl, rfl, rfl, rfl, rfl, rfl, rfl, rfl, rfl, rfl, rfl, rfl, rfl, rfl, rfl, rfl, rfl, rfl, rfl, rfl, rfl, rfl, rfl, rfl, rfl, rfl, rfl, rfl, rfl, rfl, rfl, rfl, rfl, rfl, rfl, rfl, rfl, rfl, rfl, rfl, rfl, rfl, rfl, rfl, rfl, rfl, rfl, rfl, rfl, rfl, rfl, rfl, rfl⟩

/-- What `Device.writeBytes` leaves, by accessor. -/
@[simp] theorem Device.writeBytes_reads (d : Device) (a : Nat) (bs : List Byte) :
    (∀ (q : Reg), (d.writeBytes a bs).reg q = d.reg q) ∧ (∀ (q : Nat), (d.writeBytes a bs).eng q = d.eng q) ∧
    (∀ (q : Nat), (d.writeBytes a bs).cluster q = d.cluster q) ∧ (∀ (q : Nat), (d.writeBytes a bs).part q = d.part q) ∧
    (∀ (q : Nat), (d.writeBytes a bs).lane q = d.lane q) ∧ (∀ (q : Nat), (d.writeBytes a bs).point q = d.point q) ∧
    (∀ (q : Nat), (d.writeBytes a bs).link q = d.link q) ∧ (∀ (q : Nat), (d.writeBytes a bs).target q = d.target q) ∧
    (∀ (q : Nat), (d.writeBytes a bs).router q = d.router q) ∧ ((d.writeBytes a bs).now = d.now) :=
  ⟨fun _ => rfl, fun _ => rfl, fun _ => rfl, fun _ => rfl, fun _ => rfl, fun _ => rfl, fun _ => rfl, fun _ => rfl, fun _ => rfl, rfl⟩

/-- What `Device.zeroFill` leaves: every field but mem, marks. -/
@[simp] theorem Device.zeroFill_fields (d : Device) (lo len : Nat) :
    (d.zeroFill lo len).grade = d.grade ∧ (d.zeroFill lo len).phase = d.phase ∧ (d.zeroFill lo len).fresh = d.fresh ∧
    (d.zeroFill lo len).pace = d.pace ∧ (d.zeroFill lo len).regs = d.regs ∧ (d.zeroFill lo len).unfilled = d.unfilled ∧
    (d.zeroFill lo len).cache = d.cache ∧ (d.zeroFill lo len).cachePicks = d.cachePicks ∧
    (d.zeroFill lo len).accesses = d.accesses ∧ (d.zeroFill lo len).fusedSpares = d.fusedSpares ∧
    (d.zeroFill lo len).fusedColumns = d.fusedColumns ∧ (d.zeroFill lo len).nor = d.nor ∧
    (d.zeroFill lo len).norPresent = d.norPresent ∧ (d.zeroFill lo len).flashDig = d.flashDig ∧
    (d.zeroFill lo len).flashKept = d.flashKept ∧ (d.zeroFill lo len).selfTest = d.selfTest ∧
    (d.zeroFill lo len).engines = d.engines ∧ (d.zeroFill lo len).clusters = d.clusters ∧
    (d.zeroFill lo len).points = d.points ∧ (d.zeroFill lo len).staleRanges = d.staleRanges ∧
    (d.zeroFill lo len).subs = d.subs ∧ (d.zeroFill lo len).inFlight = d.inFlight ∧ (d.zeroFill lo len).routers = d.routers ∧
    (d.zeroFill lo len).raises = d.raises ∧ (d.zeroFill lo len).heldRaises = d.heldRaises ∧
    (d.zeroFill lo len).lineDue = d.lineDue ∧ (d.zeroFill lo len).timers = d.timers ∧ (d.zeroFill lo len).lanes = d.lanes ∧
    (d.zeroFill lo len).links = d.links ∧ (d.zeroFill lo len).namespaces = d.namespaces ∧ (d.zeroFill lo len).store = d.store ∧
    (d.zeroFill lo len).blocks = d.blocks ∧ (d.zeroFill lo len).ids = d.ids ∧ (d.zeroFill lo len).scanning = d.scanning ∧
    (d.zeroFill lo len).host = d.host ∧ (d.zeroFill lo len).parts = d.parts ∧ (d.zeroFill lo len).sources = d.sources ∧
    (d.zeroFill lo len).image = d.image ∧ (d.zeroFill lo len).stage = d.stage ∧ (d.zeroFill lo len).qcmd = d.qcmd ∧
    (d.zeroFill lo len).qAddr = d.qAddr ∧ (d.zeroFill lo len).qPage = d.qPage ∧ (d.zeroFill lo len).returning = d.returning ∧
    (d.zeroFill lo len).failedSlots = d.failedSlots ∧ (d.zeroFill lo len).enginesReset = d.enginesReset ∧
    (d.zeroFill lo len).domains = d.domains ∧ (d.zeroFill lo len).mwdCount = d.mwdCount ∧
    (d.zeroFill lo len).mwdPre = d.mwdPre ∧ (d.zeroFill lo len).ejectReset = d.ejectReset ∧
    (d.zeroFill lo len).ejectStopped = d.ejectStopped ∧ (d.zeroFill lo len).pins = d.pins ∧ (d.zeroFill lo len).tap = d.tap ∧
    (d.zeroFill lo len).targets = d.targets ∧ (d.zeroFill lo len).keys = d.keys ∧ (d.zeroFill lo len).answer = d.answer :=
  ⟨rfl, rfl, rfl, rfl, rfl, rfl, rfl, rfl, rfl, rfl, rfl, rfl, rfl, rfl, rfl, rfl, rfl, rfl, rfl, rfl, rfl, rfl, rfl, rfl, rfl, rfl, rfl, rfl, rfl, rfl, rfl, rfl, rfl, rfl, rfl, rfl, rfl, rfl, rfl, rfl, rfl, rfl, rfl, rfl, rfl, rfl, rfl, rfl, rfl, rfl, rfl, rfl, rfl, rfl, rfl⟩

/-- What `Device.zeroFill` leaves, by accessor. -/
@[simp] theorem Device.zeroFill_reads (d : Device) (lo len : Nat) :
    (∀ (q : Reg), (d.zeroFill lo len).reg q = d.reg q) ∧ (∀ (q : Nat), (d.zeroFill lo len).eng q = d.eng q) ∧
    (∀ (q : Nat), (d.zeroFill lo len).cluster q = d.cluster q) ∧ (∀ (q : Nat), (d.zeroFill lo len).part q = d.part q) ∧
    (∀ (q : Nat), (d.zeroFill lo len).lane q = d.lane q) ∧ (∀ (q : Nat), (d.zeroFill lo len).point q = d.point q) ∧
    (∀ (q : Nat), (d.zeroFill lo len).link q = d.link q) ∧ (∀ (q : Nat), (d.zeroFill lo len).target q = d.target q) ∧
    (∀ (q : Nat), (d.zeroFill lo len).router q = d.router q) ∧ ((d.zeroFill lo len).now = d.now) :=
  ⟨fun _ => rfl, fun _ => rfl, fun _ => rfl, fun _ => rfl, fun _ => rfl, fun _ => rfl, fun _ => rfl, fun _ => rfl, fun _ => rfl, rfl⟩

/-- What `Device.norErase` leaves: every field but nor. -/
@[simp] theorem Device.norErase_fields (d : Device) (a len : Nat) :
    (d.norErase a len).grade = d.grade ∧ (d.norErase a len).phase = d.phase ∧ (d.norErase a len).fresh = d.fresh ∧
    (d.norErase a len).pace = d.pace ∧ (d.norErase a len).regs = d.regs ∧ (d.norErase a len).mem = d.mem ∧
    (d.norErase a len).marks = d.marks ∧ (d.norErase a len).unfilled = d.unfilled ∧ (d.norErase a len).cache = d.cache ∧
    (d.norErase a len).cachePicks = d.cachePicks ∧ (d.norErase a len).accesses = d.accesses ∧
    (d.norErase a len).fusedSpares = d.fusedSpares ∧ (d.norErase a len).fusedColumns = d.fusedColumns ∧
    (d.norErase a len).norPresent = d.norPresent ∧ (d.norErase a len).flashDig = d.flashDig ∧
    (d.norErase a len).flashKept = d.flashKept ∧ (d.norErase a len).selfTest = d.selfTest ∧
    (d.norErase a len).engines = d.engines ∧ (d.norErase a len).clusters = d.clusters ∧ (d.norErase a len).points = d.points ∧
    (d.norErase a len).staleRanges = d.staleRanges ∧ (d.norErase a len).subs = d.subs ∧
    (d.norErase a len).inFlight = d.inFlight ∧ (d.norErase a len).routers = d.routers ∧ (d.norErase a len).raises = d.raises ∧
    (d.norErase a len).heldRaises = d.heldRaises ∧ (d.norErase a len).lineDue = d.lineDue ∧
    (d.norErase a len).timers = d.timers ∧ (d.norErase a len).lanes = d.lanes ∧ (d.norErase a len).links = d.links ∧
    (d.norErase a len).namespaces = d.namespaces ∧ (d.norErase a len).store = d.store ∧ (d.norErase a len).blocks = d.blocks ∧
    (d.norErase a len).ids = d.ids ∧ (d.norErase a len).scanning = d.scanning ∧ (d.norErase a len).host = d.host ∧
    (d.norErase a len).parts = d.parts ∧ (d.norErase a len).sources = d.sources ∧ (d.norErase a len).image = d.image ∧
    (d.norErase a len).stage = d.stage ∧ (d.norErase a len).qcmd = d.qcmd ∧ (d.norErase a len).qAddr = d.qAddr ∧
    (d.norErase a len).qPage = d.qPage ∧ (d.norErase a len).returning = d.returning ∧
    (d.norErase a len).failedSlots = d.failedSlots ∧ (d.norErase a len).enginesReset = d.enginesReset ∧
    (d.norErase a len).domains = d.domains ∧ (d.norErase a len).mwdCount = d.mwdCount ∧ (d.norErase a len).mwdPre = d.mwdPre ∧
    (d.norErase a len).ejectReset = d.ejectReset ∧ (d.norErase a len).ejectStopped = d.ejectStopped ∧
    (d.norErase a len).pins = d.pins ∧ (d.norErase a len).tap = d.tap ∧ (d.norErase a len).targets = d.targets ∧
    (d.norErase a len).keys = d.keys ∧ (d.norErase a len).answer = d.answer :=
  ⟨rfl, rfl, rfl, rfl, rfl, rfl, rfl, rfl, rfl, rfl, rfl, rfl, rfl, rfl, rfl, rfl, rfl, rfl, rfl, rfl, rfl, rfl, rfl, rfl, rfl, rfl, rfl, rfl, rfl, rfl, rfl, rfl, rfl, rfl, rfl, rfl, rfl, rfl, rfl, rfl, rfl, rfl, rfl, rfl, rfl, rfl, rfl, rfl, rfl, rfl, rfl, rfl, rfl, rfl, rfl, rfl⟩

/-- What `Device.norErase` leaves, by accessor. -/
@[simp] theorem Device.norErase_reads (d : Device) (a len : Nat) :
    (∀ (q : Reg), (d.norErase a len).reg q = d.reg q) ∧ (∀ (q : Nat), (d.norErase a len).eng q = d.eng q) ∧
    (∀ (q : Nat), (d.norErase a len).cluster q = d.cluster q) ∧ (∀ (q : Nat), (d.norErase a len).part q = d.part q) ∧
    (∀ (q : Nat), (d.norErase a len).lane q = d.lane q) ∧ (∀ (q : Nat), (d.norErase a len).point q = d.point q) ∧
    (∀ (q : Nat), (d.norErase a len).link q = d.link q) ∧ (∀ (q : Nat), (d.norErase a len).target q = d.target q) ∧
    (∀ (q : Nat), (d.norErase a len).router q = d.router q) ∧ (∀ (q : Nat), (d.norErase a len).byte q = d.byte q) ∧
    ((d.norErase a len).now = d.now) :=
  ⟨fun _ => rfl, fun _ => rfl, fun _ => rfl, fun _ => rfl, fun _ => rfl, fun _ => rfl, fun _ => rfl, fun _ => rfl, fun _ => rfl, fun _ => rfl, rfl⟩

/-- `Device.onEng` changes the one it names. -/
@[simp] theorem Device.onEng_self (d : Device) (e : Nat) (f : Engine → Engine) : (d.onEng e f).eng e = f (d.eng e) := by
  simp [Device.onEng, Device.eng, Device.setEng]
/-- `Device.onEng` leaves the others. -/
theorem Device.onEng_other (d : Device) (e : Nat) (f : Engine → Engine) (q : Nat) (h : q ≠ e) : (d.onEng e f).eng q = d.eng q := by
  exact Assoc.get_put_of_ne _ _ _ _ _ h

/-- `Device.onCluster` changes the one it names. -/
@[simp] theorem Device.onCluster_self (d : Device) (e : Nat) (f : Cluster → Cluster) : (d.onCluster e f).cluster e = f (d.cluster e) := by
  simp [Device.onCluster, Device.cluster]
/-- `Device.onCluster` leaves the others. -/
theorem Device.onCluster_other (d : Device) (e : Nat) (f : Cluster → Cluster) (q : Nat) (h : q ≠ e) : (d.onCluster e f).cluster q = d.cluster q := by
  exact Assoc.get_put_of_ne _ _ _ _ _ h

/-- `Device.onPart` changes the one it names. -/
@[simp] theorem Device.onPart_self (d : Device) (e : Nat) (f : Part → Part) : (d.onPart e f).part e = f (d.part e) := by
  simp [Device.onPart, Device.part]
/-- `Device.onPart` leaves the others. -/
theorem Device.onPart_other (d : Device) (e : Nat) (f : Part → Part) (q : Nat) (h : q ≠ e) : (d.onPart e f).part q = d.part q := by
  exact Assoc.get_put_of_ne _ _ _ _ _ h

/-- `Device.onLane` changes the one it names. -/
@[simp] theorem Device.onLane_self (d : Device) (e : Nat) (f : Lane → Lane) : (d.onLane e f).lane e = f (d.lane e) := by
  simp [Device.onLane, Device.lane]
/-- `Device.onLane` leaves the others. -/
theorem Device.onLane_other (d : Device) (e : Nat) (f : Lane → Lane) (q : Nat) (h : q ≠ e) : (d.onLane e f).lane q = d.lane q := by
  exact Assoc.get_put_of_ne _ _ _ _ _ h

/-- `Device.onLink` changes the one it names. -/
@[simp] theorem Device.onLink_self (d : Device) (e : Nat) (f : LinkLane → LinkLane) : (d.onLink e f).link e = f (d.link e) := by
  simp [Device.onLink, Device.link]
/-- `Device.onLink` leaves the others. -/
theorem Device.onLink_other (d : Device) (e : Nat) (f : LinkLane → LinkLane) (q : Nat) (h : q ≠ e) : (d.onLink e f).link q = d.link q := by
  exact Assoc.get_put_of_ne _ _ _ _ _ h

/-- `Device.onTarget` changes the one it names. -/
@[simp] theorem Device.onTarget_self (d : Device) (e : Nat) (f : Target → Target) : (d.onTarget e f).target e = f (d.target e) := by
  simp [Device.onTarget, Device.target]
/-- `Device.onTarget` leaves the others. -/
theorem Device.onTarget_other (d : Device) (e : Nat) (f : Target → Target) (q : Nat) (h : q ≠ e) : (d.onTarget e f).target q = d.target q := by
  exact Assoc.get_put_of_ne _ _ _ _ _ h

/-- `Device.onRouter` changes the one it names. -/
@[simp] theorem Device.onRouter_self (d : Device) (e : Nat) (f : Router → Router) : (d.onRouter e f).router e = f (d.router e) := by
  simp [Device.onRouter, Device.router]
/-- `Device.onRouter` leaves the others. -/
theorem Device.onRouter_other (d : Device) (e : Nat) (f : Router → Router) (q : Nat) (h : q ≠ e) : (d.onRouter e f).router q = d.router q := by
  exact Assoc.get_put_of_ne _ _ _ _ _ h

/-- `Device.onPoint` changes the one it names. -/
@[simp] theorem Device.onPoint_self (d : Device) (e : Nat) (f : Point → Point) : (d.onPoint e f).point e = f (d.point e) := by
  simp [Device.onPoint, Device.point]
/-- `Device.onPoint` leaves the others. -/
theorem Device.onPoint_other (d : Device) (e : Nat) (f : Point → Point) (q : Nat) (h : q ≠ e) : (d.onPoint e f).point q = d.point q := by
  exact Assoc.get_put_of_ne _ _ _ _ _ h

end Sys2Proof.Machine
end

