-- ==== Sys2Proof/Laws/Memory.lean ====
section
/-! SUPPORT. The memories: every operation keeps the canonical form, a write reads back, and it leaves every other byte. -/

namespace Sys2Proof.Machine

/-! ### Cells -/

/-- The canonical form may start lower. -/
theorem Cells.wfFrom_mono (blank : Nat → Byte) (cells : List Host.Cell) (lo hi : Nat) (h : lo ≤ hi)
    (hw : Cells.wfFrom blank hi cells = true) : Cells.wfFrom blank lo cells = true := by
  cases cells with
  | nil => rfl
  | cons c rest =>
    obtain ⟨k, v⟩ := c
    simp only [Cells.wfFrom, Bool.and_eq_true, decide_eq_true_eq] at hw ⊢
    exact ⟨⟨by omega, hw.1.2⟩, hw.2⟩

/-- Below the first address of a canonical list every byte is blank. -/
theorem Cells.read_below (blank : Nat → Byte) (cells : List Host.Cell) (lo a : Nat) (ha : a < lo)
    (hw : Cells.wfFrom blank lo cells = true) : Cells.read blank cells a = blank a := by
  induction cells generalizing lo with
  | nil => rfl
  | cons c rest ih =>
    obtain ⟨k, v⟩ := c
    simp only [Cells.wfFrom, Bool.and_eq_true, decide_eq_true_eq] at hw
    simp only [Cells.read]
    rw [if_neg (by omega)]
    exact ih (k + 1) (by omega) hw.2

/-- Erasing leaves the other addresses. -/
theorem Cells.read_erase_other (blank : Nat → Byte) (cells : List Host.Cell) (a b : Nat) (h : b ≠ a) :
    Cells.read blank (Cells.erase cells a) b = Cells.read blank cells b := by
  induction cells with
  | nil => rfl
  | cons c rest ih =>
    obtain ⟨k, v⟩ := c
    by_cases hk : k = a
    · subst hk; simp [Cells.erase, Cells.read, Ne.symm h]
    · by_cases hb : k = b
      · simp [Cells.erase, Cells.read, hb, h]
      · simp [Cells.erase, Cells.read, hk, hb, ih]

/-- An erased address of a canonical memory reads blank. -/
theorem Cells.read_erase_self (blank : Nat → Byte) (cells : List Host.Cell) (lo a : Nat)
    (hw : Cells.wfFrom blank lo cells = true) : Cells.read blank (Cells.erase cells a) a = blank a := by
  induction cells generalizing lo with
  | nil => rfl
  | cons c rest ih =>
    obtain ⟨k, v⟩ := c
    simp only [Cells.wfFrom, Bool.and_eq_true, decide_eq_true_eq] at hw
    by_cases hk : k = a
    · simp only [Cells.erase, hk, if_true]
      exact Cells.read_below blank rest (k + 1) a (by omega) hw.2
    · simp only [Cells.erase, Cells.read, hk, if_false]
      exact ih (k + 1) hw.2

/-- An inserted byte reads back, and every other byte is left. -/
theorem Cells.read_insert (blank : Nat → Byte) (cells : List Host.Cell) (a : Nat) (x : Byte) (b : Nat) :
    Cells.read blank (Cells.insert cells a x) b = if b = a then x else Cells.read blank cells b := by
  induction cells with
  | nil =>
    by_cases h : b = a
    · simp [Cells.insert, Cells.read, h]
    · simp [Cells.insert, Cells.read, h, Ne.symm h]
  | cons c rest ih =>
    obtain ⟨k, v⟩ := c
    by_cases h1 : a < k
    · by_cases h : b = a
      · simp [Cells.insert, Cells.read, h1, h]
      · simp [Cells.insert, Cells.read, h1, h, Ne.symm h]
    · by_cases h2 : k = a
      · subst h2
        by_cases h : b = k
        · simp [Cells.insert, Cells.read, h]
        · simp [Cells.insert, Cells.read, h, Ne.symm h]
      · simp only [Cells.insert, h1, h2, if_false, Cells.read, ih]
        by_cases h : b = a
        · subst h; simp [h2]
        · simp [h]

/-- Inserting a byte that is not blank keeps the canonical form. -/
theorem Cells.wf_insert (blank : Nat → Byte) (cells : List Host.Cell) (a : Nat) (x : Byte) (lo : Nat) (hx : x ≠ blank a)
    (hlo : lo ≤ a) (hw : Cells.wfFrom blank lo cells = true) : Cells.wfFrom blank lo (Cells.insert cells a x) = true := by
  induction cells generalizing lo with
  | nil => simp [Cells.insert, Cells.wfFrom, hx, hlo]
  | cons c rest ih =>
    obtain ⟨k, v⟩ := c
    simp only [Cells.wfFrom, Bool.and_eq_true, decide_eq_true_eq] at hw
    by_cases h1 : a < k
    · simp only [Cells.insert, h1, if_true, Cells.wfFrom, Bool.and_eq_true, decide_eq_true_eq]
      exact ⟨⟨hlo, hx⟩, ⟨by omega, hw.1.2⟩, hw.2⟩
    · by_cases h2 : k = a
      · subst h2
        simp only [Cells.insert, lt_irrefl, if_false, if_true, Cells.wfFrom, Bool.and_eq_true, decide_eq_true_eq]
        exact ⟨⟨hlo, hx⟩, hw.2⟩
      · simp only [Cells.insert, h1, h2, if_false, Cells.wfFrom, Bool.and_eq_true, decide_eq_true_eq]
        exact ⟨hw.1, ih (k + 1) (by omega) hw.2⟩

/-- Erasing keeps the canonical form. -/
theorem Cells.wf_erase (blank : Nat → Byte) (cells : List Host.Cell) (a lo : Nat)
    (hw : Cells.wfFrom blank lo cells = true) : Cells.wfFrom blank lo (Cells.erase cells a) = true := by
  induction cells generalizing lo with
  | nil => rfl
  | cons c rest ih =>
    obtain ⟨k, v⟩ := c
    simp only [Cells.wfFrom, Bool.and_eq_true, decide_eq_true_eq] at hw
    by_cases hk : k = a
    · simp only [Cells.erase, hk, if_true]
      exact Cells.wfFrom_mono blank rest lo (k + 1) (by omega) hw.2
    · simp only [Cells.erase, hk, if_false, Cells.wfFrom, Bool.and_eq_true, decide_eq_true_eq]
      exact ⟨hw.1, ih (k + 1) hw.2⟩

/-- Filtering keeps the canonical form. -/
theorem Cells.wf_filter (blank : Nat → Byte) (cells : List Host.Cell) (f : Host.Cell → Bool) (lo : Nat)
    (hw : Cells.wfFrom blank lo cells = true) : Cells.wfFrom blank lo (cells.filter f) = true := by
  induction cells generalizing lo with
  | nil => rfl
  | cons c rest ih =>
    obtain ⟨k, v⟩ := c
    simp only [Cells.wfFrom, Bool.and_eq_true, decide_eq_true_eq] at hw
    simp only [List.filter]
    split
    · simp only [Cells.wfFrom, Bool.and_eq_true, decide_eq_true_eq]
      exact ⟨hw.1, ih (k + 1) hw.2⟩
    · exact ih lo (Cells.wfFrom_mono blank rest lo (k + 1) (by omega) hw.2)

/-- A write keeps the canonical form. -/
theorem Cells.wf_write (blank : Nat → Byte) (cells : List Host.Cell) (a : Nat) (x : Byte)
    (hw : Memory.wf blank cells = true) : Memory.wf blank (Cells.write blank cells a x) = true := by
  unfold Cells.write
  split
  · exact Cells.wf_erase blank cells a 0 hw
  · rename_i h; exact Cells.wf_insert blank cells a x 0 h (Nat.zero_le a) hw

/-- Consecutive writes keep the canonical form. -/
theorem Cells.wf_writeList (blank : Nat → Byte) (xs : List Byte) (cells : List Host.Cell) (a : Nat)
    (hw : Memory.wf blank cells = true) : Memory.wf blank (Cells.writeList blank cells a xs) = true := by
  induction xs generalizing cells a with
  | nil => exact hw
  | cons x xs ih => exact ih _ _ (Cells.wf_write blank cells a x hw)

/-- Blanking a range keeps the canonical form. -/
theorem Cells.wf_blankRange (blank : Nat → Byte) (cells : List Host.Cell) (lo len : Nat)
    (hw : Memory.wf blank cells = true) : Memory.wf blank (Cells.blankRange cells lo len) = true :=
  Cells.wf_filter blank cells _ 0 hw

/-- A write leaves every other byte. -/
theorem Cells.read_write_other (blank : Nat → Byte) (cells : List Host.Cell) (a b : Nat) (x : Byte) (h : b ≠ a) :
    Cells.read blank (Cells.write blank cells a x) b = Cells.read blank cells b := by
  unfold Cells.write
  split
  · exact Cells.read_erase_other blank cells a b h
  · rw [Cells.read_insert, if_neg h]

/-- A written byte reads back. -/
theorem Cells.read_write_self (blank : Nat → Byte) (cells : List Host.Cell) (a : Nat) (x : Byte)
    (hw : Memory.wf blank cells = true) : Cells.read blank (Cells.write blank cells a x) a = x := by
  unfold Cells.write
  split
  · rename_i h; rw [Cells.read_erase_self blank cells 0 a hw, h]
  · rw [Cells.read_insert, if_pos rfl]

/-- Consecutive writes leave every byte outside them. -/
theorem Cells.read_writeList_other (blank : Nat → Byte) (xs : List Byte) (cells : List Host.Cell) (a b : Nat)
    (h : b < a ∨ a + xs.length ≤ b) : Cells.read blank (Cells.writeList blank cells a xs) b = Cells.read blank cells b := by
  induction xs generalizing cells a with
  | nil => rfl
  | cons x xs ih =>
    simp only [List.length_cons] at h
    show Cells.read blank (Cells.writeList blank (Cells.write blank cells a x) (a + 1) xs) b = _
    rw [ih _ _ (by omega), Cells.read_write_other blank cells a b x (by omega)]

/-- Consecutive writes read back. -/
theorem Cells.read_writeList_self (blank : Nat → Byte) (xs : List Byte) (cells : List Host.Cell) (a i : Nat) (x : Byte)
    (hw : Memory.wf blank cells = true) (hi : xs[i]? = some x) :
    Cells.read blank (Cells.writeList blank cells a xs) (a + i) = x := by
  induction xs generalizing cells a i with
  | nil => simp at hi
  | cons y ys ih =>
    show Cells.read blank (Cells.writeList blank (Cells.write blank cells a y) (a + 1) ys) (a + i) = x
    cases i with
    | zero =>
      rw [Cells.read_writeList_other blank ys _ _ _ (by omega)]
      simp only [List.getElem?_cons_zero, Option.some.injEq] at hi
      rw [← hi]; exact Cells.read_write_self blank cells a y hw
    | succ i =>
      have := ih (Cells.write blank cells a y) (a + 1) i (Cells.wf_write blank cells a y hw) (by simpa using hi)
      rw [← this]; congr 1; omega

/-- A blanked range reads blank. -/
theorem Cells.read_blankRange (blank : Nat → Byte) (cells : List Host.Cell) (lo len a : Nat) :
    Cells.read blank (Cells.blankRange cells lo len) a =
      if lo ≤ a ∧ a < lo + len then blank a else Cells.read blank cells a := by
  induction cells with
  | nil => simp [Cells.blankRange, Cells.read]
  | cons c rest ih =>
    obtain ⟨k, v⟩ := c
    unfold Cells.blankRange at ih ⊢
    simp only [List.filter]
    by_cases hk : lo ≤ k ∧ k < lo + len
    · simp only [hk, and_self, decide_true, Bool.not_true, ih, Cells.read]
      split
      · rfl
      · rw [if_neg (by rintro rfl; exact ‹¬ _› hk)]
    · simp only [hk, decide_false, Bool.not_false, Cells.read]
      split
      · subst_vars; rw [if_neg hk]
      · exact ih

/-! ### The block -/

/-- Writing bytes keeps both memories canonical. -/
theorem Device.canonical_writeBytes (d : Device) (a : Nat) (bs : List Byte) (h : d.canonical = true) :
    (d.writeBytes a bs).canonical = true := by
  simp only [Device.canonical, Bool.and_eq_true] at h ⊢
  exact ⟨Cells.wf_writeList physBlank bs d.mem a h.1, h.2⟩

/-- Zero-filling keeps both memories canonical. -/
theorem Device.canonical_zeroFill (d : Device) (lo len : Nat) (h : d.canonical = true) :
    (d.zeroFill lo len).canonical = true := by
  simp only [Device.canonical, Bool.and_eq_true] at h ⊢
  exact ⟨Cells.wf_blankRange physBlank d.mem lo len h.1, h.2⟩

/-- Erasing configuration memory keeps both memories canonical. -/
theorem Device.canonical_norErase (d : Device) (a len : Nat) (h : d.canonical = true) :
    (d.norErase a len).canonical = true := by
  simp only [Device.canonical, Bool.and_eq_true] at h ⊢
  exact ⟨h.1, Cells.wf_blankRange norBlank d.nor a len h.2⟩

/-- Programming configuration memory keeps both memories canonical. -/
theorem Device.canonical_norProgram (xs : List Byte) (d : Device) (a : Nat) (h : d.canonical = true) :
    (d.norProgram a xs).canonical = true := by
  induction xs generalizing d a with
  | nil => exact h
  | cons x xs ih =>
    apply ih
    simp only [Device.canonical, Bool.and_eq_true] at h ⊢
    exact ⟨h.1, Cells.wf_write norBlank d.nor a _ h.2⟩

/-- Bytes written leave every other byte. -/
theorem Device.byte_writeBytes_other (d : Device) (a b : Nat) (bs : List Byte) (h : b < a ∨ a + bs.length ≤ b) :
    (d.writeBytes a bs).byte b = d.byte b :=
  Cells.read_writeList_other physBlank bs d.mem a b h

/-- Bytes written read back. -/
theorem Device.byte_writeBytes_self (d : Device) (a i : Nat) (bs : List Byte) (x : Byte) (h : d.canonical = true)
    (hi : bs[i]? = some x) : (d.writeBytes a bs).byte (a + i) = x := by
  simp only [Device.canonical, Bool.and_eq_true] at h
  exact Cells.read_writeList_self physBlank bs d.mem a i x h.1 hi

/-- A byte of the configuration memory after a program: its bits only clear. -/
theorem Device.nor_program_byte (xs : List Byte) (d : Device) (a i : Nat) (x : Byte) (h : d.canonical = true)
    (hi : xs[i]? = some x) :
    Cells.read norBlank (d.norProgram a xs).nor (a + i) = Cells.read norBlank d.nor (a + i) &&& x := by
  induction xs generalizing d a i with
  | nil => simp at hi
  | cons y ys ih =>
    have hc : ({ d with nor := Cells.write norBlank d.nor a (Cells.read norBlank d.nor a &&& y) } : Device).canonical = true := by
      simp only [Device.canonical, Bool.and_eq_true] at h ⊢
      exact ⟨h.1, Cells.wf_write norBlank d.nor a _ h.2⟩
    have hn : Memory.wf norBlank d.nor = true := by
      simp only [Device.canonical, Bool.and_eq_true] at h; exact h.2
    have keep : ∀ (zs : List Byte) (d : Device) (b c : Nat), c < b →
        Cells.read norBlank (d.norProgram b zs).nor c = Cells.read norBlank d.nor c := by
      intro zs
      induction zs with
      | nil => intros; rfl
      | cons z zs ihz =>
        intro d b c hcb
        show Cells.read norBlank (Device.norProgram _ (b + 1) zs).nor c = _
        rw [ihz _ _ _ (by omega)]
        exact Cells.read_write_other norBlank d.nor b c _ (by omega)
    show Cells.read norBlank (Device.norProgram _ (a + 1) ys).nor (a + i) = _
    cases i with
    | zero =>
      rw [keep _ _ _ _ (by omega)]
      simp only [List.getElem?_cons_zero, Option.some.injEq] at hi
      rw [← hi]; exact Cells.read_write_self norBlank d.nor a _ hn
    | succ i =>
      have := ih _ (a + 1) i hc (by simpa using hi)
      rw [show a + (i + 1) = a + 1 + i by omega, this]
      congr 1
      exact Cells.read_write_other norBlank d.nor a _ _ (by omega)

end Sys2Proof.Machine
end

