-- ==== Sys2Proof/WellFormed.lean ====
section
/-! DEFINITION. Well-formed commands: every number names a unit the grade carries (R1, R6, R7), every list has the length its
rule gives. An ill-formed command names an event that cannot happen; it changes nothing (log entry 1). -/

namespace Sys2Proof

/-- Units that go out of service (R401): clusters, field lanes, link lanes, DRAM stacks of the grade. -/
def UnitClass.bound (g : Grade) : UnitClass → Nat
  | .cluster => g.clusters
  | .fieldLane => g.fieldLanes
  | .linkLane => g.linkLanes
  | .dramStack => g.stacks

/-- The well-formed commands of a grade. -/
def Instr.wf (g : Grade) : Instr → Bool
  | .issuePair e | .repeatIteration e | .barrierRelease e | .shortOpComplete e | .divRetire e | .fpuLongRetire e
  | .waitLimitExpire e | .chPost e | .chSendComplete e | .chRecvComplete e | .evWaitComplete e | .ptReadComplete e
  | .ptSubComplete e | .timNslRead e | .timNshRead e | .swResetEngine e => decide (e < g.engines)
  | .lineDelivery e l => decide (e < g.engines) && decide (l % 32 = 0 ∧ l < 2 ^ 24)
  | .lsuComplete e _ _ => decide (e < g.engines)
  | .sharedRequestStart c _ | .kinComplete c | .iplComplete c | .taskLanding c
  | .swResetCluster c => decide (c < g.clusters)
  | .bmvComplete c | .bmvSuspend c => decide (c.cluster < g.clusters)
  | .softwareRaise p _ | .force p | .forceRelease p | .forceApply p | .cycleStart p | .modeRequest p _ | .decantEnd p _
  | .lowWater p | .caskCommit p _ | .rearm p | .celEnable p | .celDisable p | .newkey p | .fenceDrainEnd p
  | .partitionWatchdog p | .wdkick p _ | .swResetPartition p | .scrubComplete p | .decantLoadComplete p => decide (p < 16)
  | .timerArm n _ _ | .timerExpire n => decide (n < 1024)
  | .updateApply r p => decide (r < g.dies) && decide (p < 16)
  | .deliveryRecordWrite r | .subscriberLineRaise r => decide (r < g.dies)
  | .frameReceive n f _ | .identResponse n f | .wakeFrame n f =>
    decide (n < g.fieldLanes) && decide (60 ≤ f.length ∧ f.length ≤ 9018)
  | .take n f | .send n f => decide (n < g.fieldLanes) && decide (f < 256)
  | .plainTransmit n | .laneLinkUp n | .laneReentry n | .laneLinkDown n => decide (n < g.fieldLanes)
  | .identTimeout n k => decide (n < g.fieldLanes) && decide (k < 32)
  | .outOfService c u | .returnUnit c u | .zeroFillComplete c u => decide (u < c.bound g)
  | .selfTestComplete c u _ fs => decide (u < c.bound g) && fs.all (fun k => decide (k < 17))
  | .targetGrant t => decide (t < 123)
  | .pageFillComplete pg => decide (pg < 1024 * g.stacks)
  | .domainFault n | .domainOn n | .domainOff n | .vset n _ => decide (n < 84)
  | .thermalWarning d _ => decide (d < 5)
  | .linkBlockReceive m _ | .linkDown m _ | .lineReset m | .linkLaneUp m _ => decide (m < g.linkLanes)
  | .surpriseDown n s | .storePortLinkUp n s _ _ _ => decide (n < 2) && decide (s < 2) && g.hasCellar
  | .identityReadComplete s a _ => decide (s < 8) && decide (a < 8)
  | .tmxSelect k _ => decide (k < 8)
  | .registerWrite _ a _ => decide (a % 4 = 0) && decide (0xFF00000000 ≤ a ∧ a < 0xFF01000000)
  | .rescan (some p) => decide (p < 16)
  | .wake why => why.struck.all (fun m => decide (m.1 < 2 ^ 40))
  | _ => true

end Sys2Proof
end

