-- ==== Sys2Proof/Tests/Slice0.lean ====
section
/-! SUPPORT. Tests on fixed values. Expected values are the spec's own examples, or are worked out by hand from its tables; the
witnesses show that the hypotheses of each obligation can be met. -/

namespace Sys2Proof.Tests

section

set_option Elab.async false

open Sys2Proof Sys2Proof.Machine

/-! ### Words of the engines' encoding (the listings of 03_move_encoding.md, R79, R91 to R94) -/

/-- 8D 10: `d16 -> lsu.a`. -/
theorem test_decode_short : decodeMove [0x8D, 0x10] = .ok { pre := {}, body := .short (.opnd .lsuA) (.d 16) } 2 := by decide
/-- C1 8E 08: `#8 -> lsu.t.ldw`. -/
theorem test_decode_i8 : decodeMove [0xC1, 0x8E, 0x08] = .ok { pre := {}, body := .longI8 (.trig (.lsu .ldw)) 8 } 3 := by decide
/-- E7 87 D6 12 00 18 4A: `#0x0012_D687 -> d24`. -/
theorem test_decode_imm32 : decodeMove [0xE7, 0x87, 0xD6, 0x12, 0x00, 0x18, 0x4A] =
    .ok { pre := { imm := some (.full 0x0012D687) }, body := .short (.d 24) .imm } 7 := by decide
/-- 4F 56: `lsu.r -> alu0.t.subs`. -/
theorem test_decode_alu : decodeMove [0x4F, 0x56] = .ok { pre := {}, body := .short (.trig (.alu false .subs)) (.res .lsuR) } 2 := by decide
/-- C1 6D 03: `#3 -> shf.t.sar`. -/
theorem test_decode_shf : decodeMove [0xC1, 0x6D, 0x03] = .ok { pre := {}, body := .longI8 (.trig (.shf .sar)) 3 } 3 := by decide
/-- C0 C0 4D: `shf.r -> cmp.a`. -/
theorem test_decode_long : decodeMove [0xC0, 0xC0, 0x4D] = .ok { pre := {}, body := .long (.opnd .cmpA) (.res .shfR) } 3 := by decide
/-- C1 DA 00: `#0 -> cmp.t.lt.g3`. -/
theorem test_decode_cmp : decodeMove [0xC1, 0xDA, 0x00] = .ok { pre := {}, body := .longI8 (.trig (.cmp .lt 3)) 0 } 3 := by decide
/-- E4 03 B7 28: `?g3 d40 -> cu.t.jmp`. -/
theorem test_decode_guard : decodeMove [0xE4, 0x03, 0xB7, 0x28] =
    .ok { pre := { guard := some (false, 3) }, body := .short (.trig (.cu .jmp)) (.d 40) } 4 := by decide
/-- E2 E5 00 10 00 E7 78 56 34 12 93 4A: `repi rc: far 0x0_1000: #0x1234_5678 -> lsu.t.stw`. -/
theorem test_decode_longest : decodeMove [0xE2, 0xE5, 0x00, 0x10, 0x00, 0xE7, 0x78, 0x56, 0x34, 0x12, 0x93, 0x4A] =
    .ok { pre := { rep := some .repiRc, far := some 0x01000, imm := some (.full 0x12345678) },
          body := .short (.trig (.lsu .stw)) .imm } 12 := by decide
/-- R92: F5 34 12 is `gate 0x1234`, F0 is `nop`. -/
theorem test_decode_system : decodeMove [0xF5, 0x34, 0x12] = .ok { pre := {}, body := .gate 0x1234 } 3 ∧
    decodeMove [0xF0] = .ok { pre := {}, body := .nop } 1 := by decide
/-- R94: a reserved first byte, and a reserved destination. -/
theorem test_decode_reserved : decodeMove [0xF7] = .illegal 1 ∧ decodeMove [0xC0, 0xC1, 0x00] = .illegal 2 := by decide
/-- `cmp.t.bc.g7` has ID 0xFF (R82). -/
theorem test_dst_id : Dst.id (.trig (.cmp .bc 7)) = 0xFF ∧ Dst.ofId 0xFF = some (.trig (.cmp .bc 7)) := by decide
/-- The commands have no words of their own. -/
theorem test_no_command_words : decodeTableWord 32 5 = none := by decide

/-! ### Well-formed commands: an ill-formed term for each check -/

theorem test_wf_engine : (Instr.issuePair 1023).wf .x1024P = true ∧ (Instr.issuePair 1024).wf .x1024P = false ∧
    (Instr.issuePair 256).wf .x256E = false := by decide
theorem test_wf_line : (Instr.lineDelivery 0 32).wf .x1024P = true ∧ (Instr.lineDelivery 0 33).wf .x1024P = false ∧
    (Instr.lsuComplete 1024 .none none).wf .x1024P = false := by decide
theorem test_wf_cluster : (Instr.kinComplete 63).wf .x1024C = true ∧ (Instr.kinComplete 32).wf .x512C = false := by decide
theorem test_wf_part : (Instr.force 15).wf .x1024P = true ∧ (Instr.force 16).wf .x1024P = false ∧
    (Instr.rescan (some 16)).wf .x1024P = false := by decide
theorem test_wf_timer : (Instr.timerExpire 1023).wf .x1024P = true ∧ (Instr.timerExpire 1024).wf .x1024P = false := by decide
theorem test_wf_router : (Instr.updateApply 3 0).wf .x1024P = true ∧ (Instr.updateApply 1 0).wf .x256E = false ∧
    (Instr.deliveryRecordWrite 4).wf .x1024P = false := by decide
theorem test_wf_frame : (Instr.frameReceive 0 (List.replicate 60 0) true).wf .x1024P = true ∧
    (Instr.frameReceive 0 (List.replicate 59 0) true).wf .x1024P = false ∧ (Instr.take 0 256).wf .x1024P = false ∧
    (Instr.plainTransmit 64).wf .x1024P = false ∧ (Instr.identTimeout 0 32).wf .x1024P = false := by decide
theorem test_wf_unit : (Instr.outOfService .dramStack 3).wf .x1024P = true ∧ (Instr.outOfService .dramStack 4).wf .x1024P = false ∧
    (Instr.selfTestComplete .cluster 0 true [17]).wf .x1024P = false ∧ (Instr.targetGrant 123).wf .x1024P = false ∧
    (Instr.pageFillComplete 4096).wf .x1024P = false := by decide
theorem test_wf_power : (Instr.vset 83 0).wf .x1024P = true ∧ (Instr.vset 84 0).wf .x1024P = false ∧
    (Instr.thermalWarning 5 0).wf .x1024P = false := by decide
theorem test_wf_ports : (Instr.lineReset 16).wf .x1024P = false ∧ (Instr.surpriseDown 0 0).wf .x1024C = false ∧
    (Instr.identityReadComplete 8 0 .noAck).wf .x1024P = false ∧ (Instr.tmxSelect 8 0).wf .x1024P = false ∧
    (Instr.registerWrite { ring := 0, part := none } 0xFF00610009 0).wf .x1024P = false := by decide

/-! ### The spec's worked values -/

/-- R115: `sar` by 0xFFFF_FFFF gives sign fill. -/
theorem test_sar_fill : shfExec .sar 0x80000000 0xFFFFFFFF = 0xFFFFFFFF ∧ shfExec .sar 0x7FFFFFFF 0xFFFFFFFF = 0 := by decide
/-- R114: the absolute value of 0x8000_0000. -/
theorem test_abs_min : aluExec .abs 0 0x80000000 = (0x80000000, flagV) := by decide
/-- R129: `sincos` of one eighth of a turn, and of a quarter. -/
theorem test_sincos : sinCos 0x20000000 = (0x2D413CCD, 0x2D413CCD) ∧ sinCos 0x40000000 = (0x40000000, 0) := by decide +kernel
/-- R129: a square root is at most 2^24. -/
theorem test_sqrt_top : sqrtRna (0xFFFFFFFF * 2 ^ 16) = 2 ^ 24 := by decide +kernel
/-- The check value of CRC-32 over "123456789" (13_lanes_ports_identity.md). -/
theorem test_crc32 : crc32 [0x31, 0x32, 0x33, 0x34, 0x35, 0x36, 0x37, 0x38, 0x39] = 0xCBF43926 := by decide +kernel

/-- The feedback frame of 13_lanes_ports_identity.md. -/
def drive : List Byte :=
  [0x02, 0x47, 0x4E, 0x00, 0x05, 0x00, 0x02, 0x11, 0x22, 0x00, 0x00, 0x12, 0x88, 0xB5, 0x11, 0x00, 0x03, 0x00, 0x12, 0x00, 0x08, 0x00,
   0x40, 0x1F, 0x00, 0x00, 0x31, 0x0A, 0x07, 0x02, 0x87, 0xD6, 0x12, 0x00, 0x01, 0x08, 0xD4, 0xFE] ++ List.replicate 22 0

/-- Its fields, and what its three map entries scatter. -/
theorem test_kryene : isKryene drive = true ∧ (kryeneOf drive).frame = 3 ∧ (kryeneOf drive).station = 0x12 ∧
    (kryeneOf drive).pdlen = 8 ∧ (kryeneOf drive).cycle = 0x1F40 ∧ (kryeneOf drive).idtag = 0x02070A31 := by decide

/-- R258: a word of 4 bytes, of 2 and of 2 with its sign, at the drive's offsets. -/
def entry (offset : Nat) (width : BitVec 2) (sgn : Bool) : MapEntry :=
  { point := 0, aux := false, offset := offset, width := width, sgn := sgn, frame := 3 }
theorem test_slots : slotValue (entry 0 2 false) (kryeneOf drive).data = 0x0012D687 ∧
    slotValue (entry 4 1 false) (kryeneOf drive).data = 0x00000801 ∧ slotValue (entry 6 1 true) (kryeneOf drive).data = 0xFFFFFED4 := by
  decide +kernel

/-- R515: with partition 3 in Recovery and partition 6 in Free, probe 3,010 of cluster 23 is refused and probe 1,025 of cluster 8 is not. -/
def probed : Device :=
  { regs := [(.parOwn 3, 0x80000000), (.parCll 3, 0x100), (.parOwn 6, 0x80000000), (.parCll 6, 0x800000)]
    parts := [(3, { mode := .recovery }), (6, { mode := .free })] }
theorem test_probe_refused : (probed.tmxSelect 0 0x80002BC2).reg .tmxStat = 1 ∧ (probed.tmxSelect 0 0x80002BC2).reg (.tmxSel 0) = 0 := by decide
theorem test_probe_taken : (probed.tmxSelect 0 0x80000401).reg (.tmxSel 0) = 0x80000401 := by decide

/-- Ring 0 writes 0x0203_0001 to TRL.SVC: the return of DRAM stack 1 (12_trellis_and_partitions.md). -/
theorem test_svc_return :
    ((({ grade := .x1024C, regs := [(.trlOffx, 2)] } : Device).svc 0x02030001).reg .trlSvcst) = 0x1C1 := by decide

/-! ### Witnesses: what the hypotheses of each obligation ask for, on small states -/

/-- A running module whose partition 0 owns cluster 0, in Free mode; its engine 0 runs at pace period 100. -/
def owned : Device :=
  { phase := .running, pace := { pcnt := 100 }, regs := [(.parOwn 0, 0x80000000), (.parCll 0, 1)]
    parts := [(0, { mode := .free })], engines := [(0, { run := .running })] }
/-- The same module with engine 0 as given. -/
def withEng (x : Engine) : Device := { owned with engines := [(0, { x with run := .running })] }
/-- The same module with partition 0 as given, and more registers. -/
def withPart (x : Part) (rs : Assoc Reg Word) : Device := { owned with parts := [(0, x)], regs := rs ++ owned.regs }

/-- AluResultAndFlags, ShiftResult, MulResultsAndAccumulator, DivisionAndComparison, the read of SystemRegistersWriteAndRead: an engine with
nothing under way and no fault pending, whose result is due. -/
theorem witness_short : (owned.eng 0).short = [] ∧ 0 + 1 ≤ owned.nowStep 0 ∧ 7 + 34 ≤ (withEng { step := 40 }).nowStep 0 ∧
    (owned.eng 0).pendingFaults = [] ∧ ((withEng { step := 40 }).eng 0).actl.getLsbD 2 = false := by decide
/-- The code of the pair: `#7 -> d5` and `#8 -> d6`, in one window. -/
def pairCode : List Byte := [0xC1, 0x05, 0x07, 0xC1, 0x06, 0x08] ++ List.replicate 26 0
def pairing : Device := withEng { pc := 0x8000, lines := [{ addr := 0x8000, bytes := pairCode, bad := [], req := 0, delivered := true }] }
def move7 : Move := { pre := {}, body := .longI8 (.d 5) 7 }
def move8 : Move := { pre := {}, body := .longI8 (.d 6) 8 }
/-- PairOfRegisterMovesIssues: two moves to data registers. -/
theorem witness_pair :
    let x := pairing.eng 0
    pairing.mayStep 0 = true ∧ pairing.draining 0 = false ∧ x.rep = none ∧ x.wait = none ∧ x.redirect = none ∧ x.bar = false ∧
    x.pendingFaults = [] ∧ x.waitFault = none ∧ x.resumeRep = 0 ∧ x.readyAt ≤ pairing.nowStep 0 ∧
    (pairing.paced 0 && inFlash x.pc) = false ∧ pairing.eventLine 0 = none ∧
    pairing.form 0 x.pc.toNat = .go { addr := 0x8000, len := 3, got := .move move7, bad := false }
      (some { addr := 0x8003, len := 3, got := .move move8, bad := false }) ∧
    move7.pre.rep = none ∧ x.guardHolds move7 = true ∧ x.guardHolds move8 = true ∧ move7.waits = none ∧ move8.waits = none ∧
    move7.body.dst = .d 5 ∧ move8.body.dst = .d 6 ∧ x.operand move7 = some 7 ∧ x.operand move8 = some 8 ∧
    move7.body.operand = .value 7 ∧ move8.body.operand = .value 8 := by
  decide +kernel

/-- RepeatIterationExecutesOnce: in the middle of a repeat, and at its last iteration. -/
def repeating (n : Nat) : Device :=
  withEng { rep := some { move := { pre := { rep := some (.repi 3) }, body := .longI8 (.d 5) 7 }, len := 4, left := n, interruptible := true } }
theorem witness_repeat : ∀ n ∈ [1, 2],
    let x := (repeating n).eng 0
    (x.rep.map (·.left)) = some n ∧ (repeating n).mayStep 0 = true ∧ x.redirect = none ∧ x.wait = none ∧ x.pendingFaults = [] ∧ x.waitFault = none ∧
    x.readyAt ≤ (repeating n).nowStep 0 ∧ (repeating n).eventLine 0 = none ∧
    ∀ r ∈ x.rep, x.guardHolds r.move = true ∧ r.move.waits = none ∧ r.move.body.dst = .d 5 ∧ r.move.body.operand = .value 7 ∧
      x.operand r.move = some 7 := by decide +kernel

/-- ControlTransfersTakeEffect, SystemRegistersWriteAndRead: engine 0 is to issue one move alone, the rest of its code being no instruction. -/
def alone (m : Move) (x : Engine) : Device :=
  withEng { x with pc := 0x8000, lines := [{ addr := 0x8000, bytes := (encodeMove m ++ List.replicate 32 0xF7).take 32, bad := [], req := 0, delivered := true }] }
def cuMove (op : CuOp) (v : BitVec 8) : Move := { pre := {}, body := .longI8 (.trig (.cu op)) v }
def aloneSlot (m : Move) (n : Nat) : Slot := { addr := 0x8000, len := n, got := .move m, bad := false }
/-- What of issuesAlone is a matter of fixed values. -/
abbrev aloneReady (m : Move) (n : Nat) (x : Engine) : Prop :=
  let d := alone m x
  let y := d.eng 0
  d.mayStep 0 = true ∧ d.draining 0 = false ∧ y.rep = none ∧ y.wait = none ∧ y.redirect = none ∧ y.bar = false ∧ y.pendingFaults = [] ∧
  y.waitFault = none ∧ y.resumeRep = 0 ∧ y.readyAt ≤ d.nowStep 0 ∧ (d.paced 0 && inFlash y.pc) = false ∧ d.eventLine 0 = none ∧
  d.form 0 y.pc.toNat = .go (aloneSlot m n) none ∧ (aloneSlot m n).got = .move m ∧ (aloneSlot m n).bad = false ∧ m.pre.rep = none ∧
  m.waits = none ∧ m.body.dst.absent d.grade = false
theorem alone_issues (m : Move) (n : Nat) (x : Engine) (h : aloneReady m n x) (hp : ∀ p, m.body.operand ≠ .port p) :
    (alone m x).issuesAlone 0 (aloneSlot m n) m := by
  obtain ⟨h1, h2, h3, h4, h5, h6, h7, h8, h9, h10, h11, h12, h13, h14, h15, h16, h17, h18⟩ := h
  exact ⟨h1, h2, h3, h4, h5, h6, h7, h8, h9, h10, h11, h12, h13, h14, h15, h16, h17, h18, fun p e => (hp p e).elim⟩

/-- A guard that fails; a jump to a boundary and past one, a call's frame, the barrier and a wait. -/
def jumpIfNot3 : Move := { pre := { guard := some (false, 3) }, body := .longI8 (.trig (.cu .jmp)) 0x10 }
theorem witness_guard_fails : (alone jumpIfNot3 {}).issuesAlone 0 (aloneSlot jumpIfNot3 5) jumpIfNot3 ∧
    ((alone jumpIfNot3 {}).eng 0).guardHolds jumpIfNot3 = false :=
  ⟨alone_issues _ _ _ (by decide +kernel) (fun _ h => by cases h), by decide +kernel⟩
theorem witness_transfers (op : CuOp) (h : op ∈ [CuOp.jmp, .call, .bar, .wait]) :
    let m := cuMove op 0x12
    let x := (alone m {}).eng 0
    (alone m {}).issuesAlone 0 (aloneSlot m 3) m ∧ x.guardHolds m = true ∧ x.operand m = some 0x12 ∧ m.body.dst = .trig (.cu op) ∧
      x.cuDetail op (some 0x12) = 0 ∧ (alone m {}).canonical = true ∧ (alone m {}).marks = [] ∧ x.short = [] := by
  have ready : ∀ op ∈ [CuOp.jmp, .call, .bar, .wait], aloneReady (cuMove op 0x12) 3 {} := by decide +kernel
  refine ⟨alone_issues _ _ _ (ready op h) (fun _ h => by cases h), ?_⟩
  revert op; decide +kernel
/-- A system call of ring 2, the system return of ring 1, the level return, a gate call of ring 3 and a gate return of ring 1, a trap of ring 3. -/
theorem witness_system :
    let sysc := cuMove .sysc 5
    let back : Move := { pre := { priv := true }, body := .longI8 (.trig (.cu .sysr)) 1 }
    let level : Move := { pre := { priv := true }, body := .longI8 (.trig (.cu .sysr)) 0 }
    let user : Engine := { st := { ring := 2, gie := true }, sep := [(2, 0x9000)] }
    let kernel : Engine := { st := { ring := 1 }, srp := 0x9100, srs := 0x0902 }
    let handler : Engine := { st := { ring := 1, lvl := 1 }, save := [(1, { spc := 0x1008123, sst := 0x3001 })] }
    (alone sysc user).issuesAlone 0 (aloneSlot sysc 3) sysc ∧ ((alone sysc user).eng 0).cuDetail .sysc (some 5) = 0 ∧
    (alone back kernel).issuesAlone 0 (aloneSlot back 4) back ∧ ((alone back kernel).eng 0).cuDetail .sysr (some 1) = 0 ∧
    (alone level handler).issuesAlone 0 (aloneSlot level 4) level ∧ ((alone level handler).eng 0).cuDetail .sysr (some 0) = 0 :=
  ⟨alone_issues _ _ _ (by decide +kernel) (fun _ h => by cases h), by decide +kernel,
   alone_issues _ _ _ (by decide +kernel) (fun _ h => by cases h), by decide +kernel,
   alone_issues _ _ _ (by decide +kernel) (fun _ h => by cases h), by decide +kernel⟩
theorem witness_gate :
    let m := cuMove .gate 5
    let d : Device := { alone m { st := { ring := 3, gie := true }, gtb := 0x40000, gsp := [(1, 0x2000)] } with
      mem := [(0x100000050, 0x34), (0x100000051, 0x92), (0x100000054, 0x85), (0x100000057, 0x80)] }
    let x := d.eng 0
    ∃ bs, d.tableRead 0 (d.place 0 (x.gtb.toNat * 16384 + 80)) 16 = some bs ∧
      (let w1 := word (fromBytes ((bs.drop 4).take 4))
       bit w1 31 = true ∧ fld w1 8 23 = 0 ∧ bit w1 3 = false ∧ fromBytes (bs.drop 8) = 0 ∧ fld w1 0 2 = 1 ∧ bit w1 7 = true) ∧
      x.gspOff 1 ≤ 0x2000 ∧ 0 < x.gspOff 1 ∧ x.cuDetail .gate (some 5) = 0 ∧ d.canonical = true :=
  ⟨[0x34, 0x92, 0, 0, 0x85, 0, 0, 0x80, 0, 0, 0, 0, 0, 0, 0, 0], by decide +kernel⟩
theorem witness_gate_return :
    let m : Move := { pre := {}, body := .longU16 (.trig (.cu .gate)) 0xFFFF }
    let d : Device := { alone m { st := { ring := 1 }, gsp := [(1, 0x1FFF)] } with mem := [(0x10000FFF8, 0x34), (0x10000FFF9, 0x92), (0x10000FFFC, 3)] }
    let x := d.eng 0
    aloneReady m 4 { st := { ring := 1 }, gsp := [(1, 0x1FFF)] } ∧ x.operand m = some 0xFFFF ∧ x.cuDetail .gate (some 0xFFFF) = 0 ∧ x.ring = 1 ∧
      x.gspOff 1 < 0x2000 ∧ fld (d.loadWord (canon 0 (8 * x.gspOff x.ring % 0x10000) + 4)) 3 29 = 0 ∧
      fld (d.loadWord (canon 0 (8 * x.gspOff x.ring % 0x10000) + 4)) 0 2 = 3 := by decide +kernel
/-- The handler table lies at 0x10000 of the scratchpad: entry 0x25 for trap 5 and entry 6 for PRIVILEGE. -/
def handled (m : Move) (x : Engine) : Device :=
  { alone m { x with htb := 0x200020 } with mem := [(0x100010031, 0x91), (0x100010034, 0x04), (0x100010129, 0x90), (0x10001012C, 0x05)] }
theorem witness_trap :
    let d := handled (cuMove .trap 5) { st := { ring := 3, gie := true } }
    (d.eng 0).st.l2 = true ∧ d.handlerReady 0 (0x20 + (5 : Word).toNat % 32) 0x9000 1 ∧ ((d.eng 0).cuDetail .trap (some 5)) = 0 :=
  ⟨by decide +kernel, ⟨[0, 0x90, 0, 0, 5, 0, 0, 0], by decide +kernel⟩, by decide +kernel⟩
/-- SystemRegistersWriteAndRead: a move to each of g3, bnk and rc, a write of SYS.GSP1 in ring 1, and one of SYS.GTB that ring 2 may not make. -/
theorem witness_sysreg :
    let move := fun (t : Dst) => ({ pre := {}, body := .longI8 t 1 } : Move)
    let wr : Move := { pre := { priv := true }, body := .longI8 (.trig (.sys .wr)) 8 }
    let one : Engine := { step := 4, st := { ring := 1 }, opnd := [(.sysSel, 0x13)] }
    let two : Engine := { step := 4, st := { ring := 2 }, opnd := [(.sysSel, 0x10)] }
    (∀ t ∈ [Dst.g 3, .bnk, .rc], aloneReady (move t) (encodeMove (move t)).length {} ∧ ((alone (move t) {}).eng 0).operand (move t) = some 1) ∧
    aloneReady wr 4 one ∧ ((alone wr one).eng 0).sysDetail true ((alone wr one).eng 0 |>.opndVal .sysSel) = 0 ∧
    ((alone wr one).eng 0).flagsAt ≠ (alone wr one).nowStep 0 ∧ aloneReady wr 4 two ∧ ((alone wr two).eng 0).sysDetail true 0x10 ≠ 0 := by
  decide +kernel
theorem witness_privilege :
    let wr : Move := { pre := { priv := true }, body := .longI8 (.trig (.sys .wr)) 8 }
    let d := handled wr { step := 4, st := { ring := 2 }, opnd := [(.sysSel, 0x10)] }
    (d.eng 0).st.l2 = true ∧ d.handlerReady 0 6 (word 0x9100) 0 := ⟨by decide +kernel, ⟨[0, 0x91, 0, 0, 4, 0, 0, 0], by decide +kernel⟩⟩

/-- LinesBarriersAndLongOpsEnd: a line of code SRAM at its third step and one of code flash at its twenty-fourth; a barrier with
nothing pending; an fpu operation at its completion step. -/
def line (a : Nat) : CodeLine := { addr := a, bytes := List.replicate 32 0, bad := [], req := 10, delivered := false }
theorem witness_lines :
    line 0x8000 ∈ ((withEng { step := 12, lines := [line 0x8000] }).eng 0).lines ∧ inFlash (word 0x8000) = false ∧
    10 + 3 = (withEng { step := 12, lines := [line 0x8000] }).nowStep 0 ∧ inFlash (word 0x800000) = true ∧
    (withEng { step := 12, lines := [line 0x8000] }).lineWaits 0 0x8000 = false ∧
    (withEng { step := 33, lines := [line 0x800000] }).lineWaits 0 0x800000 = false ∧
    10 + 24 = (withEng { step := 33, lines := [line 0x800000] }).nowStep 0 := by decide +kernel
theorem witness_barrier :
    let d := withEng { step := 40, bar := true, lastRetire := 39 }
    (d.eng 0).bar = true ∧ d.longPending 0 = false ∧ d.dueBy 0 (d.nowStep 0) = false := by decide +kernel
def rooting : LongOp :=
  { due := 41, trig := 20, writes := [(.fpuR, 0x3F800000)], flags := 0x20, dzFault := false, issue := 0, ctx := 0 }
theorem witness_fpu :
    let d := withEng { step := 40, fpuLong := some rooting }
    (d.eng 0).fpuLong = some rooting ∧ rooting.due = d.nowStep 0 ∧ rooting.ctx = (d.eng 0).ctx := by decide +kernel

/-- LevelEntrySavesContext: the handler table lies at 0x10000 of the scratchpad; its entry 0x01 is valid. -/
def handling : Device :=
  { withEng { htb := 0x200020, pc := 0x8123, st := { grd := false, gie := true } } with
    mem := [(0x100010008, 0x00), (0x100010009, 0x90), (0x10001000C, 0x04)] }
def illegal : Cause := { code := 1, detail := 2, fa := 0x8123, pa := true, index := 1 }
theorem witness_entry :
    (handling.enterLevel 0 1 illegal { pc := 0x8123, rep := 0, slot1 := false, m0len := 2 } 1).isSome = true ∧
    (handling.eng 0).short = [] ∧ illegal.code < 256 ∧ illegal.detail < 256 := by decide +kernel

/-- MemoryAccessCompletes: the lowest word of the own scratchpad and the last word of the cluster SRAM, for each operation. -/
def accessing (op : LsuOp) (a : Nat) : LsuRun :=
  { op := op, addr := a, datum := 0x11223344, trig := 1, base := 1, worst := 2, due := 1, cls := .none, issue := 0, ctx := 0, posted := 99, granted := true, ring := 0 }
theorem witness_access : ∀ l ∈ [accessing .ldw 0x100000000, accessing .stb 0x2003FFFFF, accessing .aadd 0x2003FFFFC, accessing .sth 0x28000FFFE,
      accessing .ldbu 0x1000000000],
    let d := withEng { lsu := [l] }
    let a := d.place 0 l.addr
    d.canonical = true ∧ d.lsuHead 0 = some l ∧ d.engPart 0 = some 0 ∧ (d.part 0).mode ≠ .decant ∧
    (regionOf a = some (.scratch 0) ∨ regionOf a = some (.csram 0) ∨ regionOf a = some (.dram 0) ∨ regionOf a = some (.xram 0) ∧ 0x1000 ≤ a % 0x10000) ∧
    d.accessAlone 0 a l.op.size ∧ d.offline a = false ∧ d.marks = [] ∧ l.ctx = (d.eng 0).ctx := by
  unfold Device.accessAlone; decide +kernel
/-- OtherAccessesComplete: a word of a stack out of service, an uncorrectable mark, an access that an error strikes. -/
theorem witness_failing :
    let d := withEng { lsu := [accessing .ldw 0x1000000000] }
    let gone : Device := { d with regs := (.trlOffx, 1) :: owned.regs }
    let bad : Device := { d with marks := [(0x1000000000, .uncorrectable)] }
    let l := accessing .ldw 0x1000000000
    gone.lsuHead 0 = some l ∧ gone.offline (gone.place 0 l.addr) = true ∧ (∀ b < 16, regionOf (gone.place 0 l.addr) ≠ some (.device b)) ∧
    bad.lsuHead 0 = some l ∧ bad.offline (bad.place 0 l.addr) = false ∧ bad.uncorrectable (bad.place 0 l.addr) 4 = true ∧ bad.losing 0 = false ∧
    bad.accessAlone 0 (bad.place 0 l.addr) 4 ∧ (bad.part 0).recorder.open_ = none ∧ d.accessAlone 0 (d.place 0 l.addr) 4 ∧ (d.eng 0).heirs = [] := by
  unfold Device.accessAlone; decide +kernel
/-- A load, a store and an atomic that meet a store of engine 16 to the same word of the exchange RAM. -/
theorem witness_colliding : ∀ op ∈ [LsuOp.ldw, .stw, .aor],
    let l := accessing op 0x280001000
    let d : Device := { owned with engines := [(0, { run := .running, lsu := [l] }), (16, { run := .running, lsu := [accessing .stw 0x280001000] })] }
    let a := d.place 0 l.addr
    d.lsuHead 0 = some l ∧ d.offline a = false ∧ d.marks = [] ∧ regionOf a = some (.xram 0) ∧ d.accesses = [] ∧
    ∀ w ∈ checkWords a l.op.size, d.pacedWord w = false ∧ ∀ b, d.mayMeet w (!ownCluster 0 a) b = true := by decide +kernel
/-- A load and a store of PTR.FVAL0 in ring 1. -/
theorem witness_device : ∀ op ∈ [LsuOp.ldw, .stw],
    let l := { accessing op 0xFF00610008 with ring := 1 }
    let d := withEng { lsu := [l] }
    let a := d.place 0 l.addr
    d.lsuHead 0 = some l ∧ regionOf a = some (.device 6) ∧ Reg.ofAddr a = some (.ptrFval 0) ∧ absentUnit d.grade a = false ∧
    (∀ q ∈ (d.target (d.targetFor a)).waiting, q.slotted = false) ∧ d.regDetail 6 (some (.ptrFval 0)) 1 (some 0) true = 0 ∧ a % 4 = 0 := by
  decide +kernel

/-- A request of engine 0 to a unit of cluster 0, triggered at period 60, and its service. -/
def asked (op : SharedOp) : Request :=
  { engine := 0, op := op, a := 0x100, b := 0, t := 0x90000, src := 0, dst := 0x200000000, left := 2, issue := 0, ctx := 0, trig := 60
    step := 5, dead := false, stored := [] }
def serving (op : SharedOp) (inputs : List Word) (stop : Option Nat) : Service :=
  { req := asked op, start := 62, due := 99, per := 4, inputs := inputs, bad := false, suspendAt := stop, stopAt := 1 }
def withCluster (c : Cluster) : Device := { owned with clusters := [(0, c)] }

/-- SharedRequestStarts: a free unit with one request, whose unit finished another one later than its trigger. -/
theorem witness_start : ∀ op ∈ [SharedOp.kin .mv4, .kin .sqrt, .kin .sincos, .kin .atan2, .kin .norm3],
    let d := withCluster { kin := { queue := [asked op], lastDone := 62 } }
    (d.unit3 0 .kin).service = none ∧ (d.unit3 0 .kin).queue.find? (d.servable .kin) = some (asked op) ∧
    max (max 60 (asked op).earliest) (d.unit3 0 .kin).lastDone < d.now ∧ d.marks = [] ∧ d.pausedCluster 0 = false := by decide +kernel
theorem witness_start_moves :
    let d := withCluster { ipl := { queue := [asked (.ipl .spl)] }, bmv := { queue := [asked (.bmv .copy)] } }
    (d.unit3 0 .ipl).queue.find? (d.servable .ipl) = some (asked (.ipl .spl)) ∧
    (d.unit3 0 .bmv).queue.find? (d.servable .bmv) = some (asked (.bmv .copy)) ∧ 60 < d.now := by decide +kernel

/-- SharedUnitsComplete: a square root at its completion period, and an interpolation over no axis at all. -/
theorem witness_units :
    let d := withCluster { kin := { service := some (serving (.kin .sqrt) [] none) }, ipl := { service := some (serving (.ipl .lin) [0] none) } }
    (d.unit3 0 .kin).service = some (serving (.kin .sqrt) [] none) ∧ (d.unit3 0 .ipl).service = some (serving (.ipl .lin) [0] none) ∧
    d.servedBy (serving (.kin .sqrt) [] none) ≤ d.now ∧ d.servedBy (serving (.ipl .lin) [0] none) ≤ d.now ∧ d.pausedCluster 0 = false ∧
    (asked (.kin .sqrt)).ctx = (d.eng 0).ctx ∧ d.canonical = true ∧ d.marks = [] ∧ (inputAt [0] 0).toNat % 16 = 0 := by decide +kernel
/-- A product of matrix and vector, a norm of a vector and one of 0. -/
theorem witness_blocks : ∀ v ∈ [serving (.kin .mv4) (List.replicate 20 0x7FFFFFFF) none, serving (.kin .norm3) [3, 0xFFFFFFFC, 0] none,
      serving (.kin .norm3) [0, 0, 0] none],
    let d := withCluster { kin := { service := some v } }
    d.canonical = true ∧ d.marks = [] ∧ d.pausedCluster 0 = false ∧ (d.unit3 0 .kin).service = some v ∧ d.servedBy v ≤ d.now ∧ v.req.dead = false ∧
    v.bad = false ∧ v.req.stored = [] ∧ v.req.ctx = (d.eng v.req.engine).ctx ∧ v.req.t.toNat % 16 = 0 := by decide +kernel
/-- AnglesComplete: a sine, the angle of a vector and of 0, a circle of two axes. -/
theorem witness_angles : ∀ v ∈ [serving (.kin .sincos) [] none, serving (.kin .atan2) [] none,
      { serving (.kin .atan2) [] none with req := { asked (.kin .atan2) with a := 0, t := 0 } }],
    let d := withCluster { kin := { service := some v } }
    d.pausedCluster 0 = false ∧ d.servedBy v ≤ d.now ∧ v.req.dead = false ∧ v.bad = false ∧ v.req.ctx = (d.eng v.req.engine).ctx ∧
    (d.unit3 0 .kin).service = some v := by decide +kernel
theorem witness_circle :
    let v := serving (.ipl .circ) ([2, 5, 7, 0] ++ List.replicate 60 9) none
    let d := withCluster { ipl := { service := some v } }
    d.pausedCluster 0 = false ∧ d.servedBy v ≤ d.now ∧ (d.unit3 0 .ipl).service = some v ∧ d.canonical = true ∧ d.marks = [] ∧ v.req.stored = [] ∧
    v.req.a.toNat % 64 = 0 ∧ (inputAt v.inputs 0).toNat = 2 ∧ bit (inputAt v.inputs 3) 0 = false := by decide +kernel
/-- An interpolation of eight axes, running and at its end. -/
theorem witness_segment : ∀ op ∈ [IplOp.lin, .spl], ∀ stat ∈ ([0, 1] : List Nat),
    let v := serving (.ipl op) ([8, 5, 7, word stat] ++ List.replicate 60 9) none
    let d := withCluster { ipl := { service := some v } }
    d.canonical = true ∧ d.marks = [] ∧ d.pausedCluster 0 = false ∧ op ≠ .circ ∧ (d.unit3 0 .ipl).service = some v ∧ v.req.op = .ipl op ∧
    d.servedBy v ≤ d.now ∧ v.req.dead = false ∧ v.bad = false ∧ v.req.stored = [] ∧ v.req.ctx = (d.eng 0).ctx ∧ v.req.a.toNat % 64 = 0 ∧
    (inputAt v.inputs 0).toNat = 8 := by decide +kernel

/-- BlockMoverCompletesOrStops: a fill of two blocks of the cluster SRAM and a copy from the SRAM to the exchange RAM, done, and stopped after their
first block. -/
def moved (copy : Bool) : Request :=
  if copy then { asked (.bmv .copy) with src := 0x200000000, dst := 0x280001000 } else asked (.bmv .fill)
def mover (copy : Bool) (stop : Option Nat) : Device :=
  withCluster { bmv := { service := some { serving (.bmv .fill) [] stop with req := moved copy } } }
theorem witness_mover : ∀ copy, ∀ stop ∈ [none, some 1],
    let d := mover copy stop
    d.canonical = true ∧ d.marks = [] ∧ d.pausedCluster 0 = false ∧ (moved copy).engine / 16 = 0 ∧ (moved copy).dead = false ∧
    (moved copy).ctx = (d.eng 0).ctx ∧ (d.cluster 0).parked = [] ∧
    ∀ v ∈ (d.unit3 0 .bmv).service, v.req = moved copy ∧ v.suspendAt = stop ∧ d.blocksDone v 2 = true ∧ d.blocksDone v 1 = true := by
  decide +kernel
theorem witness_mover_ready : ∀ copy, ∀ stop ∈ [none, some 1], ∀ n ∈ [1, 2], (mover copy stop).blocksReady 0 (moved copy) n := by
  simp only [Device.blocksReady, Device.blocksAlone]; decide +kernel

/-- WaitsEnd: a wait on lines 3 to 7 of which line 7 is latched; a wait whose limit is reached, with no line raised. -/
def waiting (k : WaitKind) : Wait := { kind := k, trig := 4, start := 90, limit := 10, flt := true, issue := 0x8000, ctx := 0 }
theorem witness_wait :
    let d := withEng { step := 9, wait := some (waiting (.lines 3 7)), events := [(7, { raised := true, ovr := true, period := 50 })] }
    (d.eng 0).wait = some (waiting (.lines 3 7)) ∧ 4 < d.nowStep 0 ∧ d.waitLine 0 3 7 = some 7 ∧ (d.eng 0).ctx = 0 := by decide +kernel
theorem witness_limit : ∀ k ∈ [WaitKind.cu, .lines 0 191],
    let d := withEng { step := 9, wait := some (waiting k) }
    (d.eng 0).wait = some (waiting k) ∧ 90 + 10 ≤ d.now ∧ d.eventLine 0 = none ∧ d.pausedEngine 0 = false ∧ (d.eng 0).waitFault = none ∧
    ∀ n < 192, (d.lineNow 0 n).1 = false := by decide +kernel

/-- MessagesArePostedAndReceived: channel 0 of engine 0 has a ring of 256 slots at 0x1000 and the message count 255, its last free
slot; a send that has landed; a receive that waits while one message stands. -/
def queueBytes (count : Byte) : List Host.Cell := [(0x280000801, 0x01), (0x280000803, 0x83)] ++ (if count = 0 then [] else [(0x28000080C, count)])
def sendRun (landed : Option (BitVec 4)) : ChRun :=
  { recv := false, last := true, dst := 0, datum := 1, words := [1, 2, 3, 4], trig := 3, due := 9, start := 90, landed := landed, abn := false
    blocking := false, out := none, ctx := 0 }
def recvRun : ChRun := { sendRun none with recv := true, last := false, datum := 0, words := [], blocking := true }
def channel (c : ChRun) (count : Byte) : Device := { withEng { step := 9, ch := [c] } with mem := queueBytes count }
theorem witness_post :
    let d := channel (sendRun none) 255
    d.canonical = true ∧ d.marks = [] ∧ (d.eng 0).ch.findIdx? (fun q => !q.recv && q.last && q.landed.isNone) = some 0 ∧
    (if d.paced 0 then 9 ≤ d.nowStep 0 else 3 < d.nowStep 0) ∧ bit (d.loadWord 0x280000800) 31 = true ∧
    fld (d.loadWord 0x280000800) 24 4 = 3 ∧ fld (d.loadWord 0x28000080C) 0 9 = 255 ∧
    fld (d.loadWord 0x280000804) 24 8 = 0 ∧ 16 * fld (d.loadWord 0x280000800) 0 12 = 0x1000 ∧ chHeader 0 0 = 0x280000800 ∧
    d.postInTurn 0 (sendRun none) = true ∧ d.postWaits 0 0 = false ∧ d.seenEngine 0 0 = 0 ∧ d.accesses = [] := by decide +kernel
/-- Nothing else is on its way to the exchange RAM. -/
theorem witness_post_alone : ∀ w b, inMailbox (8 * w) = false → (channel (sendRun none) 255).mayMeet w true b = false := by
  intro w b h; simp [Device.mayMeet, h, channel, withEng, owned]
theorem witness_send_done :
    let d := channel (sendRun (some 1)) 0
    (d.eng 0).ch = [sendRun (some 1)] ∧ 9 ≤ d.nowStep 0 ∧ (d.eng 0).chLast < d.nowStep 0 ∧ (d.eng 0).ctx = 0 := by decide +kernel
theorem witness_receive :
    let d := channel recvRun 1
    (d.eng 0).ch = [recvRun] ∧ 9 ≤ d.nowStep 0 ∧ (d.eng 0).chLast < d.nowStep 0 ∧ fld recvRun.datum 11 21 = 0 ∧
    bit recvRun.datum 3 = false ∧ bit recvRun.datum 8 = false ∧ bit recvRun.datum 9 = false ∧
    bit (d.loadWord 0x280000800) 31 = true ∧ 0 < fld (d.loadWord 0x28000080C) 0 9 ∧
    fld recvRun.datum 4 4 ≤ fld (d.loadWord (xramBase 0 + 16 * fld (d.loadWord 0x280000800) 0 12)) 10 4 := by decide +kernel

/-- ReceivesAnswer: in Free mode and in Paced, on a ring with a message and without; a bad word, a pop, a look at the count, one that must not wait. -/
def receiving (m : Mode) (count : Byte) : Device :=
  { channel recvRun count with parts := [(0, { mode := m })], engines := [(0, { run := .running, step := 18 })] }
theorem witness_receives : ∀ m ∈ [Mode.free, .paced], ∀ count ∈ ([0, 1] : List Byte),
    let d := receiving m count
    d.canonical = true ∧ d.marks = [] ∧ (d.eng 0).ch = [] ∧ max (3 + (if d.paced 0 then 8 else 1)) ((d.eng 0).chLast + 1) ≤ d.nowStep 0 ∧
    bit (d.loadWord (chHeader 0 0)) 31 = true ∧ fld (d.loadWord (chHeader 0 0 + 12)) 0 9 = count.toNat := by decide +kernel
theorem witness_receive_words : bit (8 : Word) 3 = true ∧ bit (0x100 : Word) 8 = true ∧ bit (0x200 : Word) 9 = true ∧ bit (0x400 : Word) 10 = true := by
  decide

/-- WaitsEnd: a ready of engine 15 on slot 63, which stands at 255 or below. -/
def readyRun : TaskRun := { ready := true, slot := 63, lands := 99, ctx := 0 }
theorem witness_ready : ∀ n ∈ [0, 254, 255],
    let d : Device := { owned with engines := [(15, { run := .running, tasks := [readyRun] })], clusters := [(0, { task := [(63, BitVec.ofNat 8 n)] })] }
    (d.eng 15).tasks = [readyRun] ∧ readyRun.lands + 1 = d.now ∧ readyRun.ctx = (d.eng 15).ctx ∧ d.slot 0 63 = n ∧
    (∀ j < 16, j ≠ 15 → (d.eng j).tasks = []) ∧ ∀ j < 16, (d.eng j).wait = none := by decide +kernel

/-- RaisesAndTimersReachLines: sources 0x500 and 0xFFF that partition 0 owns. -/
theorem witness_raise : owned.phase ≠ .off ∧ owned.released 0 = true ∧ owned.pausedPart 0 = false ∧ (withPart {} []).released 0 = false ∧
    (withPart { mode := .free } [(.celStat 0, 8)]).pausedPart 0 = true ∧ owned.sourceOwner 0x4FF = none ∧
    ∀ n ∈ [0x500, 0xFFF], ({ owned with regs := [(.evrRoute n, 0x80000000)] } : Device).sourceOwner n = some 0 := by
  decide +kernel

/-- RaisesAndTimersReachLines: a raise routed to line 191 of engine 0, one to line 192; one-shot and periodic timers that are due. -/
def routed (route : Word) : Device := { owned with raises := [(100, 0x105, route)] }
theorem witness_route :
    let r : Word := 0x06FC0000
    (routed r).raises = (100, 0x105, r) :: [] ∧ 100 ≤ (routed r).now ∧ bit r 26 = true ∧ fld r 18 8 = 191 ∧
    fld r 0 10 < (routed r).grade.engines ∧ (routed r).engPart 0 = some 0 ∧ 191 < fld (0x07000000 : Word) 18 8 := by decide +kernel
def timing (mode : Nat) : Device := { owned with regs := (.evrTctl 5, word mode) :: (.evrTper 5, 20) :: owned.regs, timers := [(5, 60, 1)] }
theorem witness_timer : owned.timerDue 5 = none ∧ bit (owned.reg .parLock) 0 = false ∧ ∀ mode ∈ [1, 2],
    (timing mode).timers.find? (fun x => decide (x.1 = 5)) = some (5, 60, 1) ∧ (timing mode).timerPaused 5 = false ∧
    (timing mode).phase ≠ .off ∧ (timing mode).sourceOwner 0x105 = none ∧ fld ((timing mode).reg (.evrTctl 5)) 0 2 = mode ∧
    60 + (1 + 1) * max 1 ((timing mode).reg (.evrTper 5)).toNat ≤ (timing mode).now := by decide +kernel

/-- UpdatesArriveApplyAndNotify: a Paced update at its arrival, a Free one; an update in the pending ring; a record and a line due. -/
def update (arrive : Option Nat) (aux : Bool) : Update :=
  { point := 0x1000, aux := aux, value := 7, part := 0, origin := .engine 0, trig := 80, posted := 90, arrive := arrive, coalesced := false }
/-- Range entry 0 gives points 0x1000 to 0x1FFF to partition 0, home router 1, with a quota of four subscriptions. -/
def ranged : Device :=
  { owned with regs := [(.ptrRb 0, 1), (.ptrRl 0, 0x81000001), (.ptrSubq 0 1, 4)] ++ owned.regs }
theorem witness_arrive : ∀ arrive ∈ [some 100, none],
    let d : Device := { ranged with inFlight := [update arrive false] }
    d.inFlight[0]? = some (update arrive false) ∧ 90 < d.now ∧ 100 ≤ d.now ∧ d.inOrder (update none false) = true ∧
    d.home 0x1000 = 1 ∧ d.accepts 1 = true ∧ (d.router 1).ring = [] ∧ d.pausedPart 0 = false := by decide +kernel
theorem witness_apply : ∀ aux ∈ [true, false],
    let d : Device := { ranged with routers := [(1, { ring := [update none aux] })] }
    (d.router 1).share.find? (fun v => decide (v.part = 0)) = none ∧
    d.freeUpdate 1 0 = some (update none aux) ∧ (d.freeTurn 1).map (·.part) = some (some 0) ∧ d.pausedPart 0 = false ∧ d.decantOf 0 = none ∧
    d.forced 0x1000 = false ∧ d.forceWaits 1 0 = false ∧ d.uncorrectable (pointAddr 0x1000) 24 = false ∧ d.marks = [] ∧ ({ d with parts := [(0, { mode := .free, forces := [(0x1000, 7)] })] } : Device).forced 0x1000 = true := by decide +kernel
def notice (dlv : Option Nat) : Notice :=
  { router := 1, engine := 0, line := 191, point := 0x1000, part := 0, dlv := dlv, record := List.replicate 32 1, applied := 90, recordAt := 100
    lineAt := 100 }
theorem witness_notice : ∀ dlv ∈ [some 0x7F0, none],
    let d : Device := { ranged with routers := [(1, { notices := [notice dlv] })] }
    d.importedBy 0 0x1000 = false ∧ d.canonical = true ∧ d.marks = [] ∧ d.offline (xramBase 0 + 16 * 0x7F0) = false ∧
    (if dlv.isSome then d.recordDue 1 else d.lineDueAt 1) = some (notice dlv) := by decide +kernel

/-- PointReadsAndSubscriptionsComplete: a read with its value; a subscription of the last point of the range to line 191. -/
def pointRun (sub : Bool) (datum : Word) : PtRun :=
  { sub := sub, idx := 0x1FFF, datum := datum, trig := 2, posted := 80, due := 9, arrive := some 90, value := some (5, 1), ctx := 0 }
theorem witness_read :
    let d : Device := { ranged with engines := [(0, { run := .running, step := 9, pt := [pointRun false 0, pointRun true 0x00100ABF] })] }
    (d.eng 0).pt.find? (fun k => decide (k.sub = false)) = some (pointRun false 0) ∧ 9 ≤ d.nowStep 0 ∧ (d.eng 0).ctx = 0 ∧
    d.importedBy 0 (d.placePoint 0 (fld (pointRun false 0).idx 0 25)) = false ∧
    (d.eng 0).pt.find? (fun k => decide (k.sub = true)) = some (pointRun true 0x00100ABF) ∧ fld (0x00100ABF : Word) 21 10 = 0 ∧
    fld (0x00100ABF : Word) 0 8 = 191 ∧ bit (0x00100ABF : Word) 31 = false ∧ d.pointRange 0x1FFF = some (1, 0) ∧ d.engPart 0 = some 0 ∧
    d.subs = [] ∧ fld (d.reg (.ptrSubuse 0 1)) 0 21 < fld (d.reg (.ptrSubq 0 1)) 0 21 := by decide +kernel

/-- ForcesApplyAndRelease: an own point, a foreign one; a force that waits and one that stands. -/
theorem witness_force :
    let d : Device := { ranged with regs := (.ptrFpnt 0, 0x1FFF) :: ranged.regs
                                    parts := [(0, { mode := .free, forceQueue := [(0x1000, 3)], forces := [(0x1FFF, 9)] })] }
    d.forceAllowed 0 0x1FFF = true ∧ d.forceAllowed 0 0x2000 = false ∧ fld (d.reg (.ptrFpnt 0)) 0 25 = 0x1FFF ∧
    ((d.part 0).forces.map (·.1) ++ (d.part 0).forceQueue.map (·.1)).dedup.length < 64 ∧ d.uncorrectable (pointAddr 0x1000) 24 = false ∧ d.released 0 = true ∧ d.pausedPart 0 = false ∧
    (d.freeTurn (d.home 0x1000)).map (·.part) = some (some 0) ∧
    (0x1FFF, 9#32) ∈ (d.part 0).forces := by decide +kernel

/-- A module in Paced whose lane 0 is up and alive, with one descriptor of frame 3 in each direction and the entries of the drive. -/
def laneLayout : Layout :=
  { mapHeader := [(0, List.replicate 96 0 ++
      [0x28, 0x00, 0x00, 0x01, 0x32, 0x00, 0x00, 0x01, 0x12, 0x00, 0x08, 0x00, 0xCC, 0x05, 0x00, 0x00,
       0x31, 0x0A, 0x07, 0x02, 0x02, 0x02, 0x02, 0x02, 0x02, 0x02, 0x00, 0x00, 0x00, 0x00, 0x00, 0x00])]
    mapIn := [(0, [0x00, 0x10, 0x00, 0x00, 0x00, 0x80, 0x0E, 0x00, 0x01, 0x10, 0x00, 0x02, 0x06, 0x40, 0x0F, 0x00])] }
/-- R258, R416: the fields of its descriptor and of its two entries. -/
theorem test_map_bytes :
    laneLayout.descriptor 0 3 = { take := 40, inbound := true, send := 50, outbound := true, station := 0x12, pdin := 8, pdout := 1484,
                                  idtag := 0x02070A31, dmac := [2, 2, 2, 2, 2, 2], used := true } ∧
    laneLayout.entriesIn 0 = [{ point := 0x1000, aux := false, offset := 0, width := 2, sgn := false, valid := true, frame := 3 },
                              { point := 0x1001, aux := true, offset := 6, width := 1, sgn := true, valid := true, frame := 3 }] := by
  decide +kernel
def laned (m : Mode) (cycle : Nat) (l : Lane) : Device :=
  { owned with
    regs := [(.parFll 0, 1), (.fldLctl 0, 1), (.fldLstat 0, 3), (.fldRxb 0, 0x30280000), (.fldTxb 0, 0x30280004), (.fldTxh 0, 0x00010000)] ++ owned.regs
    parts := [(0, { mode := m, cycleAt := some cycle })]
    image := some { slotB := false, trial := false, instar := 1, isSigned := false, pubkey := [], layout := laneLayout }
    lanes := [(0, l)], domains := [(72, .on)] }

/-- ReceivedFrameIsCheckedAndTaken: the drive's frame, and the frame with version 2 in its header. -/
theorem witness_received :
    let d := laned .paced 60 {}
    let k := kryeneOf drive
    let desc := d.descriptor 0 k.frame
    d.laneUp 0 = true ∧ d.lengthOk 0 drive.length = true ∧ d.laneOwner 0 = some 0 ∧ d.modeNow 0 ≠ .decant ∧ isKryene drive = true ∧
    k.ver = 1 ∧ k.type = 1 ∧ k.reserved = false ∧ d.heldNow 0 = false ∧ bit (d.reg (.fldLstat 0)) 1 = true ∧ desc.inbound = true ∧
    k.station = desc.station.toNat ∧ d.pdlenOk 0 k.pdlen = true ∧ k.pdlen = desc.pdin ∧ k.pdlen ≤ k.data.length ∧ d.inPaced 0 = true ∧
    (d.lane 0).lastCycle = [] ∧ (d.lane 0).lateAt = [] ∧ (d.lane 0).waiting = [] ∧ k.devflt = false ∧ k.idtag = desc.idtag := by
  decide +kernel
theorem witness_bad_header : (kryeneOf (drive.set 14 0x21)).ver = 2 ∧ isKryene (drive.set 14 0x21) = true ∧
    (kryeneOf (drive.set 18 0x13)).station ≠ ((laned .paced 60 {}).descriptor 0 3).station.toNat ∧ isKryene (drive.set 18 0x13) = true := by decide +kernel

/-- ReceivedFrameIsCheckedAndTaken: at the take step, with the frame waiting and without. -/
theorem witness_take : ∀ w ∈ [[(3, { bytes := drive, stamp := 7 })], []],
    let d := laned .paced 60 { waiting := w }
    d.laneOwner 0 = some 0 ∧ (d.descriptor 0 3).inbound = true ∧ d.heldNow 0 = false ∧ d.inPaced 0 = true ∧ d.decantOf 0 = none ∧
    d.atOffset 0 (d.descriptor 0 3).take = true ∧ (d.lane 0).lastTake = [] ∧ (d.lane 0).waiting.find? (fun x => decide (x.1 = 3)) = w.head? ∧
    (d.entriesIn 0 3).length = 2 := by decide +kernel

/-- FramesAreSent: the longest process data at its send step; a plain frame of a ring of eight slots. -/
theorem witness_send :
    let d := laned .paced 50 {}
    let desc := d.descriptor 0 3
    desc.outbound = true ∧ d.sends 0 = true ∧ d.modeNow 0 ≠ .decant ∧ d.laneUp 0 = true ∧ d.atOffset 0 desc.send = true ∧
    (d.lane 0).lastSend = [] ∧ d.pdlenOk 0 desc.pdout = true ∧ desc.dmac.length = 6 ∧ bit (d.reg (.fldLctl 0)) 4 = false := by decide +kernel
theorem witness_plain : ∀ len ∈ ([64, 1] : List Byte),
    let d : Device := { laned .free 1000 {} with mem := [(0x280004000, len)] }
    let b := d.reg (.fldTxb 0)
    d.canonical = true ∧ d.marks = [] ∧ ringCount b = some 8 ∧ d.heldNow 0 = false ∧ d.decantOf 0 = none ∧ d.modeNow 0 ≠ .decant ∧ d.laneUp 0 = true ∧
    fld (d.reg (.fldTxh 0)) 0 16 % 8 ≠ fld (d.reg (.fldTxh 0)) 16 16 % 8 ∧ (d.lane 0).txStopped = false ∧
    d.slotAddr 0 b 0 = 0x280004000 ∧ fld (d.loadWord 0x280004000) 0 14 = len.toNat ∧ d.slotStatus 0 0x280004000 (16 + len.toNat) false = 0 ∧
    d.partStatus 0 0x280004000 16 true = 0 ∧ d.wouldDelay 0 0 len.toNat = false ∧ d.ejectStopped = false ∧ d.accesses = [] ∧
    d.lengthOk 0 len.toNat = decide (len = 64) ∧ (∀ i ≤ 16, ∀ b ≤ 15, regionOf (0x280004000 + i) ≠ some (.device b)) := by decide +kernel
theorem witness_plain_alone : ∀ len w b, inMailbox (8 * w) = false →
    ({ laned .free 1000 {} with mem := [(0x280004000, len)] } : Device).mayMeet w true b = false := by
  intro len w b h; simp [Device.mayMeet, h, laned, owned]

/-- StationsAndLinksOfLanes: an IDENT answer of the lane's only station, a station that is waited for, a lane that can come up. -/
theorem witness_stations :
    let d := laned .free 60 { identPending := [0], reentry := false }
    let b := drive.set 14 0x12
    d.laneUp 0 = true ∧ d.laneMuted 0 = false ∧ (laned .decant 60 {}).laneMuted 0 = true ∧ (laned .decant 60 {}).laneUp 0 = true ∧
    isKryene b = true ∧ (kryeneOf b).ver = 1 ∧ (kryeneOf b).type = 2 ∧ (kryeneOf b).reserved = false ∧
    (kryeneOf b).pdlen ≠ 0 ∧ (d.stations 0).findIdx? (fun x => decide (x = (kryeneOf b).station)) = some 0 ∧ 0 ∈ (d.lane 0).identPending ∧
    bit (d.reg (.fldLctl 0)) 0 = true ∧ Assoc.get .off d.domains (72 + 0 / 8) = .on ∧ (d.lane 0).identDue = false := by decide +kernel
theorem witness_reentry : ((laned .free 60 { reentry := true }).lane 0).reentry = true := by decide

/-- IdleStepPassesPeriod: a module in which time passes, and one in which it does not. -/
theorem witness_idle : owned.paceRuns = true ∧ State.reset.dev.paceRuns = false := by decide
/-- StretchFollowsConditions: before and at a window boundary; the factors 1, 2 and 4 with what is wanted and when. -/
theorem witness_window :
    owned.pace.windowNext * 64 ≤ owned.now ∧ ({ pcnt := 63, windowNext := 1 } : Pace).pcnt < ({ pcnt := 63, windowNext := 1 } : Pace).windowNext * 64 ∧
    ({ s := 1, temp := 1, detected2 := some 9, pcnt := 10 } : Pace).wanted = 2 ∧
    ({ s := 4, supply := 1, temp := 0 } : Pace).wanted = 2 ∧ ({ s := 2 } : Pace).wanted = 1 ∧
    ({ s := 4, margin := 2 } : Pace).wanted = 4 := by decide
/-- TimeIsSetAndRead: with a Paced partition and without one, and an engine outside a Decant. -/
theorem witness_time : (laned .paced 60 {}).anyPaced = true ∧ owned.anyPaced = false ∧ owned.engPart 0 = some 0 ∧ owned.decantOf 0 = none := by
  decide +kernel
/-- TimeIsSetAndRead: a tick that is due, N periods after the last start, one period earlier, and with no start before. -/
theorem witness_cycle : ∀ c ∈ [some 80, some 81, none],
    let d := withPart { mode := .free, cycleAt := c, cycleFree := decide (c = none), nextTick := some 100 } [(.timCycle 0, 20)]
    let d : Device := { d with pace := { pcnt := 100, tick := 100 } }
    fld (d.reg (.timCycle 0)) 0 24 = 20 ∧ d.released 0 = true ∧ bit (d.reg (.celStat 0)) 3 = false ∧ d.decantOf 0 = none ∧
    (d.part 0).nextTick = some 100 ∧ 100 ≤ d.pace.tick ∧ (d.now - 80 = 20 ∧ d.now - 81 < 20) := by decide +kernel

/-- EpochReleasesPartition: a held partition whose start mode is Free, Paced, or Recovery after a watchdog, at the epoch's first period. -/
theorem witness_release : ∀ start ∈ [1, 2, 4],
    let d : Device := { withPart {} [(.parStart 0, word start)] with pace := { pcnt := 65536, epochNext := 1 } }
    d.pace.epochNext * 65536 ≤ d.now ∧ d.returning = [] ∧ d.ejectStopped = false ∧ d.mayRelease 0 = true ∧ (d.part 0).pending = none ∧
    (d.part 0).recorder.open_ = none ∧ bit (d.reg (.celStat 0)) 3 = false ∧ bit (d.reg (.celCtl 0)) 0 = false ∧
    (∀ q < 16, q ≠ 0 → d.released q = false ∧ d.mayRelease q = false) ∧ fld (d.reg (.parStart 0)) 0 3 = start := by decide +kernel
theorem witness_before_epoch : 65535 < ({ epochNext := 1 } : Pace).epochNext * 65536 := by decide

/-- ModeRequestPendsOrIsRefused: an allowed request, one that R28 does not allow, a held partition, a partition that is not valid. -/
theorem witness_request :
    owned.valid 0 = true ∧ owned.valid 1 = false ∧ owned.released 0 = true ∧ owned.partCovered 0 = false ∧ (owned.part 0).changing = none ∧
    (withPart {} []).released 0 = false ∧
    ((owned.part 0).mode, Mode.paced) ∈ [(Mode.free, Mode.paced)] ∧ (owned.part 0).mode ≠ .recovery := by decide +kernel

/-- DecantLoadsAndEnds: a Decant whose checkpoint is to be loaded, one that is at step 12, and one that has diverged. -/
def checkpoint : Snapshot :=
  { index := 0, taken := 0, full := true, vstep := 10, engines := [(0, { pc := 0x8000 })], clusters := [], mem := [(0x100000000, 5)], points := []
    subs := [], updates := [], forces := [], fdrop := 0, lanes := [], cycle := none, ents := [], timers := [], routes := [] }
def vintage : Vintage :=
  { number := 1, part := 0, paced := true, opened := 0, follows := 0, records := [], checkpoints := [checkpoint], nextSeq := 1, reason := 1
    isSealed := true, trunc := false, pace := false, committed := 1, lastCkpt := 10 }
def decanting (loaded : Bool) (start : Option Nat) (found : Option (Nat × Option Nat × Option (Nat × Nat))) : Device :=
  withPart { mode := .decant, decant := some { vintage := vintage, source := 0, base := 10, startAt := start, left := [], endStep := 20,
                                               loaded := loaded, found := found } } []
theorem witness_decant :
    let d := decanting false none none
    d.canonical = true ∧ (d.part 0).mode = .decant ∧ (d.part 0).changing = none ∧
    (d.part 0).recorder.open_ = none ∧
    (∀ r ∈ (d.part 0).decant, r.loaded = false ∧ r.checkpoint = some (checkpoint, [(0x100000000, 5)]) ∧ r.found = none) ∧
    ∀ r ∈ ((decanting true (some 98) (some (2, some 0, none))).part 0).decant, r.found.isSome = true := by decide +kernel

/-- CocoonIsEntered: a running module with a busy partition and without one; a drain with every cask committed. -/
theorem witness_cocoon :
    owned.phase = .running ∧ owned.stage = none ∧ owned.valid 0 = true ∧ owned.released 0 = true ∧ owned.pacedPart 0 = false ∧ (owned.part 0).pending = none ∧
    (owned.part 0).changing = none ∧ (withPart { mode := .paced } []).pacedPart 0 = true ∧
    owned.partCovered 0 = false ∧ ({ owned with phase := .cocoonDrain } : Device).canonical = true ∧
    ∀ p < 16, (owned.part p).recorder.casks = [] ∧ (owned.part p).recorder.open_ = none := by decide +kernel
/-- CocoonIsLeft: a wake frame with the lane's key in Cocoon, the alarm, a drain, a module that wakes. -/
theorem witness_wake :
    let d : Device := { laned .held 0 {} with phase := .cocoon, parts := [(0, { inCocoon := true })]
                                              regs := [(.pwrCctl, 0x00010000), (.fldLctl 0, 0x81), (.fldLstat 0, 1), (.fldWake 0, 0x01020304)] }
    let b := broadcast ++ List.replicate 6 0 ++ [0x88, 0xB5, 0x14, 0, 0, 0, 0, 0, 4, 0] ++ List.replicate 8 0 ++ [4, 3, 2, 1] ++ List.replicate 26 0
    d.phase = .cocoon ∧ fld (d.reg .pwrCctl) 16 16 ≠ 0 ∧ d.laneUp 0 = true ∧ bit (d.reg (.fldLctl 0)) 7 = true ∧ isKryene b = true ∧
    (kryeneOf b).ver = 1 ∧ (kryeneOf b).type = 4 ∧ (kryeneOf b).reserved = false ∧ 4 ≤ (kryeneOf b).pdlen ∧ b.take 6 = broadcast ∧
    4 ≤ (kryeneOf b).data.length ∧ d.fillPending 0 = false ∧ d.hostOwner = none ∧
    ({ d with regs := (.parOwn 0, 0x80010000) :: d.regs } : Device).hostOwner = some 0 ∧
    word (fromBytes ((kryeneOf b).data.take 4)) = d.reg (.fldWake 0) ∧ (d.part 0).inCocoon = true ∧ (d.part 0).escalated = false ∧
    (d.part 0).heldCluster = false ∧ (d.part 0).heldStack = false ∧ (d.part 0).fence = false ∧ d.partCovered 0 = false ∧
    (∀ p < 16, (d.part p).recorder.open_ = none) := by
  decide +kernel

/-- RecordingAndCommits: a partition with no vintage and with one, STOP, the low water, a cask and its namespace. -/
def cask (retried ckpt : Bool) : Cask :=
  { vintage := 1, seq := 0, ckpt := ckpt, last := !ckpt, records := [], bytes := 65456, retried := retried, step := 10 }
def recording (retried ckpt : Bool) : Device :=
  { withPart { mode := .free, recorder := { open_ := some { vintage with isSealed := false }, casks := [cask retried ckpt], captures := [checkpoint] } }
      [(.parNs 0, 0x80), (.celStat 0, 6), (.celQuota 0, 1)] with
    namespaces := [{ port := 0, sub := 0, nsid := 1, lbas := 1042, failed := false }] }
theorem witness_recording : ∀ retried ∈ [true, false], ∀ ckpt ∈ [true, false],
    let d := recording retried ckpt
    d.grade.hasCellar = true ∧ (owned.part 0).recorder.open_ = none ∧ (d.part 0).recorder.open_.isSome = true ∧
    bit (d.reg (.celStat 0)) 2 = true ∧ bit (d.reg (.celStat 0)) 1 = true ∧
    (d.part 0).recorder.bytes < fld (d.reg (.celQuota 0)) 0 8 * 2 ^ 26 / 2 ∧ (d.part 0).recorder.casks = [cask retried ckpt] ∧
    (cask retried ckpt).step < d.vstep 0 ∧ d.ringOut = false ∧ (d.nextFree 0).1 = some (0, (0, 0)) ∧ (d.namespaces[0]?).isSome = true ∧
    (d.part 0).recorder.captures = [checkpoint] := by decide +kernel
/-- KeysAreEnrolledAndMade: in Free mode key commands are refused; in Recovery, with a cabinet key, they act. -/
theorem witness_keys :
    let d : Device := { withPart { mode := .recovery } [] with keys := { cabinet := some [1, 2, 3, 4, 5, 6, 7, 8] } }
    owned.keysOpen = false ∧ d.keysOpen = true ∧ d.canonical = true ∧ d.norPresent = true ∧ d.keys.cabinet.isSome = true ∧
    d.keySector 0 = none := by decide +kernel

/-- TrellisGrantsAndAnswers: a port where partition 2 is short of its share, at the end of a round; the recorder's request, short of its four
grants and not; the owner of a reserved slot of the period; an empty port; failures of a lane and of the module. -/
def trellisReq (m : Nat) (p : Option Nat) (q : Nat) : TrellisReq := { master := m, part := p, qos := q, since := 90, owner := .passing }
theorem witness_grant :
    let x : Target := { waiting := [trellisReq 5 (some 0) 3, trellisReq 6 (some 2) 1], count := 63 }
    let d : Device := { owned with targets := [(122, x)], regs := (.parQos 2, 0x100) :: owned.regs }
    let r : Target := { waiting := [trellisReq 5 (some 0) 3, trellisReq 151 none 8], recorder := 3 }
    let o : TrellisReq := { trellisReq 0 (some 0) 3 with owner := .lsu 4, slotted := true }
    d.target 122 = x ∧ x.count < 64 ∧ Assoc.get 0 x.grants 2 < fld (d.reg (.parQos 2)) 8 6 ∧ fld (d.reg (.parQos 0)) 8 6 = 0 ∧
    (∀ q ∈ x.waiting, q.master ≠ 151 ∧ q.slotted = false) ∧ r.recorder < 4 ∧ (r.waiting.any (fun q => decide (q.master = 151))) = true ∧
    4 ≤ ({ r with recorder := 4 } : Target).recorder ∧ o.owner.engine = some 4 ∧ d.now % 4 = 4 % 4 ∧ d.now % 32 = 4 % 32 ∧
    (d.target 3).waiting = [] := by decide +kernel
theorem witness_answer :
    owned.requestStatus (some 0) 0x0 false = 1 ∧ owned.requestStatus (some 0) 0x100100000 true ≠ 9 ∧ regionOf 0x0 = none ∧
    ({ owned with marks := [(0x100000000, .uncorrectable)] } : Device).requestStatus (some 0) 0x100000000 false = 9 ∧
    bit (owned.reg .trlMerr) 31 = false ∧ bit (owned.reg (.parDtb 0)) 31 = false ∧
    ((withPart { fence := true } []).part 0).fence = true := by decide +kernel
/-- UnitsLeaveAndReturn: DRAM stack 3 out of service with its domain on and off; a unit in service; a unit the grade lacks. -/
theorem witness_unit :
    let d : Device := { owned with regs := (.trlOffx, 8) :: owned.regs, domains := [(71, .on)] }
    d.unitPresent .dramStack 3 = true ∧ d.isOffline .dramStack 3 = true ∧ d.returning = [] ∧ unitDomain .dramStack 3 = 71 ∧
    Assoc.get .off d.domains 71 = .on ∧ Assoc.get .off owned.domains 71 = .off ∧
    (∃ r ∈ ({ d with returning := [{ cls := .dramStack, unit := 3, state := .power }] } : Device).returning, r.cls = .dramStack ∧ r.unit = 3) ∧ d.unitPresent .cluster 0 = true ∧
    d.clusterOwner 0 = some 0 ∧ d.isOffline .dramStack 2 = false ∧ ({ grade := .x256E } : Device).unitPresent .cluster 16 = false := by
  decide +kernel
/-- FillsClearAndTestsDecide: the last cluster in its fill, the last page, a unit in its self-test. -/
theorem witness_fill :
    let d : Device := { owned with returning := [{ cls := .cluster, unit := 63, state := .fill }, { cls := .dramStack, unit := 0, state := .test }]
                                   unfilled := [4095] }
    let c : Device := { owned with returning := [{ cls := .cluster, unit := 63, state := .test }] }
    d.inReturn .cluster 63 .fill = true ∧ 4095 ∈ d.unfilled ∧ d.inReturn .dramStack 0 .test = true ∧
    c.inReturn .cluster 63 .test = true ∧ c.spareServes 63 = none := by decide +kernel

/-- PowerDomainsFollowRegulators: VSET at the last domain it reaches and past it; a domain that ramps, in operation, as the first and the last of
its group before supply good and as the last main domain; one that may go off; one that is on. WarningsAndDomainFaults: a domain that is on, absent,
off. -/
theorem witness_domain :
    let on := (List.range 84).map (fun n => (n, DomState.on))
    let run : Device := { owned with regs := (.trlOffcl, 1) :: owned.regs, domains := (0, .ramp) :: on }
    let first : Device := { domains := [(83, .ramp)] }
    let start : Device := { domains := (71, .ramp) :: on, sources := [{ cause := 0, reach := 5, target := 0, cond := true }] }
    run.domainExists 67 = true ∧ run.domainExists 68 = true ∧ run.domainExists 84 = false ∧ run.domain 0 = .ramp ∧ run.returning = [] ∧
    let group : Device := { domains := (67, .ramp) :: ([83, 64, 65, 66].map (fun n => (n, DomState.on))) }
    let fed : Device := { run with returning := [{ cls := .cluster, unit := 0, state := .power }] }
    let failed : Device := { run with domains := (0, .fault) :: on }
    let ports : Device := { run with regs := [(.stoPstat 0 0, 0x80), (.stoPctl 0, 4)] }
    fed.domain 0 = .ramp ∧ (∃ r ∈ fed.returning, r.state = .power ∧ unitDomain r.cls r.unit = 0) ∧ failed.domain 0 = .fault ∧ failed.returning = [] ∧
    ports.mayGoOff 80 = false ∧ ({ ports with regs := (.stoPstat 0 1, 0x80) :: ports.regs } : Device).mayGoOff 80 = true ∧
    ports.domain 80 = .on ∧ run.phase ≠ .configure ∧
    run.phase ≠ .off ∧ run.mayGoOff 0 = true ∧ run.isOffline .cluster 0 = true ∧ start.phase = .off ∧ start.wideHeld = true ∧
    start.domain 71 = .ramp ∧ (∀ k ∈ start.mainDomains, k ≠ 71 → start.domain k = .on) ∧ run.domain 83 = .on ∧ run.mayGoOff 83 = false ∧
    first.domainExists 83 = true ∧ first.domain 83 = .ramp ∧ first.returning = [] ∧ first.phase = .off ∧ first.pins.mainGood = false ∧
    (∀ k < 83, first.domain k = .off) ∧ group.domain 67 = .ramp ∧ (∀ k ∈ [83, 64, 65, 66], group.domain k = .on) ∧
    (∀ k < 64, group.domain k = .off) ∧ (∀ k ∈ [68, 69, 70, 71], group.domain k = .off) ∧ group.grade.dies = 4 ∧ group.grade.stacks = 4 ∧
    run.sourceOwner 0xC6 = none ∧ run.routeMuted 0xC6 (run.reg (.evrRoute 0xC6)) = false ∧ run.clusterOwner 0 = some 0 := by decide +kernel
/-- WarningsAndDomainFaults: a die at exactly 100 degrees rises by a sixteenth. -/
theorem witness_warning :
    owned.phase ≠ .off ∧ owned.sourceOwner 0xC2 = none ∧ owned.routeMuted 0xC2 (owned.reg (.evrRoute 0xC2)) = false ∧ 3 < owned.grade.dies ∧
    ({ owned with regs := [(.pwrTemp 3, 1600)] } : Device).tj 3 ≤ 1600 ∧ 1600 < (1601 : BitVec 16).toInt ∧ (4199 : BitVec 16).toNat < 4200 ∧
    5800 < (5801 : BitVec 16).toNat := by decide +kernel
/-- InsertionAsserts, RemovalStopsModule: a module outside its slot, one seated without supply, one in operation, in its drain, sealing. -/
theorem witness_pins :
    let seated : Device := { pins := { seatLow := true } }
    let inUse : Device := { owned with pins := { seatLow := true, mainGood := true } }
    let drain : Device := { inUse with phase := .ejectDrain, ejectStopped := true, pins := { inUse.pins with ejectLow := true } }
    State.reset.dev.pins.seatLow = false ∧ State.reset.dev.phase ≠ .sealing ∧ seated.pins.mainGood = false ∧ seated.sources = [] ∧
    seated.mainDomains ≠ [] ∧ (∀ n < 84, seated.domain n = .off) ∧ inUse.pins.ejectLow = false ∧ inUse.phase = .running ∧ drain.phase ≠ .configure ∧ drain.phase ≠ .off ∧
    (∀ p < 16, (drain.part p).recorder.casks = []) ∧ ({ inUse with phase := .sealing } : Device).phase = .sealing ∧ inUse.stage = none ∧
    ({ inUse with stage := some 8 } : Device).stage.isSome = true ∧ drain.pins.ejectLow = true ∧
    ({ inUse with phase := .ejected } : Device).pins.seatLow = true ∧ (∀ x ∈ seated.sources, x.cause ≠ 2) ∧
    ({ drain with sources := [{ cause := 18, reach := 5, target := 0, cond := true }] } : Device).wideHeld = true := by decide +kernel

/-- WideSourcesAssert: the module watchdog enabled and at its end. NarrowSourcesAssert: the last engine and cluster, a partition's
watchdog at its end, and the key of the watchdogs. -/
theorem witness_sources :
    let d : Device := { withPart { mode := .free, wdCount := 7 } [(.rstMwdctl, 0x80000000), (.parWdctl 0, 0x80000007)] with mwdCount := 1 }
    d.phase ≠ .sealing ∧ bit (d.reg .rstMwdctl) 31 = true ∧ max 1 (fld (d.reg .rstMwdctl) 0 16) ≤ d.mwdCount ∧ 1023 < d.grade.engines ∧
    63 < d.grade.clusters ∧ d.valid 0 = true ∧ bit (d.reg (.parWdctl 0)) 31 = true ∧
    max 1 (fld (d.reg (.parWdctl 0)) 0 16) ≤ (d.part 0).wdCount ∧ (∀ q < 16, (d.part q).scrubbing = false ∧ bit (d.reg .tmxStat) (16 + q) = false) ∧
    d.valid 15 = false ∧ fld (0x5A : Word) 0 8 = 0x5A ∧
    ∀ p < 16, (d.part p).recorder.open_ = none := by decide +kernel
/-- ReleasedSourcesRestart: an engine's only source, a fenced partition's, one below a source of Core reach. -/
def narrow : Source := { cause := 7, reach := 1, target := 0, cond := false }
theorem witness_restart :
    let d : Device := { owned with sources := [narrow], enginesReset := [(0, 1)] }
    let f : Device := { owned with sources := [{ cause := 9, reach := 3, target := 0, cond := false }], parts := [(0, { fence := true })] }
    let w : Device := { owned with sources := [narrow, { cause := 10, reach := 4, target := 0, cond := false }] }
    d.sources = [narrow] ∧ d.enginesReset = [(0, 1)] ∧ d.engPart 0 = some 0 ∧ (d.part 0).mode = .free ∧ (d.part 0).changing = none ∧
    (d.part 0).scrubbing = false ∧ bit (d.reg .tmxStat) 16 = false ∧ d.phase = .running ∧ d.ejectStopped = false ∧
    (f.sources.map (·.reach)) = [3] ∧ (f.part 0).fence = true ∧ w.sources[0]? = some narrow ∧
    (∃ y ∈ w.sources.eraseIdx 0, 4 ≤ y.reach) := by decide +kernel

/-- QueueCommandsStartAndComplete: a read of the last page starts; a program of the running slot B is refused; each command completes
on an image; an anchor of an unsigned image is refused. -/
def imaged (addr : Word) (q : Option QCmd) (trial : Bool) : Device :=
  { owned with regs := (.cfgQaddr, addr) :: owned.regs, qcmd := q
               image := some { slotB := true, trial := trial, instar := 1, isSigned := false, pubkey := [], layout := {} } }
theorem witness_qcmd :
    (imaged 0x1000000 none false).qcmd = none ∧ (imaged 0x1000000 none false).qcmdRefused .read = false ∧
    (imaged 0x1000000 none false).qcmdRefused .program = false ∧ (imaged 0x8000000 none false).qcmdRefused .erase4k = true ∧
    0x1000000 ≤ fld ((imaged 0x8000000 none false).reg .cfgQaddr) 0 28 ∧
    ({ imaged 0x1000000 none false with stage := some 9 } : Device).qcmdRefused .read = true ∧
    ({ imaged 0x1000000 (some .program) false with qAddr := 0x1000000, qPage := List.replicate 256 0 } : Device).qPage.length = 256 ∧
    (imaged 0x1000000 none false).qcmdRefused .anchor = true ∧ (imaged 0x1000000 (some .program) false).canonical = true ∧
    ∀ q ∈ [QCmd.read, .program, .erase4k, .erase64k, .armTrial, .anchor],
      (imaged 0x1000000 (some q) false).qcmd = some q ∧ (imaged 0x1000000 (some q) false).image.isSome = true := by decide +kernel
/-- TrialIsCommittedOrLeft: an image in Trial and one that is not. -/
theorem witness_trial : (imaged 0 none true).image.map (·.trial) = some true ∧ (imaged 0 none false).image.map (·.trial) = some false ∧
    (imaged 0 none true).canonical = true := by decide +kernel
/-- An identity record without channel groups and its CRC (R452). -/
def identityBody : List Byte := [0x49, 0x44, 0x01, 0x05] ++ List.replicate 32 0
def identityRecord : List Byte := identityBody ++ toBytes 4 (crc32 identityBody).toNat
/-- IdentityIsScanned: with no scan, and in a scan of the last address of the last segment; a record that passes, one of a wrong CRC and one of a
wrong magic. -/
theorem witness_scan : owned.scanning = [] ∧ (7, 7) ∈ ({ owned with scanning := [(7, 7)] } : Device).scanning ∧
    (0, 0) ∉ ({ owned with scanning := [(7, 7)] } : Device).scanning ∧ identityRecord.length = 40 ∧
    crc32 (identityRecord.take 36) = word (fromBytes ((identityRecord.drop 36).take 4)) ∧
    crc32 ((identityRecord.set 39 0x5A).take 36) ≠ word (fromBytes (((identityRecord.set 39 0x5A).drop 36).take 4)) ∧
    ((identityRecord.set 0 0).getD 0 0).toNat ≠ 0x49 ∧ (identityRecord.getD 3 0).toNat = (identityRecord.getD 11 0).toNat + 5 := by
  decide +kernel

/-- HostAccessesMailbox: BUSY# low and high; the doorbell and the acknowledge word in both modes. -/
theorem witness_host :
    let d : Device := { owned with host := { busyLow := false } }
    owned.host.busyLow = true ∧ d.host.busyLow = false ∧ d.canonical = true ∧ d.marks = [] ∧ d.accesses = [] ∧ d.sourceOwner 0xA4 = none ∧
    d.routeMuted 0xA7 (d.reg (.evrRoute 0xA7)) = false ∧ bit (({ d with regs := [(.hstCtl, 3)] } : Device).reg .hstCtl) 1 = true ∧ (3 : BitVec 2) ≠ 0 ∧
    2 * (0x7FFF : BitVec 15).toNat = 0xFFFE ∧ 2 * (0x7FFE : BitVec 15).toNat = 0xFFFC ∧ 2 * (0x7FFF : BitVec 15).toNat % 0x1000 = 0xFFE := by
  decide
/-- LinksCarryUpdates: link lane 15 up, its owner released, window 63 inbound with its last offset; a lane that can come up. -/
theorem witness_link :
    let d : Device := { owned with
      regs := [(.lnkStat 15, 1), (.lnkCtl 15, 1), (.parOwn 0, 0x80008000), (.lnkXwa 63, 0xC0001000), (.lnkXwb 63, 0x000F0FFF)] ++ owned.regs
      domains := [(82, .on)] }
    15 < d.grade.linkLanes ∧ d.isOffline .linkLane 15 = false ∧ bit (d.reg (.lnkStat 15)) 0 = true ∧ (d.link 15).nextSeq = 0 ∧ d.stage = none ∧
    ({ d with stage := some 8 } : Device).stage = some 8 ∧ bit (({ d with regs := (.lnkCtl 15, 3) :: d.regs } : Device).reg (.lnkCtl 15)) 1 = true ∧
    (5 : Nat) ≠ (d.link 15).nextSeq ∧
    bit (d.reg (.lnkStat 15)) 6 = false ∧ d.linkOwner 15 = some 0 ∧ d.released 0 = true ∧ bit (d.reg (.lnkXwa 63)) 31 = true ∧
    bit (d.reg (.lnkXwa 63)) 30 = true ∧ fld (d.reg (.lnkXwb 63)) 16 4 = 15 ∧ fld (d.reg (.lnkXwb 63)) 0 16 = 0xFFF ∧
    bit (d.reg (.lnkCtl 15)) 0 = true ∧ d.domain 82 = .on := by decide +kernel
/-- StorePortsComeAndGo: a controller that can come up, with the smallest namespace that is taken; one that is up. -/
theorem witness_store :
    let d : Device := { owned with regs := (.stoPstat 1 0, 1) :: owned.regs, domains := [(80, .on), (81, .on)] }
    let y : NamespaceInfo := { nsid := 1, lbas := 1042, blockBytes := 4096, metadata := false, protection := false }
    d.grade.hasCellar = true ∧ d.domain 80 = .on ∧ bit (d.reg (.stoPstat 0 0)) 7 = false ∧ d.namespaces.length + [y].length ≤ 512 ∧
    NamespaceInfo.accepted y = true ∧ NamespaceInfo.accepted { y with lbas := 1041 } = false ∧
    y.blockBytes = 4096 ∧ y.metadata = false ∧ y.protection = false ∧ 1042 ≤ y.lbas ∧ bit (d.reg (.stoPstat 1 0)) 0 = true := by
  decide +kernel
/-- ProbesNeedRecoveryAndScrub: the last probe of cluster 0 and the first of the module, in Recovery and not; a scrub with its key. -/
theorem witness_probe :
    let d := withPart { mode := .recovery, scrubbing := true } [(.tmxStat, 0x10000)]
    fld (0x8000007D : Word) 0 13 = 125 ∧ d.clusterOwner (125 / 126) = some 0 ∧ (d.part 0).mode = .recovery ∧ (d.part 0).changing = none ∧
    d.partCovered 0 = false ∧ ({ d with sources := [narrow] } : Device).partCovered 0 = true ∧
    (∀ q < 16, d.valid q = true → (d.part q).mode = .recovery ∧ bit (d.reg .tmxStat) (16 + q) = true) ∧ (owned.part 0).mode ≠ .recovery ∧
    fld (0xA5000000 : Word) 24 8 = 0xA5 ∧ fld (0xA5000000 : Word) 0 4 = 0 ∧ (d.part 0).scrubbing = true := by decide +kernel
/-- TestPortHoldsInstruction: without an image, under RESET#, and in operation. -/
theorem witness_tap : ({ phase := .noimage } : Device).phase = .noimage ∧ ({ owned with pins := { resetLow := true } } : Device).pins.resetLow = true ∧
    owned.phase ≠ .noimage ∧ owned.pins.resetLow = false := by decide
/-- RegisterWritesFollowAccess: the last partition, engine and word; a register of ring 0 alone, one that rings 0 and 1 write, a command register
and one that a partition may not reach. -/
theorem witness_register : 15 < 16 ∧ 1023 < owned.grade.engines ∧ 5 < 6 ∧ (1 : Nat) ≠ 15 ∧
    (∀ x ∈ [(Reg.rstCause, 0), (.ptrFval 15, 6), (.parMode 0, 3), (.timCycle 0, 7)],
      regionOf x.1.addr = some (.device x.2) ∧ Reg.ofAddr x.1.addr = some x.1 ∧ x.1.addr % 4 = 0 ∧ absentUnit owned.grade x.1.addr = false) ∧
    owned.regScope (.ptrFval 15) = .ofPart 15 ∧ owned.regScope (.parMode 0) = .ofPart 0 ∧ (Reg.parCll 0).ringZeroFields = true ∧
    (Reg.parCause 0).access.w1c = 0x3F ∧ owned.standsFor (some 1) 0 = false ∧ owned.standsFor (some 0) 0 = true := by decide +kernel
/-- MoveEncodingRoundTrips, EveryStepKeepsMemoriesCanonical: a well-formed instruction of the greatest length; a safe state and its step. -/
def longest : Move :=
  { pre := { rep := some .repiRc, far := some 0x01000, imm := some (.full 0x12345678) }, body := .short (.trig (.lsu .stw)) .imm }
theorem witness_move : longest.wf = true ∧ (encodeMove longest).length = 12 := by decide +kernel
theorem witness_safe : ({ dev := owned, pending := [.issuePair 0] } : State).safe = true ∧
    ∃ t, step { dev := owned, pending := [.issuePair 0] } = .next t := ⟨by decide +kernel, _, rfl⟩

end

end Sys2Proof.Tests
end

section
/-! SUPPORT and proofs: who may write a device register, what a permitted write does, and O57. -/

namespace Sys2Proof.Machine

/-! ### Who may write a register (R196) -/

/-- The lesser of two details is none where both are. -/
theorem worse_eq_zero_iff (a b : Nat) : worse a b = 0 ↔ a = 0 ∧ b = 0 := by
  unfold worse
  split_ifs <;> omega

/-- The highest ring that writes a block, by the groups of R196. -/
theorem blockLimit_write (b : Nat) :
    blockLimit b true = if b ∈ [3, 5, 6, 8, 9, 12, 13] then 1 else if b ≤ 14 then 0 else 3 := by
  by_cases hb : b ≤ 15
  · interval_cases b <;> rfl
  · have hn : b ∉ [3, 5, 6, 8, 9, 12, 13] := by simp; omega
    rw [if_neg hn, if_neg (by omega)]
    unfold blockLimit
    split <;> omega

/-- A write of a register is permitted to ring 0, and to a ring within the block's limit where the register is the block's or stands open to the writer's
partition (R196). -/
theorem Device.regDetail_write_eq_zero_iff (d : Device) (w : Writer) (b : Nat) (r : Reg) :
    d.regDetail b (some r) w.ring.toNat w.part true = 0 ↔
      w.ring = 0 ∨ w.ring.toNat ≤ blockLimit b true ∧
        (d.regScope r = .block ∨ ∃ q, d.regScope r = .ofPart q ∧ d.standsFor w.part q = true) := by
  have hzero : w.ring.toNat = 0 ↔ w.ring = 0 := by rw [← BitVec.toNat_inj]; rfl
  unfold Device.regDetail
  by_cases hr : w.ring = 0
  · simp [hr]
  · simp only [hr, hzero, if_false, worse_eq_zero_iff, false_or]
    refine and_congr (by simp) ?_
    cases d.regScope r <;> simp

/-- What a partition owns stands open to it. -/
theorem Device.standsFor_self (d : Device) (p : Nat) : d.standsFor (some p) p = true := by simp [Device.standsFor]

/-! ### What a permitted write does (R15) -/

/-- The register of an aligned address in block b, whose unit is present (R10, R161). -/
structure Reg.StandsAt (r : Reg) (g : Grade) (b a : Nat) : Prop where
  region : regionOf a = some (.device b)
  named : Reg.ofAddr a = some r
  aligned : a % 4 = 0
  present : absentUnit g a = false

section
variable {s : State} {b a : Nat} {r : Reg} (w : Writer) (v : Word) (hr : r.StandsAt s.dev.grade b a)
include hr

/-- A write that is not permitted changes nothing. -/
theorem exec_registerWrite_refused (hd : s.dev.regDetail b (some r) w.ring.toNat w.part true ≠ 0) :
    exec (.registerWrite w a v) s = .next s := by
  have h : s.dev.registerWrite w a v = s.dev := by
    simp [Device.registerWrite, hr.region, hr.named, hd]
  show Host.Outcome.next (s.onDev (fun d => d.registerWrite w a v)) = _
  simp [State.onDev, h]

/-- A permitted write of a present register is the write of that register. -/
theorem exec_registerWrite_permitted (hd : s.dev.regDetail b (some r) w.ring.toNat w.part true = 0) :
    exec (.registerWrite w a v) s = .next (s.onDev (fun d => d.regWrite w r v)) := by
  have h : s.dev.registerWrite w a v = s.dev.regWrite w r v := by
    simp [Device.registerWrite, Device.regStore, hr.region, hr.named, hr.aligned, hr.present, hd]
  show Host.Outcome.next (s.onDev (fun d => d.registerWrite w a v)) = _
  simp [State.onDev, h]

end

/-- The registers a write of which is a command or has effects beside the register. -/
def Reg.isCommand : Reg → Bool
  | .rstSwrst | .rstMwdctl | .rstMwdkick | .pwrCctl | .pwrDom _ | .cfgCommit | .cfgFallback | .cfgQcmd | .parMode _ | .parWdctl _
  | .parWdkick _ | .trlSvc | .evrRoute _ | .evrTctl _ | .evrTper _ | .evrRaise _ | .ptrFctl _ | .timAdj | .timCmd | .celKctl
  | .celCtl _ | .fldRxb _ | .fldTxb _ | .lnkCmd | .hstIntset | .idnCmd | .tmxSel _ | .tmxScrub => true
  | _ => false

/-- The word that a write leaves in a register that only holds its fields: the masks of R15, of which a ring above 0 applies to the registers of
`ringZeroFields` only that of W1C (R407). -/
def Device.heldWord (d : Device) (w : Writer) (r : Reg) (v : Word) : Word :=
  if w.ring ≠ 0 ∧ r.ringZeroFields = true then d.reg r &&& ~~~ (v &&& r.access.w1c) else r.access.apply d.locked (d.reg r) v

/-- A write of a register that is no command stores its word and does nothing else. -/
theorem Device.regWrite_of_not_isCommand (d : Device) (w : Writer) (r : Reg) (v : Word) (hr : r.isCommand = false) :
    d.regWrite w r v = d.setReg r (d.heldWord w r v) := by
  have h : d.regWrite w r v =
      if w.ring ≠ 0 && r.ringZeroFields then d.setReg r (d.reg r &&& ~~~ (v &&& r.access.w1c)) else d.plainWrite r v := by
    unfold Device.regWrite
    split
    case h_29 => rfl
    all_goals simp [Reg.isCommand] at hr
  simp only [h, Bool.and_eq_true, decide_eq_true_eq, Device.heldWord, Device.plainWrite]
  split_ifs <;> rfl

/-- Each bit after the masks of R15. -/
theorem Access.bit_apply (x : Access) (locked : Bool) (old v : Word) (i : Nat) (hi : i < 32) :
    bit (x.apply locked old v) i = if bit v i ∧ bit x.w1c i then false
      else if bit x.rw i ∨ bit x.hidden i ∨ (bit x.rwl i ∧ locked = false) then bit v i else bit old i := by
  cases locked <;>
    simp only [Access.apply, bit, BitVec.getLsbD_and, BitVec.getLsbD_or, BitVec.getLsbD_not, hi, decide_true, Bool.true_and, if_true,
      Bool.false_eq_true, if_false] <;>
    grind

/-- Each bit of the word that a write leaves. -/
theorem Device.bit_heldWord (d : Device) (w : Writer) (r : Reg) (v : Word) (i : Nat) (hi : i < 32) :
    bit (d.heldWord w r v) i = if bit v i ∧ bit r.access.w1c i then false
      else if (w.ring = 0 ∨ r.ringZeroFields = false) ∧
        (bit r.access.rw i ∨ bit r.access.hidden i ∨ (bit r.access.rwl i ∧ bit (d.reg .parLock) 0 = false)) then bit v i
      else bit (d.reg r) i := by
  unfold Device.heldWord
  split
  · rename_i h
    obtain ⟨hring, hfields⟩ := h
    simp only [hring, hfields, bit, BitVec.getLsbD_and, BitVec.getLsbD_not, hi]
    cases v.getLsbD i <;> cases r.access.w1c.getLsbD i <;> simp
  · rename_i h
    have hw : w.ring = 0 ∨ r.ringZeroFields = false := by
      by_cases hr : w.ring = 0
      · exact .inl hr
      · exact .inr (Bool.eq_false_iff.mpr fun hz => h ⟨hr, hz⟩)
    simp only [Access.bit_apply _ _ _ _ _ hi, hw, true_and, Device.locked]

/-- A stored register is the only difference. -/
theorem OnlyRegs.setReg (s : State) (r : Reg) (v : Word) : OnlyRegs s (s.onDev (fun d => d.setReg r v)) [r] :=
  ⟨rfl, rfl, fun q hq => Device.setReg_other s.dev r q v (by simpa using hq)⟩

/-- A permitted write of a register that only holds its fields stores the word of `heldWord` and changes no other register. -/
theorem exec_registerWrite_held {s : State} {b a : Nat} {r : Reg} (w : Writer) (v : Word) (hr : r.StandsAt s.dev.grade b a)
    (hd : s.dev.regDetail b (some r) w.ring.toNat w.part true = 0) (hc : r.isCommand = false) :
    ∃ t, exec (.registerWrite w a v) s = .next t ∧ OnlyRegs s t [r] ∧ t.dev.reg r = s.dev.heldWord w r v := by
  refine ⟨_, exec_registerWrite_permitted w v hr hd, ?_⟩
  rw [show (s.onDev fun d => d.regWrite w r v) = s.onDev (fun d => d.setReg r (s.dev.heldWord w r v)) by
    simp [State.onDev, Device.regWrite_of_not_isCommand _ _ _ _ hc]]
  exact ⟨OnlyRegs.setReg s r _, by simp⟩

/-! ### Registers at their addresses -/

/-- The force registers, the cause register and the cycle register of a partition are present. -/
theorem Reg.partRegs_standsAt (g : Grade) {p : Nat} (hp : p < 16) :
    (Reg.ptrFval p).StandsAt g 6 (0xFF00610008 + 0x100 * p) ∧ (Reg.ptrFpnt p).StandsAt g 6 (0xFF00610004 + 0x100 * p) ∧
    (Reg.parCause p).StandsAt g 3 (0xFF00310048 + 0x100 * p) ∧ (Reg.timCycle p).StandsAt g 7 (Reg.timCycle p).addr := by
  refine ⟨?_, ?_, ?_, ?_⟩ <;> constructor <;> interval_cases p <;> rfl

/-- CAP.UNITS is present. -/
theorem Reg.capUnits_standsAt (g : Grade) : Reg.capUnits.StandsAt g 15 0xFF00F00000 :=
  ⟨rfl, rfl, rfl, by cases g <;> rfl⟩

/-- The register blocks lie above every other region (R161). -/
theorem regionOf_device {a : Nat} (lo : 0xFF00000000 ≤ a) (hi : a < 0xFF01000000) :
    regionOf a = some (.device ((a - 0xFF00000000) / 0x100000)) := by
  unfold regionOf
  iterate 7 rw [if_neg (by omega)]
  exact if_pos ⟨lo, hi⟩

/-- Beyond its last register an array has none. -/
theorem indexAt_eq_none_of_ge {off base stride count : Nat} (h : count ≤ (off - base) / stride) : indexAt off base stride count = none :=
  if_neg (by omega)

/-- The line registers of a present engine are present. -/
theorem Reg.evrEnt_standsAt {g : Grade} {e w : Nat} (he : e < g.engines) (hw : w < 6) :
    (Reg.evrEnt e w).StandsAt g 5 (0xFF00508000 + 0x20 * e + 0x4 * w) := by
  have hg : g.engines ≤ 1024 := by cases g <;> decide
  have hoff : (0xFF00508000 + 0x20 * e + 0x4 * w) % 0x100000 = 0x8000 + 0x20 * e + 0x4 * w := by omega
  have hnamed : Reg.ofAddr (0xFF00508000 + 0x20 * e + 0x4 * w) = some (.evrEnt e w) := by
    have hblock : (0xFF00508000 + 0x20 * e + 0x4 * w) / 0x100000 % 16 = 5 := by omega
    have htop : (0xFF00508000 + 0x20 * e + 0x4 * w) / 0x1000000 = 0xFF00 := by omega
    have hroutes : indexAt (0x8000 + 0x20 * e + 0x4 * w) 0x0 0x4 4096 = none := indexAt_eq_none_of_ge (by omega)
    have hctls : indexAt (0x8000 + 0x20 * e + 0x4 * w) 0x4000 0x8 1024 = none := indexAt_eq_none_of_ge (by omega)
    have hpers : indexAt (0x8000 + 0x20 * e + 0x4 * w) 0x4004 0x8 1024 = none := indexAt_eq_none_of_ge (by omega)
    have hents : indexAt2 (0x8000 + 0x20 * e + 0x4 * w) 0x8000 0x20 1024 0x4 6 = some (e, w) := by
      have hrow : (0x8000 + 0x20 * e + 0x4 * w - 0x8000) / 0x20 = e := by omega
      have hcol : (0x8000 + 0x20 * e + 0x4 * w - 0x8000) % 0x20 = 0x4 * w := by omega
      unfold indexAt2 indexAt
      rw [hrow, hcol, if_pos (by omega), if_pos (by omega)]
      simp
    simp only [Reg.ofAddr, hblock, htop, hoff, if_true, Reg.ofEvr, hroutes, hctls, hpers, hents]
    rfl
  have hregion : regionOf (0xFF00508000 + 0x20 * e + 0x4 * w) = some (.device 5) := by
    rw [regionOf_device (by omega) (by omega)]
    exact congrArg (some ∘ Region.device) (by omega)
  have haligned : (0xFF00508000 + 0x20 * e + 0x4 * w) / 4 * 4 = 0xFF00508000 + 0x20 * e + 0x4 * w := by omega
  refine ⟨hregion, hnamed, by omega, ?_⟩
  simp [absentUnit, hregion, haligned, hnamed, blockAbsent, absentLane, Reg.absent, he]

/-! ### Fields and words after a write -/

/-- Words that agree in the bits of a field agree in the field. -/
theorem fld_congr {v w : Word} {lo len : Nat} (h : ∀ i < len, bit v (lo + i) = bit w (lo + i)) : fld v lo len = fld w lo len := by
  refine Nat.eq_of_testBit_eq fun i => ?_
  by_cases hi : i < len
  · simpa [fld, Nat.testBit_mod_two_pow, hi, bit, BitVec.getLsbD] using h i hi
  · simp [fld, Nat.testBit_mod_two_pow, hi]

/-- The mask of all bits. -/
theorem and_fullMask (v : Word) : v &&& 0xFFFFFFFF#32 = v := BitVec.and_allOnes

/-- A register all of whose bits are RW takes the datum. -/
theorem Device.heldWord_of_rw (d : Device) (w : Writer) (r : Reg) (v : Word) (hr : r.access = { rw := 0xFFFFFFFF })
    (hz : r.ringZeroFields = false) : d.heldWord w r v = v := by
  simp [Device.heldWord, Access.apply, hr, hz, and_fullMask]

/-- PTR.FPNT takes its point number and nothing else (R269). -/
theorem Device.bit_heldWord_ptrFpnt (d : Device) (w : Writer) (p : Nat) (v : Word) (i : Nat) (hi : i < 32) :
    bit (d.heldWord w (.ptrFpnt p) v) i = if i < 25 then bit v i else bit (d.reg (.ptrFpnt p)) i := by
  have hmask : ∀ i < 32, bit 0x1FFFFFF#32 i = decide (i < 25) := by decide
  have hnone : bit 0#32 i = false := by simp [bit]
  simp [d.bit_heldWord w _ v i hi, Reg.access, Reg.ringZeroFields, hmask i hi, hnone]

/-- PAR.CAUSE only clears, in every ring (R408). -/
theorem Device.heldWord_parCause (d : Device) (w : Writer) (p : Nat) (v : Word) :
    d.heldWord w (.parCause p) v = d.reg (.parCause p) &&& ~~~ (v &&& 0x3F) := by
  simp [Device.heldWord, Reg.access, Access.apply, and_fullMask]

/-- TIM.CYCLE takes its length until the lock (R336). -/
theorem Device.heldWord_timCycle (d : Device) (w : Writer) (p : Nat) (v : Word) :
    d.heldWord w (.timCycle p) v =
      if bit (d.reg .parLock) 0 then d.reg (.timCycle p) else (d.reg (.timCycle p) &&& 0xFF000000) ||| (v &&& 0xFFFFFF) := by
  cases h : bit (d.reg .parLock) 0 <;>
    simp [Device.heldWord, Reg.access, Access.apply, Reg.ringZeroFields, Device.locked, h, and_fullMask]

/-- CAP.UNITS takes nothing (R7). -/
theorem Device.heldWord_capUnits (d : Device) (w : Writer) (v : Word) : d.heldWord w .capUnits v = d.reg .capUnits := by
  simp [Device.heldWord, Reg.access, Access.apply, and_fullMask]

/-- A register that keeps its word does not differ. -/
theorem OnlyRegs.of_kept {s t : State} {r : Reg} (h : OnlyRegs s t [r]) (hr : t.dev.reg r = s.dev.reg r) : OnlyRegs s t [] := by
  obtain ⟨hpending, hrest, hregs⟩ := h
  refine ⟨hpending, hrest, fun q _ => ?_⟩
  by_cases hq : q = r
  · rw [hq, hr]
  · exact hregs q (by simpa using hq)

/-- Settles O57: who may write is the zero of `regDetail`; a permitted write of a register that is no command stores `heldWord`, and one of a command
register is its command by the branches of `regWrite`. -/
theorem registerWritesFollowAccess : Obligations.RegisterWritesFollowAccess := by
  intro s x r b p e w v r1 d acts highest reaches write
  refine ⟨fun hregion hnamed haligned hpresent => ?_, ?_⟩
  · have hr : r.StandsAt s.dev.grade b r.addr := ⟨hregion, hnamed, haligned, hpresent⟩
    have hreaches : d.regDetail b (some r) x.ring.toNat x.part true = 0 ↔ reaches := by
      rw [Device.regDetail_write_eq_zero_iff, blockLimit_write]
    refine ⟨fun h => exec_registerWrite_refused x v hr (mt hreaches.mp h), fun h hacts => ?_, fun h => ?_⟩
    · obtain ⟨t, ht, honly, hreg⟩ := exec_registerWrite_held x v hr (hreaches.mpr h) hacts
      exact ⟨t, ht, honly, fun i hi => by rw [hreg, Device.bit_heldWord _ _ _ _ _ hi]⟩
    · have hw : write = .next (s.onDev (fun d => d.regWrite x r v)) := exec_registerWrite_permitted x v hr (hreaches.mpr h)
      rw [hw]
      exact ⟨by rintro q rfl; rfl,
        by rintro q rfl; rfl,
        by rintro q rfl; rfl,
        by rintro rfl; rfl,
        by rintro rfl; rfl,
        by rintro rfl; rfl,
        by rintro q rfl; rfl,
        by rintro q rfl; rfl,
        by rintro q rfl; rfl,
        by rintro q rfl hv; simp only [Device.regWrite, hv]; rfl,
        by rintro q rfl hv; simp only [Device.regWrite, hv]; rfl,
        by rintro rfl hv; simp only [Device.regWrite, hv]; rfl,
        by rintro rfl hv; simp only [Device.regWrite, hv]; rfl,
        by rintro rfl; rfl,
        by rintro rfl hv; simp only [Device.regWrite, Device.keyCtl, hv]; rfl,
        by rintro rfl hv; simp only [Device.regWrite, Device.keyCtl, hv]; rfl,
        by rintro rfl hv; simp only [Device.regWrite, Device.keyCtl, hv]; rfl,
        by rintro rfl hv; simp only [Device.regWrite, hv]; rfl,
        by rintro rfl; rfl,
        by rintro rfl hv; simp only [Device.regWrite, hv]; rfl,
        by rintro q rfl; rfl,
        by rintro rfl; rfl⟩
  · intro zero one hp he hw
    obtain ⟨hfval, hfpnt, hcause, hcycle⟩ := Reg.partRegs_standsAt s.dev.grade hp
    have hzero : ∀ b r, s.dev.regDetail b (some r) zero.ring.toNat zero.part true = 0 := fun b r =>
      (s.dev.regDetail_write_eq_zero_iff zero b r).mpr (.inl rfl)
    have hown : ∀ x, x = zero ∨ x = one p → ∀ b r, blockLimit b true = 1 → s.dev.regScope r = .ofPart p →
        s.dev.regDetail b (some r) x.ring.toNat x.part true = 0 := by
      rintro x (rfl | rfl) b r hb hscope
      · exact hzero b r
      · exact (s.dev.regDetail_write_eq_zero_iff (one p) b r).mpr (.inr ⟨hb ▸ le_refl 1, .inr ⟨p, hscope, s.dev.standsFor_self p⟩⟩)
    refine ⟨fun x hx => ⟨?_, ?_, ?_⟩, ?_, ?_, ?_, ?_, ?_, ?_⟩
    · obtain ⟨t, ht, honly, hreg⟩ := exec_registerWrite_held x v hfval (hown x hx 6 _ rfl rfl) rfl
      exact ⟨t, ht, honly, by rw [hreg, Device.heldWord_of_rw _ _ _ _ rfl rfl]⟩
    · obtain ⟨t, ht, honly, hreg⟩ := exec_registerWrite_held x v hfpnt (hown x hx 6 _ rfl rfl) rfl
      refine ⟨t, ht, honly, fld_congr fun i hi => ?_, fld_congr fun i hi => ?_⟩ <;>
        rw [hreg, Device.bit_heldWord_ptrFpnt _ _ _ _ _ (by omega)]
      · exact if_pos (by omega)
      · exact if_neg (by omega)
    · obtain ⟨t, ht, honly, hreg⟩ := exec_registerWrite_held x v hcause (hown x hx 3 _ rfl rfl) rfl
      exact ⟨t, ht, honly, by rw [hreg, Device.heldWord_parCause]⟩
    · obtain ⟨t, ht, honly, hreg⟩ := exec_registerWrite_held zero v (Reg.evrEnt_standsAt he hw) (hzero 5 _) rfl
      exact ⟨t, ht, honly, by rw [hreg, Device.heldWord_of_rw _ _ _ _ rfl rfl]⟩
    · obtain ⟨t, ht, honly, hreg⟩ := exec_registerWrite_held zero v hcycle (hzero 7 _) rfl
      exact ⟨t, ht, honly, by rw [hreg, Device.heldWord_timCycle]⟩
    · obtain ⟨t, ht, honly, hreg⟩ := exec_registerWrite_held zero v (Reg.capUnits_standsAt _) (hzero 15 _) rfl
      exact ⟨t, ht, honly.of_kept (by rw [hreg, Device.heldWord_capUnits])⟩
    · intro hstands
      refine exec_registerWrite_refused (one r1) v hfval fun h => ?_
      have hmay := (s.dev.regDetail_write_eq_zero_iff (one r1) 6 (.ptrFval p)).mp h
      change s.dev.standsFor (some r1) p = false at hstands
      simp [one, Device.regScope, hstands] at hmay
    · refine exec_registerWrite_refused { ring := 3, part := some p } v hfval fun h => ?_
      have hmay := (s.dev.regDetail_write_eq_zero_iff { ring := 3, part := some p } 6 (.ptrFval p)).mp h
      simp [blockLimit] at hmay
    · refine exec_registerWrite_refused (one p) v hcycle fun h => ?_
      have hmay := (s.dev.regDetail_write_eq_zero_iff (one p) 7 (.timCycle p)).mp h
      simp [one, blockLimit] at hmay

end Sys2Proof.Machine
end

section
/-! SUPPORT and proofs: the completion of an lsu operation on memory and on register space outside a Decant and a recording, and O14. -/

namespace Sys2Proof.Machine

/-! ### Partitions whose inputs nobody records (R346) -/

/-- Engine e belongs to partition p, which runs outside a Decant and records nothing and loses nothing. -/
structure Device.Unrecorded (d : Device) (e p : Nat) : Prop where
  part : d.engPart e = some p
  mode : (d.part p).mode ≠ .decant
  closed : (d.part p).recorder.open_ = none
  keeps : d.losing p = false

section
variable {d : Device} {e p : Nat} (h : d.Unrecorded e p)
include h

theorem Device.Unrecorded.decantOf : d.decantOf p = none := if_neg h.mode

theorem Device.Unrecorded.recorded : d.recorded p = none := by simp [Device.recorded, h.decantOf]

/-- An input leaves no record. -/
theorem Device.Unrecorded.record (type src : Nat) (payload : List Byte) : d.record p type src payload = d := by
  simp [Device.record, h.closed, h.keeps]

/-- A load that is an input gives what it read. -/
theorem Device.Unrecorded.inputLoad (size a : Nat) (v st : Word) : d.inputLoad e size a v st = ((v, st), d) := by
  simp [Device.inputLoad, h.part, h.decantOf, h.record]

/-- What a completion reports is what has happened. -/
theorem Device.Unrecorded.hwStatus (l : LsuRun) (fault : Option (Nat × Nat)) (cor : Bool) :
    d.hwStatus e l fault cor = ((fault, fault.isNone && cor), d) := by
  cases fault <;> cases cor <;> simp [Device.hwStatus, h.part, h.decantOf, h.record]

/-- No address is one of a recorded partition. -/
theorem Device.Unrecorded.onlyRecorded (a : Nat) : d.onlyRecorded e a = false := by
  simp [Device.onlyRecorded, h.part, h.recorded]

/-- A datum is stored as it stands. -/
theorem Device.Unrecorded.placeDatum (a : Nat) (v : Word) : d.placeDatum e a v = v := by
  simp [Device.placeDatum, h.part, h.recorded]

/-- Changes of registers that a read clears, and of what is neither register nor partition, leave all this. -/
theorem Device.Unrecorded.congr {d' : Device} (hparts : d'.parts = d.parts) (hregs : ∀ r : Reg, r.access.rc = 0 → d'.reg r = d.reg r) :
    d'.Unrecorded e p := by
  obtain ⟨hpart, hmode, hclosed, hkeeps⟩ := h
  have hp : d'.part p = d.part p := by simp [Device.part, hparts]
  have hown : ∀ q, d'.reg (.parOwn q) = d.reg (.parOwn q) := fun q => hregs _ rfl
  have hcll : ∀ q, d'.reg (.parCll q) = d.reg (.parCll q) := fun q => hregs _ rfl
  have hclh : ∀ q, d'.reg (.parClh q) = d.reg (.parClh q) := fun q => hregs _ rfl
  have hctl : d'.reg (.celCtl p) = d.reg (.celCtl p) := hregs _ rfl
  have hstat : d'.reg (.celStat p) = d.reg (.celStat p) := hregs _ rfl
  refine ⟨?_, hp ▸ hmode, hp ▸ hclosed, ?_⟩
  · simpa [Device.engPart, Device.clusterOwner, Device.ownsCluster, Device.valid, hown, hcll, hclh] using hpart
  · simpa [Device.losing, hp, hctl, hstat] using hkeeps

end

/-! ### What accesses to memory leave -/

/-- The block without its memories, the notes of accesses to them, the DRAM cache, the clusters and the count of free values. -/
def Device.sansMemory (d : Device) : Device :=
  { d with mem := [], accesses := [], cache := [], cachePicks := [], clusters := [], fresh := 0 }

/-- What every step of a fold leaves, the fold leaves. -/
theorem foldDev_keeps {α β : Type} (π : Device → β) (f : Device → α → Device) (hf : ∀ d x, π (f d x) = π d) (d : Device) (xs : List α) :
    π (foldDev f d xs) = π d := by
  induction xs generalizing d with
  | nil => rfl
  | cons x xs ih => exact (ih (f d x)).trans (hf d x)

section
variable {d d' : Device} (h : d'.sansMemory = d.sansMemory)
include h

theorem Device.engines_of_sansMemory : d'.engines = d.engines :=
  show d'.sansMemory.engines = d.sansMemory.engines by rw [h]
theorem Device.regs_of_sansMemory : d'.regs = d.regs :=
  show d'.sansMemory.regs = d.sansMemory.regs by rw [h]
theorem Device.marks_of_sansMemory : d'.marks = d.marks :=
  show d'.sansMemory.marks = d.sansMemory.marks by rw [h]
theorem Device.eng_of_sansMemory (e : Nat) : d'.eng e = d.eng e := by simp [Device.eng, Device.engines_of_sansMemory h]
theorem Device.reg_of_sansMemory (r : Reg) : d'.reg r = d.reg r := by simp [Device.reg, Device.regs_of_sansMemory h]

theorem Device.Unrecorded.of_sansMemory {e p : Nat} (hu : d.Unrecorded e p) : d'.Unrecorded e p :=
  hu.congr (show d'.sansMemory.parts = d.sansMemory.parts by rw [h]) fun r _ => Device.reg_of_sansMemory h r

end

/-- A note of an access changes the notes alone. -/
theorem Device.noteAccess_eq (d : Device) (since w : Nat) (portB writes : Bool) (hit : Collision) :
    ∃ xs, d.noteAccess since w portB writes hit = { d with accesses := xs } := by
  unfold Device.noteAccess
  split_ifs
  · exact ⟨_, rfl⟩
  · exact ⟨d.accesses, rfl⟩
  · split
    · exact ⟨d.accesses, rfl⟩
    · exact ⟨_, rfl⟩
    · exact ⟨_, rfl⟩

@[simp] theorem Device.noteAccess_sansMemory (d : Device) (since w : Nat) (portB writes : Bool) (hit : Collision) :
    (d.noteAccess since w portB writes hit).sansMemory = d.sansMemory := by
  obtain ⟨xs, hxs⟩ := d.noteAccess_eq since w portB writes hit
  rw [hxs]; rfl

@[simp] theorem Device.noteAccess_mem (d : Device) (since w : Nat) (portB writes : Bool) (hit : Collision) :
    (d.noteAccess since w portB writes hit).mem = d.mem := by
  obtain ⟨xs, hxs⟩ := d.noteAccess_eq since w portB writes hit
  rw [hxs]

/-- A read through a port notes its accesses and changes nothing else. -/
@[simp] theorem Device.portRead_sansMemory (d : Device) (since a n : Nat) (portB : Bool) (hit : Collision) :
    (d.portRead since a n portB hit).2.sansMemory = d.sansMemory := by
  unfold Device.portRead
  split_ifs
  · rfl
  · exact foldDev_keeps Device.sansMemory _ (fun d w => d.noteAccess_sansMemory ..) d _

@[simp] theorem Device.portRead_mem (d : Device) (since a n : Nat) (portB : Bool) (hit : Collision) :
    (d.portRead since a n portB hit).2.mem = d.mem := by
  unfold Device.portRead
  split_ifs
  · rfl
  · exact foldDev_keeps Device.mem _ (fun d w => d.noteAccess_mem ..) d _

/-- A line joins the cache, and nothing else changes. -/
theorem Device.fillLine_eq (d : Device) (p w line : Nat) : ∃ c k, d.fillLine p w line = { d with cache := c, cachePicks := k } := by
  unfold Device.fillLine Device.cachePick
  dsimp only
  split_ifs
  · exact ⟨_, _, rfl⟩
  · split <;> exact ⟨_, _, rfl⟩

/-- An access through the DRAM cache changes the cache alone. -/
theorem Device.throughCache_eq (d : Device) (p : Option Nat) (a : Nat) (store : Bool) :
    ∃ c k, d.throughCache p a store = { d with cache := c, cachePicks := k } := by
  have hfill : ∀ p w, ∃ c k, (d.cachePick p).2.fillLine p w (a / 64) = { d with cache := c, cachePicks := k } := fun p w =>
    (d.cachePick p).2.fillLine_eq p w (a / 64)
  unfold Device.throughCache
  split
  · dsimp only
    split_ifs
    · exact ⟨d.cache, d.cachePicks, rfl⟩
    · exact ⟨_, d.cachePicks, rfl⟩
    · obtain ⟨c, k, h⟩ := hfill _ _
      exact ⟨_, k, by rw [h]⟩
    · exact ⟨d.cache, d.cachePicks, rfl⟩
    · exact hfill _ _
  · exact ⟨d.cache, d.cachePicks, rfl⟩

@[simp] theorem Device.throughCache_sansMemory (d : Device) (p : Option Nat) (a : Nat) (store : Bool) :
    (d.throughCache p a store).sansMemory = d.sansMemory := by
  obtain ⟨c, k, h⟩ := d.throughCache_eq p a store
  rw [h]; rfl

@[simp] theorem Device.throughCache_mem (d : Device) (p : Option Nat) (a : Nat) (store : Bool) :
    (d.throughCache p a store).mem = d.mem := by
  obtain ⟨c, k, h⟩ := d.throughCache_eq p a store
  rw [h]

/-- Bytes written change the memory alone. -/
@[simp] theorem Device.writeBytes_sansMemory (d : Device) (a : Nat) (bs : List Byte) : (d.writeBytes a bs).sansMemory = d.sansMemory := rfl

/-- What a store notes stands in the clusters. -/
@[simp] theorem Device.noteStore_sansMemory (d : Device) (own : Option Nat) (a size : Nat) :
    (d.noteStore own a size).sansMemory = d.sansMemory := by
  unfold Device.noteStore
  dsimp only
  split <;> split_ifs <;> rfl

/-- Where no check word is struck, a word stored changes the memory alone. -/
theorem Device.storeWord_sansMemory {d : Device} (hm : d.marks = []) (a : Nat) (w : Word) :
    (d.storeWord a w).sansMemory = d.sansMemory := by
  simp [Device.storeWord, Device.storeBytes, Device.marked, hm]

/-- Where no check word is struck, a store of an engine changes memory alone, and what the clusters note of it. -/
theorem Device.engineStore_sansMemory {d : Device} (hm : d.marks = []) (a size : Nat) (v : Word) :
    (d.engineStore a size v).sansMemory = d.sansMemory := by
  have hword : ∀ {d' : Device} (b : Nat) (w : Word), d'.sansMemory = d.sansMemory → (d'.storeWord b w).sansMemory = d.sansMemory :=
    fun b w h => (Device.storeWord_sansMemory ((Device.marks_of_sansMemory h).trans hm) b w).trans h
  unfold Device.engineStore
  split
  · dsimp only
    split_ifs
    · exact hword _ _ (hword _ _ rfl)
    · exact hword _ _ (hword _ _ rfl)
    · rfl
    · rfl
  · simp

/-- Where no check word is struck, a write through a port changes memory, its notes, and what the write itself changes. -/
theorem Device.portWrite_sansMemory (d : Device) (since a n : Nat) (portB : Bool) (hit : Collision) (write : Device → Device)
    (hwrite : ∀ d', d'.sansMemory = d.sansMemory → (write d').sansMemory = d.sansMemory) :
    (d.portWrite since a n portB hit write).2.sansMemory = d.sansMemory := by
  unfold Device.portWrite
  split_ifs
  · exact hwrite d rfl
  · dsimp only
    refine (foldDev_keeps Device.sansMemory _ (fun d w => d.writeBytes_sansMemory ..) _ _).trans (hwrite _ ?_)
    refine (foldDev_keeps Device.sansMemory _ (fun d w => d.noteAccess_sansMemory ..) _ _).trans ?_
    refine foldDev_keeps Device.sansMemory _ (fun d w => ?_) d _
    split <;> rfl

/-! ### The answer and the failure of an lsu operation -/

section
variable {d : Device} {e : Nat} {l : LsuRun}

/-- An answer to the running context stands in lsu.r and lsu.st, takes the operation from the queue and leaves the other ports and faults. -/
theorem Device.lsuAnswer_eng (hctx : l.ctx = (d.eng e).ctx) (v st : Word) :
    ((d.lsuAnswer e l v st).eng e).result .lsuR = { value := v, readable := true } ∧
    ((d.lsuAnswer e l v st).eng e).result .lsuSt = { value := st, readable := true } ∧
    ((d.lsuAnswer e l v st).eng e).lsu = (d.eng e).lsu.drop 1 ∧
    ((d.lsuAnswer e l v st).eng e).pendingFaults = (d.eng e).pendingFaults := by
  simp [Device.lsuAnswer, Engine.commit, hctx, Engine.lsuDone, putResults, Engine.result, Assoc.get_put_of_ne]

/-- Operations due anew keep their contexts. -/
theorem ctx_of_mem_redue {paced : Bool} {ls : List LsuRun} {k : LsuRun} {prev : Nat} {near io : Option Nat}
    (hk : k ∈ redue paced prev near io ls) : ∃ j ∈ ls, j.ctx = k.ctx := by
  induction ls generalizing prev near io with
  | nil => simp [redue] at hk
  | cons x xs ih =>
    simp only [redue, List.mem_cons] at hk
    rcases hk with rfl | hk
    · exact ⟨x, List.mem_cons_self, rfl⟩
    · obtain ⟨j, hj, hctx⟩ := ih hk
      exact ⟨j, List.mem_cons_of_mem _ hj, hctx⟩

/-- A completion fault of the running context ends its windows, cancels its operations and stays pending. -/
theorem Device.lsuFail_eng (hctx : l.ctx = (d.eng e).ctx) (hheirs : (d.eng e).heirs = []) (code detail : Nat) :
    (((d.lsuFail e l code detail).eng e).result .lsuR).readable = false ∧
    (((d.lsuFail e l code detail).eng e).result .lsuSt).readable = false ∧
    ((d.lsuFail e l code detail).eng e).pendingFaults = (d.eng e).pendingFaults ++
      [{ at_ := l.due, trig := l.trig, code := code, detail := detail, sfa := l.issue, ctx := l.ctx, completion := true }] ∧
    ∀ k ∈ ((d.lsuFail e l code detail).eng e).lsu, k.ctx ≠ l.ctx := by
  refine ⟨?_, ?_, ?_, fun k hk => ?_⟩
  · simp [Device.lsuFail, Engine.closeIn, Engine.close, Engine.lsuDone, hctx, Engine.result, Assoc.get_put_of_ne]
  · simp [Device.lsuFail, Engine.closeIn, Engine.close, Engine.lsuDone, hctx, Engine.result]
  · simp [Device.lsuFail, Engine.closeIn, Engine.close, Engine.lsuDone, hctx, Engine.heir, hheirs, Assoc.get]
  · simp only [Device.lsuFail, Device.onEng_self] at hk
    obtain ⟨j, hj, hjk⟩ := ctx_of_mem_redue hk
    rw [← hjk]
    simpa using (List.mem_filter.mp hj).2

end

/-! ### Counting struck words (R184, R185, R187) -/

/-- A number with a field replaced, from the field on: the field and what stood above it. -/
theorem replaceField_div (W lo len v : Nat) :
    (W - (W >>> lo % 2 ^ len) <<< lo + v <<< lo) / 2 ^ lo = v + 2 ^ len * (W / 2 ^ lo / 2 ^ len) := by
  have hW : W = W % 2 ^ lo + 2 ^ lo * (2 ^ len * (W / 2 ^ lo / 2 ^ len)) + W / 2 ^ lo % 2 ^ len * 2 ^ lo :=
    calc W = W % 2 ^ lo + 2 ^ lo * (W / 2 ^ lo) := (Nat.mod_add_div W _).symm
      _ = W % 2 ^ lo + 2 ^ lo * (W / 2 ^ lo % 2 ^ len + 2 ^ len * (W / 2 ^ lo / 2 ^ len)) := by rw [Nat.mod_add_div (W / 2 ^ lo)]
      _ = _ := by ring
  have hsum : W - (W >>> lo % 2 ^ len) <<< lo + v <<< lo = W % 2 ^ lo + 2 ^ lo * (v + 2 ^ len * (W / 2 ^ lo / 2 ^ len)) := by
    rw [Nat.shiftRight_eq_div_pow, Nat.shiftLeft_eq, Nat.shiftLeft_eq, Nat.sub_eq_of_eq_add hW]
    ring
  rw [hsum, Nat.add_mul_div_left _ _ (by positivity), Nat.div_eq_of_lt (Nat.mod_lt _ (by positivity)), zero_add]

/-- A replaced field reads what was put there. -/
theorem fld_setFld (w : Word) (lo len v : Nat) (h : lo + len ≤ 32) (hv : v < 2 ^ len) : fld (setFld w lo len v) lo len = v := by
  have hpow : (2 : Nat) ^ 32 = 2 ^ lo * 2 ^ (32 - lo) := by rw [← pow_add]; congr 1; omega
  have hdvd : 2 ^ len ∣ 2 ^ (32 - lo) := pow_dvd_pow 2 (by omega)
  unfold fld setFld
  rw [BitVec.toNat_ofNat, Nat.mod_eq_of_lt hv, Nat.shiftRight_eq_div_pow, hpow, Nat.mod_mul_right_div_self, Nat.mod_mod_of_dvd _ hdvd, fld,
    replaceField_div, Nat.add_mul_mod_self_left, Nat.mod_eq_of_lt hv]

/-- A counter field counts one more and saturates. -/
theorem Device.fld_bump (d : Device) (r : Reg) (lo len : Nat) (h : lo + len ≤ 32) :
    fld ((d.bump r lo len).reg r) lo len = min (2 ^ len - 1) (fld (d.reg r) lo len + 1) := by
  have hlt : fld (d.reg r) lo len < 2 ^ len := Nat.mod_lt _ (by positivity)
  unfold Device.bump
  split_ifs with hfull
  · rw [Device.setRegFld_self, fld_setFld _ _ _ _ h hfull]
    omega
  · omega

/-- A count leaves the other registers. -/
theorem Device.bump_other (d : Device) (r q : Reg) (lo len : Nat) (h : q ≠ r) : (d.bump r lo len).reg q = d.reg q := by
  unfold Device.bump
  split_ifs
  · exact Device.setRegFld_other d r q lo len _ h
  · rfl

/-- A count changes registers alone. -/
theorem Device.bump_eq (d : Device) (r : Reg) (lo len : Nat) : ∃ rs, d.bump r lo len = { d with regs := rs } := by
  unfold Device.bump
  split_ifs
  · exact ⟨_, rfl⟩
  · exact ⟨d.regs, rfl⟩

/-- A raise is noted among the raises, or among the held ones. -/
theorem Device.raise_eq (d : Device) (n : Nat) : ∃ rs hs, d.raise n = { d with raises := rs, heldRaises := hs } := by
  have hgo : ∃ rs hs, (if d.routeMuted n (d.reg (.evrRoute n)) then d else
      { d with raises := d.raises ++ [(d.now + 18, n, d.reg (.evrRoute n))] }) = { d with raises := rs, heldRaises := hs } := by
    split_ifs
    · exact ⟨d.raises, d.heldRaises, rfl⟩
    · exact ⟨_, _, rfl⟩
  unfold Device.raise
  dsimp only
  by_cases hoff : d.phase = .off
  · rw [if_pos hoff]
    exact ⟨d.raises, d.heldRaises, rfl⟩
  rw [if_neg hoff]
  cases d.sourceOwner n with
  | none => exact hgo
  | some p =>
    dsimp only
    by_cases hheld : (!d.released p || d.pausedPart p) = true
    · rw [if_pos hheld]
      by_cases hmem : n ∈ d.heldRaises
      · rw [if_pos hmem]
        exact ⟨d.raises, d.heldRaises, rfl⟩
      · rw [if_neg hmem]
        exact ⟨_, _, rfl⟩
    · rw [if_neg hheld]
      exact hgo

/-- An uncorrectable error is counted and raised, and nothing else changes. -/
theorem Device.eccError_eq (d : Device) (a : Nat) :
    ∃ rs hs, d.eccError a = { d.bump .cfgEcccnt 16 16 with raises := rs, heldRaises := hs } := by
  unfold Device.eccError
  dsimp only
  split
  · exact Device.raise_eq _ _
  · exact ⟨_, _, rfl⟩

/-- A count of errors records nothing. -/
theorem Device.Unrecorded.bump {d : Device} {e p : Nat} (hu : d.Unrecorded e p) (lo len : Nat) :
    (d.bump .cfgEcccnt lo len).Unrecorded e p := by
  obtain ⟨rs, hrs⟩ := d.bump_eq .cfgEcccnt lo len
  exact hu.congr (by rw [hrs]) fun r hr => d.bump_other _ _ _ _ (by rintro rfl; simp [Reg.access] at hr)

theorem Device.Unrecorded.eccError {d : Device} {e p : Nat} (hu : d.Unrecorded e p) (a : Nat) : (d.eccError a).Unrecorded e p := by
  obtain ⟨rs, hs, h⟩ := d.eccError_eq a
  rw [h]
  exact (hu.bump 16 16).congr rfl fun _ _ => rfl

/-- Where errors are corrected the marks go and the count rises, and nothing else changes. -/
theorem Device.Unrecorded.correct {d : Device} {e p : Nat} (hu : d.Unrecorded e p) (a n : Nat) : (d.correct a n).2.Unrecorded e p := by
  unfold Device.correct
  dsimp only
  generalize hd : ({ d with marks := _ } : Device) = d'
  have hu' : d'.Unrecorded e p := hd ▸ hu.congr rfl fun _ _ => rfl
  clear hd
  generalize d.marks.filter _ = hit
  induction hit generalizing d' with
  | nil => exact hu'
  | cons x xs ih => exact ih _ (hu'.bump 0 16)

/-! ### An operation on memory (R168, R180, R184, R185) -/

/-- How an lsu operation meets the other port: an atomic never, another as its check words do, the later where one of them is. -/
def Device.metAs (d : Device) (e : Nat) (l : LsuRun) (ca : Nat) (hit : Collision) : Collision :=
  if l.op.kind = .atomic ∨ (inXram ca || inMailbox ca) = false then .none
  else meets ((checkWords ca l.op.size).map (fun w => d.verdict l.posted w (!ownCluster e ca) (decide (l.op.kind ≠ .load)) hit))

section
variable {d : Device} {e p : Nat} (hu : d.Unrecorded e p) (l : LsuRun) (ca : Nat) (hit : Collision)
include hu

/-- Without a Decant the operation fails at a unit out of service, and at a word that cannot be corrected unless it is a load that meets the other
port; else it corrects what it reads and has its effect. -/
theorem Device.Unrecorded.lsuOnMemory :
    d.lsuOnMemory e l ca hit none =
      let met := d.metAs e l ca hit
      let blind := decide (met ≠ .none ∧ l.op.kind = .load)
      let cor := if blind then (false, d) else d.correct ca l.op.size
      if d.offline ca then d.lsuFail e l 3 3
      else if !blind && d.uncorrectable ca l.op.size then (d.eccError ca).lsuFail e l 0x0D 0
      else cor.2.lsuMemory e l ca met (boolWord cor.1 ||| (boolWord (decide (met = .later)) <<< 1)) := by
  have hcor : (d.correct ca l.op.size).2.Unrecorded e p := hu.correct ca l.op.size
  have herr : (d.eccError ca).Unrecorded e p := hu.eccError ca
  have hmet : (if decide (l.op.kind = .atomic) || false then Collision.none
      else if inXram ca || inMailbox ca then
        meets ((checkWords ca l.op.size).map (fun w => d.verdict l.posted w (!ownCluster e ca) (decide (l.op.kind ≠ .load)) hit))
      else .none) = d.metAs e l ca hit := by
    unfold Device.metAs
    by_cases hatomic : l.op.kind = .atomic
    · simp [hatomic]
    · cases inXram ca || inMailbox ca <;> simp [hatomic]
  unfold Device.lsuOnMemory
  cases hk : l.op.kind <;>
    simp only [hk, ne_eq, reduceCtorEq, not_true_eq_false, not_false_eq_true, decide_true, decide_false] at hmet <;>
    simp only [hu.part, hu.decantOf, Option.isSome_none, Bool.false_and, Bool.not_true, Bool.not_false, reduceCtorEq, decide_false, decide_true, hmet]
  all_goals
    clear hmet
    cases hoff : d.offline ca
    case true => simp [hu.hwStatus]
    case false =>
      cases hbad : d.uncorrectable ca l.op.size <;> by_cases hm : d.metAs e l ca hit = .none <;>
        simp [hm, hu.hwStatus, hcor.hwStatus, herr.hwStatus]
end

section
variable {d : Device} {e p : Nat} {l : LsuRun} {ca : Nat}

/-- What strikes a check word of sound memory during the access stands in its mark. -/
theorem Device.Unrecorded.lsuOnMemory_struck (hu : d.Unrecorded e p) (hm : d.marks = []) (hit : Collision) (u : Upset) :
    d.lsuOnMemory e l ca hit (some u) = ({ d with marks := [(ca / 8 * 8, u)] } : Device).lsuOnMemory e l ca hit none := by
  have hsound : d.uncorrectable (ca / 8 * 8) 8 = false := by simp [Device.uncorrectable, hm]
  have hput : Assoc.put d.marks (ca / 8 * 8) u = [(ca / 8 * 8, u)] := by simp [hm, Assoc.put]
  have hu' : ({ d with marks := [(ca / 8 * 8, u)] } : Device).Unrecorded e p := hu.congr rfl fun _ _ => rfl
  simp only [Device.lsuOnMemory, hu.part, hu'.part, hu.decantOf, hu'.decantOf, Option.isSome_none, Bool.false_and, Bool.false_or, hsound,
    Bool.false_eq_true, if_false, hput]
  rfl

/-! ### How accesses meet (R180, R182) -/

/-- Where no access is noted, only one that is on its way may meet: in Paced by the schedule, in Free mode as the command says. -/
theorem Device.verdict_of_no_accesses (hacc : d.accesses = []) (since w : Nat) (portB writes : Bool) (hit : Collision) :
    d.verdict since w portB writes hit =
      if d.pacedWord w then if d.mayMeet w portB writes then if portB then .later else .earlier else .none
      else if (inMailbox (8 * w) && !portB) || d.mayMeet w portB writes then hit else .none := by
  have hrivals : d.rivals since w portB writes = [] := by simp [Device.rivals, hacc]
  unfold Device.verdict
  rw [hrivals]
  cases d.pacedWord w <;> cases d.mayMeet w portB writes <;> cases inMailbox (8 * w) && !portB <;> simp

/-- Meetings that are all of one kind amount to it. -/
theorem meets_of_forall {hits : List Collision} {hit : Collision} (hne : hits ≠ []) (h : ∀ x ∈ hits, x = hit) : meets hits = hit := by
  obtain ⟨y, hy⟩ := List.exists_mem_of_ne_nil hits hne
  have hcontains : ∀ c, hits.contains c = decide (c = hit) := fun c => by
    rw [List.contains_eq_mem, decide_eq_decide]
    exact ⟨h c, fun hc => hc ▸ h y hy ▸ hy⟩
  unfold meets
  rw [hcontains, hcontains]
  cases hit <;> rfl

/-- An access takes at least one check word. -/
theorem checkWords_ne_nil (a : Nat) {n : Nat} (hn : 0 < n) : checkWords a n ≠ [] := by
  simp [checkWords]
  omega

theorem LsuOp.size_pos (op : LsuOp) : 0 < op.size := by cases op <;> decide

/-- An access that is alone meets nothing. -/
theorem Device.metAs_of_accessAlone (h : d.accessAlone e ca l.op.size) : d.metAs e l ca .none = .none := by
  unfold Device.metAs
  split
  · rfl
  · rename_i hport
    obtain ⟨hx, hmail⟩ | ⟨hacc, hmeet⟩ := h
    · exact absurd (by simp [hx, hmail]) (not_or.mp hport).2
    · refine meets_of_forall (by simpa using checkWords_ne_nil ca l.op.size_pos) fun x hx => ?_
      obtain ⟨w, hw, rfl⟩ := List.mem_map.mp hx
      rw [d.verdict_of_no_accesses hacc]
      cases hpaced : d.pacedWord w with
      | true => simp [hmeet w hw hpaced]
      | false => simp

/-- An access other than an atomic whose every check word something on its way may meet in Free mode meets it as the command says. -/
theorem Device.metAs_of_mayMeet (hacc : d.accesses = []) (hx : inXram ca = true) (hk : l.op.kind ≠ .atomic) (hit : Collision)
    (hmeet : ∀ w ∈ checkWords ca l.op.size, d.pacedWord w = false ∧ ∀ b, d.mayMeet w (!ownCluster e ca) b = true) :
    d.metAs e l ca hit = hit := by
  unfold Device.metAs
  rw [if_neg (by simp [hk, hx])]
  refine meets_of_forall (by simpa using checkWords_ne_nil ca l.op.size_pos) fun x hx => ?_
  obtain ⟨w, hw, rfl⟩ := List.mem_map.mp hx
  obtain ⟨hfree, hmay⟩ := hmeet w hw
  simp [d.verdict_of_no_accesses hacc, hfree, hmay]

theorem Device.metAs_of_atomic (hk : l.op.kind = .atomic) (hit : Collision) : d.metAs e l ca hit = .none := by
  simp [Device.metAs, hk]

/-! ### The effect of an operation that does not fail (R169) -/

/-- A load answers with its status and leaves memory as it stands. -/
theorem Device.Unrecorded.lsuMemory_load (hu : d.Unrecorded e p) (hk : l.op.kind = .load) (hit : Collision) (st : Word) :
    ∃ (d' : Device) (v : Word), d.lsuMemory e l ca hit st = d'.lsuAnswer e l v st ∧ d'.sansMemory = d.sansMemory ∧ d'.mem = d.mem := by
  have hinput : ∀ (d' : Device) (v : Word), d'.sansMemory = d.sansMemory → d'.inputLoad e l.op.size l.addr v st = ((v, st), d') :=
    fun d' v h => (hu.of_sansMemory h).inputLoad ..
  let d₁ := (d.portRead l.posted ca l.op.size (!ownCluster e ca) hit).2.throughCache (d.engPart e) ca false
  have hsans : d₁.sansMemory = d.sansMemory := by simp [d₁]
  have hmem : d₁.mem = d.mem := by simp [d₁]
  have hfree : d₁.freeWord.2.sansMemory = d.sansMemory := hsans
  unfold Device.lsuMemory
  simp only [hk]
  by_cases hhit : hit = .none
  · refine ⟨d₁, l.op.extend (fromBytes (d₁.windowBytes ca l.op.size)), ?_, hsans, hmem⟩
    rw [if_pos hhit]
    split
    · rw [hinput _ _ hsans]
    · rfl
  · refine ⟨d₁.freeWord.2, l.op.extend (d₁.freeWord.1.toNat % 256 ^ l.op.size), ?_, hfree, hmem⟩
    rw [if_neg hhit]
    split
    · dsimp only
      rw [hinput _ _ hfree]
    · rfl

/-- A store writes through its port and answers with its status. -/
theorem Device.Unrecorded.lsuMemory_store (hu : d.Unrecorded e p) (hk : l.op.kind = .store) (hit : Collision) (st : Word) :
    d.lsuMemory e l ca hit st =
      ((d.throughCache (d.engPart e) ca true).portWrite l.posted ca l.op.size (!ownCluster e ca) hit
        (fun d' => d'.engineStore ca l.op.size l.datum)).2.lsuAnswer e l 0 st := by
  unfold Device.lsuMemory
  simp [hk, hu.onlyRecorded]

/-- An atomic stores its combination and answers with the word that stood there. -/
theorem Device.Unrecorded.lsuMemory_atomic (hu : d.Unrecorded e p) (hk : l.op.kind = .atomic) (hit : Collision) (st : Word) :
    d.lsuMemory e l ca hit st =
      ((d.throughCache (d.engPart e) ca true).engineStore ca 4 (l.op.combine (d.loadWord ca) l.datum)).lsuAnswer e l (d.loadWord ca) st := by
  unfold Device.lsuMemory
  simp only [hk]
  split <;> simp [hu.inputLoad, hu.onlyRecorded]

/-- Where no check word is struck an operation changes nothing but memory, and a load not even that. -/
theorem Device.Unrecorded.lsuMemory (hu : d.Unrecorded e p) (hm : d.marks = []) (hit : Collision) (st : Word) :
    ∃ (d' : Device) (v : Word), d.lsuMemory e l ca hit st = d'.lsuAnswer e l v st ∧ d'.sansMemory = d.sansMemory ∧
      (l.op.kind = .load → d'.mem = d.mem) := by
  have hstore : ∀ (d' : Device) (n : Nat) (v : Word), d'.sansMemory = d.sansMemory → (d'.engineStore ca n v).sansMemory = d.sansMemory :=
    fun d' n v h => (Device.engineStore_sansMemory ((Device.marks_of_sansMemory h).trans hm) ..).trans h
  have hcache := d.throughCache_sansMemory (d.engPart e) ca true
  cases hk : l.op.kind with
  | load =>
    obtain ⟨d', v, heq, hsans, hmem⟩ := hu.lsuMemory_load (ca := ca) hk hit st
    exact ⟨d', v, heq, hsans, fun _ => hmem⟩
  | store =>
    have hwrite := Device.portWrite_sansMemory (d.throughCache (d.engPart e) ca true) l.posted ca l.op.size (!ownCluster e ca) hit
      (fun d' => d'.engineStore ca l.op.size l.datum) fun d' h => (hstore d' _ _ (h.trans hcache)).trans hcache.symm
    exact ⟨_, _, hu.lsuMemory_store hk hit st, hwrite.trans hcache, by simp⟩
  | atomic => exact ⟨_, _, hu.lsuMemory_atomic hk hit st, hstore _ _ _ hcache, by simp⟩

end

/-! ### Marks of struck words (R184, R185) -/

/-- Where no check word is struck, a read corrects nothing. -/
theorem Device.correct_of_sound {d : Device} (hm : d.marks = []) (a n : Nat) : d.correct a n = (false, d) := by
  have hd : ({ d with marks := [] } : Device) = d := by rw [← hm]
  simp [Device.correct, hm, foldDev, hd]

/-- The one check word that is struck by a single error is corrected and counted. -/
theorem Device.correct_of_single (d : Device) (a : Nat) {n : Nat} (hn : 0 < n) :
    ({ d with marks := [(a / 8 * 8, .single)] } : Device).correct a n = (true, ({ d with marks := [] } : Device).bump .cfgEcccnt 0 16) := by
  have hin : a / 8 * 8 < a + n ∧ a < a / 8 * 8 + 8 := by omega
  simp [Device.correct, hin, foldDev]

/-- An access at a struck word cannot be corrected where the error is not single. -/
theorem Device.uncorrectable_of_struck (d : Device) (a : Nat) {n : Nat} (hn : 0 < n) (u : Upset) :
    ({ d with marks := [(a / 8 * 8, u)] } : Device).uncorrectable a n = decide (u = .uncorrectable) := by
  have hin : a / 8 * 8 < a + n ∧ a < a / 8 * 8 + 8 := by omega
  simp [Device.uncorrectable, hin]

theorem Device.uncorrectable_of_sound {d : Device} (hm : d.marks = []) (a n : Nat) : d.uncorrectable a n = false := by
  simp [Device.uncorrectable, hm]

/-! ### Stores into an exchange RAM beyond its headers (R169, R274) -/

theorem length_toBytes (n v : Nat) : (toBytes n v).length = n := by
  induction n generalizing v with
  | zero => rfl
  | succ n ih => simp [toBytes, ih]

/-- Byte i of a little-endian number. -/
theorem getElem?_toBytes {n i : Nat} (hi : i < n) (v : Nat) : (toBytes n v)[i]? = some (BitVec.ofNat 8 (v / 256 ^ i)) := by
  induction n generalizing i v with
  | zero => omega
  | succ n ih =>
    cases i with
    | zero => simp [toBytes]
    | succ i =>
      simp only [toBytes, List.getElem?_cons_succ]
      rw [ih (by omega), Nat.div_div_eq_div_mul, pow_succ']

/-- A fold whose steps leave its block leaves it. -/
theorem foldDev_eq_self {α : Type} {f : Device → α → Device} (d : Device) (h : ∀ x, f d x = d) (xs : List α) : foldDev f d xs = d := by
  induction xs with
  | nil => rfl
  | cons x xs ih => rw [foldDev, h, ih]

/-- Notes of accesses change the notes alone. -/
theorem foldDev_noteAccess_eq (d : Device) (since : Nat) (portB : Bool) (ws : List (Nat × Collision)) :
    ∃ xs, foldDev (fun d (w : Nat × Collision) => d.noteAccess since w.1 portB true w.2) d ws = { d with accesses := xs } := by
  induction ws generalizing d with
  | nil => exact ⟨d.accesses, rfl⟩
  | cons w ws ih =>
    obtain ⟨xs, hxs⟩ := d.noteAccess_eq since w.1 portB true w.2
    rw [foldDev, hxs]
    exact ih _

section
variable {d : Device} {a c : Nat}

/-- An access to an exchange RAM does not go through the DRAM cache. -/
theorem Device.throughCache_of_xram (hx : regionOf a = some (.xram c)) (p : Option Nat) (store : Bool) : d.throughCache p a store = d := by
  cases p <;> simp [Device.throughCache, hx]

/-- A store beyond the headers writes its bytes. -/
theorem Device.engineStore_of_xram (hx : regionOf a = some (.xram c)) (hoff : 0x1000 ≤ a % 0x10000) (size : Nat) (v : Word) :
    d.engineStore a size v = d.writeBytes a (toBytes size v.toNat) := by
  have hbody : ¬ (0x800 ≤ a % 0x10000 ∧ a % 0x10000 < 0x1000) := by omega
  simp [Device.engineStore, hx, hbody]

/-- Where no access is noted, a write through a port takes effect, with notes of its own accesses. -/
theorem Device.portWrite_of_no_accesses (hacc : d.accesses = []) (since n : Nat) (portB : Bool) (hit : Collision) (write : Device → Device) :
    ∃ xs, (d.portWrite since a n portB hit write).2 = write { d with accesses := xs } := by
  have hrival : ∀ w, d.beforeRival since w portB = none := fun w => by simp [Device.beforeRival, Device.rivals, hacc]
  unfold Device.portWrite
  split_ifs
  · exact ⟨d.accesses, rfl⟩
  · simp only [hrival, Option.isSome_none, Bool.and_false, List.filter_false, foldDev]
    rw [foldDev_eq_self d fun w => by rw [hrival]; cases w.2 <;> rfl]
    exact (foldDev_noteAccess_eq d since portB _).imp fun xs hxs => congrArg write hxs

end

/-! ### LSU_COMPLETE -/

/-- An access that leaves a target port changes the ports alone. -/
theorem Device.dropRequest_eq (d : Device) (t : Nat) (owner : ReqOwner) : ∃ ts, d.dropRequest t owner = { d with targets := ts } := by
  unfold Device.dropRequest
  split
  · exact ⟨_, rfl⟩
  · exact ⟨d.targets, rfl⟩

/-- LSU_COMPLETE on memory: the oldest operation leaves its target port and completes. -/
theorem exec_lsuComplete_memory {s : State} {e : Nat} {l : LsuRun} (hhead : s.dev.lsuHead e = some l)
    (hregion : ∀ b, regionOf (s.dev.place e l.addr) ≠ some (.device b)) :
    ∃ ts, ∀ hit u, exec (.lsuComplete e hit u) s =
      .next { s with dev := ({ s.dev with targets := ts } : Device).lsuOnMemory e l (s.dev.place e l.addr) hit u } := by
  obtain ⟨ts, hts⟩ : ∃ ts, (if l.cls = .none then s.dev else s.dev.dropRequest (s.dev.targetFor (s.dev.place e l.addr)) (.lsu e)) =
      { s.dev with targets := ts } := by
    split
    · exact ⟨s.dev.targets, rfl⟩
    · exact s.dev.dropRequest_eq _ _
  refine ⟨ts, fun hit u => ?_⟩
  have hdev : s.dev.lsuComplete e hit u = ({ s.dev with targets := ts } : Device).lsuOnMemory e l (s.dev.place e l.addr) hit u := by
    unfold Device.lsuComplete
    simp only [hhead, hts]
  show Host.Outcome.next (s.onDev fun d => d.lsuComplete e hit u) = _
  rw [State.onDev, hdev]

section
variable {d : Device} {e p : Nat} {l : LsuRun} {ca : Nat}

/-- The status word of a meeting: BUSY for the later (R181). -/
theorem busyWord (hit : Collision) :
    boolWord false ||| (boolWord (decide (hit = .later)) <<< 1) = if hit = .later then 2 else 0 := by
  cases hit <;> rfl

/-- On sound memory in service an operation has its effect. -/
theorem Device.Unrecorded.lsuOnMemory_of_sound (hu : d.Unrecorded e p) (hoff : d.offline ca = false) (hm : d.marks = []) (hit : Collision) :
    d.lsuOnMemory e l ca hit none =
      d.lsuMemory e l ca (d.metAs e l ca hit) (if d.metAs e l ca hit = .later then 2 else 0) := by
  rw [hu.lsuOnMemory]
  simp only [hoff, Device.uncorrectable_of_sound hm, Device.correct_of_sound hm, ite_self, Bool.and_false, Bool.false_eq_true, if_false, busyWord]

/-- At a unit out of service an operation fails. -/
theorem Device.Unrecorded.lsuOnMemory_of_offline (hu : d.Unrecorded e p) (hoff : d.offline ca = true) (hit : Collision) :
    d.lsuOnMemory e l ca hit none = d.lsuFail e l 3 3 := by
  rw [hu.lsuOnMemory]
  simp only [hoff, if_true]

/-- At a word that cannot be corrected an operation that meets nothing fails. -/
theorem Device.Unrecorded.lsuOnMemory_of_uncorrectable (hu : d.Unrecorded e p) (hoff : d.offline ca = false)
    (halone : d.accessAlone e ca l.op.size) (hbad : d.uncorrectable ca l.op.size = true) :
    d.lsuOnMemory e l ca .none none = (d.eccError ca).lsuFail e l 0x0D 0 := by
  rw [hu.lsuOnMemory]
  simp [hoff, hbad, Device.metAs_of_accessAlone halone]

/-- A single-bit error that strikes sound memory is corrected and counted, and the operation has its effect and shows it. -/
theorem Device.Unrecorded.lsuOnMemory_of_single (hu : d.Unrecorded e p) (hoff : d.offline ca = false)
    (halone : d.accessAlone e ca l.op.size) (hm : d.marks = []) :
    d.lsuOnMemory e l ca .none (some .single) = (d.bump .cfgEcccnt 0 16).lsuMemory e l ca .none 1 := by
  have hd : ({ d with marks := [] } : Device) = d := by rw [← hm]
  have hu' : ({ d with marks := [(ca / 8 * 8, .single)] } : Device).Unrecorded e p := hu.congr rfl fun _ _ => rfl
  have hoff' : ({ d with marks := [(ca / 8 * 8, .single)] } : Device).offline ca = false := hoff
  have halone' : ({ d with marks := [(ca / 8 * 8, .single)] } : Device).accessAlone e ca l.op.size := halone
  rw [hu.lsuOnMemory_struck hm, hu'.lsuOnMemory]
  simp only [hoff', Device.metAs_of_accessAlone halone', Device.correct_of_single d ca l.op.size_pos,
    Device.uncorrectable_of_struck d ca l.op.size_pos, hd, ne_eq, not_true_eq_false, false_and, decide_false, Bool.not_false, Bool.true_and,
    reduceCtorEq, Bool.false_eq_true, if_false]
  rfl

/-! ### What the failure of an operation leaves -/

theorem Device.eccError_engines (d : Device) (a : Nat) : (d.eccError a).engines = d.engines := by
  obtain ⟨rs, hs, h⟩ := d.eccError_eq a
  obtain ⟨regs, hregs⟩ := d.bump_eq .cfgEcccnt 16 16
  rw [h, hregs]

theorem Device.eccError_mem (d : Device) (a : Nat) : (d.eccError a).mem = d.mem := by
  obtain ⟨rs, hs, h⟩ := d.eccError_eq a
  obtain ⟨regs, hregs⟩ := d.bump_eq .cfgEcccnt 16 16
  rw [h, hregs]

theorem Device.eccError_reg (d : Device) (a : Nat) (r : Reg) : (d.eccError a).reg r = (d.bump .cfgEcccnt 16 16).reg r := by
  obtain ⟨rs, hs, h⟩ := d.eccError_eq a
  rw [h]
  rfl

/-- LSU_COMPLETE that ends in a completion fault of a block that has the engines, the memory and, but for the count of errors, the registers
of before (R168). -/
theorem exec_lsuComplete_fails {s : State} {u : Option Upset} {code detail : Nat}
    (hexec : exec (.lsuComplete e .none u) s = .next { s with dev := d.lsuFail e l code detail })
    (hctx : l.ctx = (s.dev.eng e).ctx) (hheirs : (s.dev.eng e).heirs = []) (hengines : d.engines = s.dev.engines) (hmem : d.mem = s.dev.mem)
    (hregs : ∀ r, r ≠ .cfgEcccnt → d.reg r = s.dev.reg r) :
    ∃ t, exec (.lsuComplete e .none u) s = .next t ∧ t.pending = s.pending ∧
      ((t.dev.eng e).result .lsuR).readable = false ∧ ((t.dev.eng e).result .lsuSt).readable = false ∧
      (t.dev.eng e).pendingFaults = (s.dev.eng e).pendingFaults ++
        [{ at_ := l.due, trig := l.trig, code := code, detail := detail, sfa := l.issue, ctx := l.ctx, completion := true }] ∧
      (∀ k ∈ (t.dev.eng e).lsu, k.ctx ≠ l.ctx) ∧ (∀ k, k ≠ e → t.dev.eng k = s.dev.eng k) ∧ (∀ k, t.dev.byte k = s.dev.byte k) ∧
      (∀ r, r ≠ .cfgEcccnt → t.dev.reg r = s.dev.reg r) ∧ t.dev.reg .cfgEcccnt = d.reg .cfgEcccnt := by
  have heng : ∀ k, d.eng k = s.dev.eng k := fun k => by simp [Device.eng, hengines]
  obtain ⟨hr, hst, hfaults, hlsu⟩ := Device.lsuFail_eng (d := d) (hctx.trans (by rw [heng])) (by rw [heng, hheirs]) code detail
  refine ⟨_, hexec, rfl, hr, hst, by rw [hfaults, heng], hlsu, fun k hk => ?_, fun k => ?_, fun r hr => ?_, ?_⟩
  · exact (Device.onEng_other _ _ _ _ hk).trans (heng k)
  · simp [Device.lsuFail, Device.byte, hmem]
  · simp [Device.lsuFail, hregs r hr]
  · simp [Device.lsuFail]

/-! ### Operations on register space (R15, R166, R169) -/

/-- A read of a register clears its RC bits. -/
theorem Device.regRead_reg (d : Device) (r : Reg) :
    (d.regRead r).2.reg r = d.reg r &&& ~~~ r.access.rc ∧ ∀ q, q ≠ r → (d.regRead r).2.reg q = d.reg q := by
  by_cases hrc : r.access.rc = 0
  · have hnone : r.access.rc = 0#32 := hrc
    simp [Device.regRead, hnone, and_fullMask]
  · simp only [Device.regRead, if_neg hrc]
    exact ⟨Device.setReg_self .., fun q hq => Device.setReg_other _ _ _ _ hq⟩

/-- A read of a register changes registers alone. -/
theorem Device.regRead_eq (d : Device) (r : Reg) : ∃ rs, (d.regRead r).2 = { d with regs := rs } := by
  unfold Device.regRead
  dsimp only
  split
  · exact ⟨d.regs, rfl⟩
  · exact ⟨_, rfl⟩

/-- A read of a register leaves what is owned and recorded. -/
theorem Device.Unrecorded.regRead (hu : d.Unrecorded e p) (r : Reg) : (d.regRead r).2.Unrecorded e p := by
  obtain ⟨rs, hrs⟩ := d.regRead_eq r
  refine hu.congr (by rw [hrs]) fun q hq => ?_
  by_cases hqr : q = r
  · subst hqr
    simp [Device.regRead, hq]
  · exact (d.regRead_reg r).2 q hqr

/-- A load of a register answers with what it reads as. -/
theorem Device.Unrecorded.lsuDevice_load (hu : d.Unrecorded e p) {r : Reg} (hk : l.op.kind = .load) (hnamed : Reg.ofAddr ca = some r)
    (hl : r ≠ .timNsl) (hh : r ≠ .timNsh) (b : Nat) : d.lsuDevice e l ca b = (d.regRead r).2.lsuAnswer e l (d.regValue r) 0 := by
  have hload : d.regLoad e ca = d.regRead r := by
    unfold Device.regLoad
    rw [hnamed]
    split
    case h_1 h => cases h
    case h_2 h => exact absurd (Option.some.inj h) hl
    case h_3 h => exact absurd (Option.some.inj h) hh
    case h_4 h => rw [Option.some.inj h]
  have hvalue : (d.regRead r).1 = d.regValue r := rfl
  unfold Device.lsuDevice
  simp only [hk, hu.part, hu.decantOf, Option.isSome_none, Bool.false_and, Bool.false_eq_true, if_false, hload,
    (hu.regRead r).inputLoad, ite_self, hvalue]

/-- A store into a register is the store of its ring and partition. -/
theorem Device.Unrecorded.lsuDevice_store (hu : d.Unrecorded e p) (hk : l.op.kind = .store) (b : Nat) :
    d.lsuDevice e l ca b = (d.regStore { ring := l.ring, part := some p } ca l.datum).lsuAnswer e l 0 0 := by
  unfold Device.lsuDevice
  simp [hk, hu.onlyRecorded, hu.placeDatum, hu.part]

/-- LSU_COMPLETE on register space. -/
theorem exec_lsuComplete_device {s : State} {b : Nat} (hhead : s.dev.lsuHead e = some l)
    (hregion : regionOf (s.dev.place e l.addr) = some (.device b))
    (hwaits : ∀ q ∈ (s.dev.target (s.dev.targetFor (s.dev.place e l.addr))).waiting, q.slotted = false) (hit : Collision) (u : Option Upset) :
    exec (.lsuComplete e hit u) s = .next { s with dev := s.dev.lsuDevice e l (s.dev.place e l.addr) b } := by
  have hdrop : s.dev.dropRequest (s.dev.targetFor (s.dev.place e l.addr)) (.lsu e) = s.dev := by
    unfold Device.dropRequest
    rw [List.find?_eq_none.mpr fun q hq => by simp [hwaits q hq]]
  have hdev : s.dev.lsuComplete e hit u = s.dev.lsuDevice e l (s.dev.place e l.addr) b := by
    unfold Device.lsuComplete
    simp only [hhead, hdrop, ite_self, hregion]
  show Host.Outcome.next (s.onDev fun d => d.lsuComplete e hit u) = _
  rw [State.onDev, hdev]

/-! ### What each completion leaves -/

/-- A completion answers: the queue, the results and the faults of the engine, with the memory, the marks and the registers of the block that
answers. -/
theorem Device.lsuAnswer_reads (d : Device) (e : Nat) (l : LsuRun) (v st : Word) :
    (∀ k, (d.lsuAnswer e l v st).byte k = d.byte k) ∧ (∀ r, (d.lsuAnswer e l v st).reg r = d.reg r) ∧
    (d.lsuAnswer e l v st).marks = d.marks ∧ ∀ k, k ≠ e → (d.lsuAnswer e l v st).eng k = d.eng k :=
  ⟨fun _ => rfl, fun _ => rfl, rfl, fun _ hk => Device.onEng_other _ _ _ _ hk⟩

/-- An answer changes the engines alone. -/
theorem Device.lsuAnswer_engines (d : Device) (e : Nat) (l : LsuRun) (v st : Word) :
    ({ d.lsuAnswer e l v st with engines := d.engines } : Device) = d := rfl

/-- A corrected operation on sound memory counts one error and shows it; a load leaves memory as it stands (R184). -/
theorem Device.Unrecorded.lsuOnMemory_corrected (hu : d.Unrecorded e p) (hoff : d.offline ca = false)
    (halone : d.accessAlone e ca l.op.size) (hm : d.marks = []) (hctx : l.ctx = (d.eng e).ctx) :
    let t := d.lsuOnMemory e l ca .none (some .single)
    t.marks = [] ∧ (t.eng e).pendingFaults = (d.eng e).pendingFaults ∧ (t.eng e).result .lsuSt = { value := 1, readable := true } ∧
      ((t.eng e).result .lsuR).readable = true ∧
      fld (t.reg .cfgEcccnt) 0 16 = min 65535 (fld (d.reg .cfgEcccnt) 0 16 + 1) ∧
      (l.op.kind = .load → ∀ k, t.byte k = d.byte k) := by
  intro t
  obtain ⟨rs, hbump⟩ := d.bump_eq .cfgEcccnt 0 16
  have hmarks : (d.bump .cfgEcccnt 0 16).marks = [] := by rw [hbump]; exact hm
  obtain ⟨d', v, hanswer, hsans, hmem⟩ := (hu.bump 0 16).lsuMemory (l := l) (ca := ca) hmarks .none 1
  have heng : d'.eng e = d.eng e := by rw [Device.eng_of_sansMemory hsans, hbump]; rfl
  obtain ⟨hr, hst, -, hfaults⟩ := Device.lsuAnswer_eng (d := d') (l := l) (hctx.trans (by rw [heng])) v 1
  obtain ⟨hbytes, hregs, hkept, -⟩ := d'.lsuAnswer_reads e l v 1
  have ht : t = d'.lsuAnswer e l v 1 := (hu.lsuOnMemory_of_single hoff halone hm).trans hanswer
  rw [ht]
  refine ⟨hkept.trans ((Device.marks_of_sansMemory hsans).trans hmarks), by rw [hfaults, heng], hst, by rw [hr], ?_, fun hk k => ?_⟩
  · rw [hregs, Device.reg_of_sansMemory hsans, Device.fld_bump _ _ _ _ (by norm_num)]
    rfl
  · rw [hbytes, Device.byte, hmem hk, hbump]
    rfl

/-- A load gives its status and leaves memory as it stands. -/
theorem Device.Unrecorded.lsuMemory_load_answers (hu : d.Unrecorded e p) (hk : l.op.kind = .load) (hctx : l.ctx = (d.eng e).ctx)
    (hit : Collision) (st : Word) :
    let t := d.lsuMemory e l ca hit st
    ∃ v, (∀ k, t.byte k = d.byte k) ∧ (t.eng e).result .lsuR = { value := v, readable := true } ∧
      (t.eng e).result .lsuSt = { value := st, readable := true } := by
  intro t
  obtain ⟨d', v, hanswer, hsans, hmem⟩ := hu.lsuMemory_load (ca := ca) hk hit st
  have heng : d'.eng e = d.eng e := Device.eng_of_sansMemory hsans e
  obtain ⟨hr, hst, -, -⟩ := Device.lsuAnswer_eng (d := d') (l := l) (hctx.trans (by rw [heng])) v st
  obtain ⟨hbytes, -, -, -⟩ := d'.lsuAnswer_reads e l v st
  have ht : t = d'.lsuAnswer e l v st := hanswer
  rw [ht]
  exact ⟨v, fun k => by rw [hbytes, Device.byte, hmem]; rfl, hr, hst⟩

section
variable {c : Nat} (hu : d.Unrecorded e p) (hx : regionOf ca = some (.xram c)) (hbody : 0x1000 ≤ ca % 0x10000)
  (hctx : l.ctx = (d.eng e).ctx) (hit : Collision) (st : Word)
include hu hx hbody hctx

/-- A store into an exchange RAM beyond its headers where no access is noted writes its bytes and gives its status. -/
theorem Device.Unrecorded.lsuMemory_store_answers (hk : l.op.kind = .store) (hacc : d.accesses = []) (hcanon : d.canonical = true) :
    let t := d.lsuMemory e l ca hit st
    (t.eng e).result .lsuSt = { value := st, readable := true } ∧
      (∀ i < l.op.size, t.byte (ca + i) = BitVec.ofNat 8 (l.datum.toNat / 256 ^ i)) ∧
      ∀ k, k < ca ∨ ca + l.op.size ≤ k → t.byte k = d.byte k := by
  intro t
  obtain ⟨xs, hwrite⟩ := Device.portWrite_of_no_accesses (d := d) (a := ca) hacc l.posted l.op.size (!ownCluster e ca) hit
    (fun d => d.engineStore ca l.op.size l.datum)
  let d' : Device := ({ d with accesses := xs } : Device).writeBytes ca (toBytes l.op.size l.datum.toNat)
  have ht : t = d'.lsuAnswer e l 0 st := by
    rw [show t = _ from hu.lsuMemory_store hk hit st, Device.throughCache_of_xram hx, hwrite, Device.engineStore_of_xram hx hbody]
  obtain ⟨-, hst, -, -⟩ := Device.lsuAnswer_eng (d := d') (l := l) (e := e) hctx 0 st
  obtain ⟨hbytes, -, -, -⟩ := d'.lsuAnswer_reads e l 0 st
  rw [ht]
  refine ⟨hst, fun i hi => (hbytes _).trans ?_, fun k hk => (hbytes _).trans ?_⟩
  · exact Device.byte_writeBytes_self { d with accesses := xs } ca i _ _ hcanon (getElem?_toBytes hi _)
  · exact Device.byte_writeBytes_other { d with accesses := xs } ca k _ (by rwa [length_toBytes])

/-- An atomic on such a word gives what stood there. -/
theorem Device.Unrecorded.lsuMemory_atomic_answers (hk : l.op.kind = .atomic) :
    let t := d.lsuMemory e l ca hit st
    (t.eng e).result .lsuR = { value := d.loadWord ca, readable := true } ∧ (t.eng e).result .lsuSt = { value := st, readable := true } := by
  intro t
  let d' : Device := d.writeBytes ca (toBytes 4 (l.op.combine (d.loadWord ca) l.datum).toNat)
  have ht : t = d'.lsuAnswer e l (d.loadWord ca) st := by
    rw [show t = _ from hu.lsuMemory_atomic hk hit st, Device.throughCache_of_xram hx, Device.engineStore_of_xram hx hbody]
  obtain ⟨hr, hst, -, -⟩ := Device.lsuAnswer_eng (d := d') (l := l) (e := e) hctx (d.loadWord ca) st
  rw [ht]
  exact ⟨hr, hst⟩

end

end

/-- Settles O14: the branches of `Unrecorded.lsuOnMemory` (out of service, cannot be corrected, corrected, met) and of `lsuDevice`, with what
`lsuFail` and `lsuAnswer` leave. -/
theorem otherAccessesComplete : Obligations.OtherAccessesComplete := by
  refine ⟨fun s e p l => ?_, fun s e p b l r => ?_⟩
  · intro d x a fails hhead hpart hmode hopen hlosing hregion hctx hheirs
    obtain ⟨ts, hexec⟩ := exec_lsuComplete_memory hhead hregion
    let d' : Device := { s.dev with targets := ts }
    have hu : d'.Unrecorded e p := ⟨hpart, hmode, hopen, hlosing⟩
    have hecc : ∀ (u : Option Upset) (c : Device), c.engines = d.engines → c.mem = d.mem → c.regs = d.regs →
        d'.lsuOnMemory e l a .none u = (c.eccError a).lsuFail e l 0x0D 0 → fails u 0x0D 0 := by
      intro u c hengines hmem hregs hfail
      have hreg : ∀ r, c.reg r = d.reg r := fun r => by simp [Device.reg, hregs]
      obtain ⟨t, ht, hpending, hr, hst, hfaults, hlsu, hothers, hbytes, hkept, hcount⟩ := exec_lsuComplete_fails (d := c.eccError a) (l := l)
        ((hexec .none u).trans (by rw [← hfail])) hctx hheirs ((c.eccError_engines a).trans hengines) ((c.eccError_mem a).trans hmem)
        fun r hr => (c.eccError_reg a r).trans ((c.bump_other _ _ _ _ hr).trans (hreg r))
      refine ⟨t, ht, hpending, hr, hst, hfaults, hlsu, hothers, hbytes, hkept, ?_⟩
      rw [hcount, Device.eccError_reg, Device.fld_bump _ _ _ _ (by norm_num), hreg]
      rfl
    refine ⟨fun hoff => ?_, fun hoff halone hbad => ?_, fun hoff halone hm => ?_, fun hoff halone hm => ?_,
      fun c hit hoff hm hx hacc hhit hmeet => ?_⟩
    · obtain ⟨t, ht, hpending, hr, hst, hfaults, hlsu, hothers, hbytes, hkept, hcount⟩ := exec_lsuComplete_fails (d := d') (l := l)
        ((hexec .none none).trans (by rw [← hu.lsuOnMemory_of_offline hoff .none])) hctx hheirs rfl rfl fun r _ => rfl
      exact ⟨t, ht, hpending, hr, hst, hfaults, hlsu, hothers, hbytes, hkept, by rw [hcount]; rfl⟩
    · exact hecc none d' rfl rfl rfl (hu.lsuOnMemory_of_uncorrectable hoff halone hbad)
    · have hu' : ({ d' with marks := [(a / 8 * 8, .uncorrectable)] } : Device).Unrecorded e p := hu.congr rfl fun _ _ => rfl
      refine hecc (some .uncorrectable) { d' with marks := [(a / 8 * 8, .uncorrectable)] } rfl rfl rfl ?_
      rw [hu.lsuOnMemory_struck hm]
      exact hu'.lsuOnMemory_of_uncorrectable hoff halone (d'.uncorrectable_of_struck a l.op.size_pos .uncorrectable)
    · exact ⟨_, hexec .none (some .single), hu.lsuOnMemory_corrected hoff halone hm hctx⟩
    · have hport : inXram a = true := by simp [inXram, hx]
      have hmemory : ∀ met, d'.metAs e l a hit = met → exec (.lsuComplete e hit none) s =
          .next { s with dev := d'.lsuMemory e l a met (if met = .later then 2 else 0) } := fun met hmet =>
        (hexec hit none).trans (by rw [← hmet, ← hu.lsuOnMemory_of_sound hoff hm hit])
      have hmet : l.op.kind ≠ .atomic → d'.metAs e l a hit = hit := fun hk => Device.metAs_of_mayMeet hacc hport hk hit hmeet
      refine ⟨fun hk => ?_, fun hk hbody hcanon => ?_, fun hk hbody hcanon => ?_⟩
      · obtain ⟨v, hbytes, hr, hst⟩ := hu.lsuMemory_load_answers (ca := a) hk hctx hit (if hit = .later then 2 else 0)
        exact ⟨_, v, hmemory hit (hmet (by simp [hk])), hbytes, hr, hst⟩
      · exact ⟨_, hmemory hit (hmet (by simp [hk])), hu.lsuMemory_store_answers hx hbody hctx hit _ hk hacc hcanon⟩
      · exact ⟨_, hmemory .none (Device.metAs_of_atomic hk hit), hu.lsuMemory_atomic_answers hx hbody hctx .none _ hk⟩
  · intro d x a hhead hpart hmode hopen hlosing hregion hnamed hctx hwaits
    have hu : d.Unrecorded e p := ⟨hpart, hmode, hopen, hlosing⟩
    have hexec := exec_lsuComplete_device hhead hregion hwaits .none none
    refine ⟨fun hop hl hh => ?_, fun hop hpresent haligned hpermitted => ?_⟩
    · rw [hu.lsuDevice_load (by rw [hop]; rfl) hnamed hl hh] at hexec
      obtain ⟨rs, hread⟩ := d.regRead_eq r
      obtain ⟨hcleared, hkept⟩ := d.regRead_reg r
      have heng : ∀ k, (d.regRead r).2.eng k = d.eng k := fun k => by rw [hread]; rfl
      obtain ⟨hr, hst, hlsu, -⟩ := Device.lsuAnswer_eng (d := (d.regRead r).2) (l := l) (hctx.trans (by rw [heng])) (d.regValue r) 0
      refine ⟨_, hexec, rfl, hr, hst, by rw [hlsu, heng], hcleared, hkept, fun k => ?_, fun k hk => ?_⟩
      · show Cells.read physBlank (d.regRead r).2.mem k = _
        rw [hread]
        rfl
      · exact (Device.onEng_other _ _ _ _ hk).trans (heng k)
    · have hstands : r.StandsAt s.dev.grade b a := ⟨hregion, hnamed, haligned, hpresent⟩
      have hstore : d.regStore { ring := l.ring, part := some p } a l.datum = d.regWrite { ring := l.ring, part := some p } r l.datum := by
        simp [Device.regStore, hnamed]
      rw [hu.lsuDevice_store (by rw [hop]; rfl), hstore] at hexec
      have hregister := exec_registerWrite_permitted { ring := l.ring, part := some p } l.datum hstands hpermitted
      exact ⟨_, _, hexec, hregister, rfl, Device.lsuAnswer_engines .., fun k hk => Device.onEng_other _ _ _ _ hk⟩

end Sys2Proof.Machine
end

section
/-! SUPPORT and proofs: the reset state, and requests for a mode; O60 and O33. -/

namespace Sys2Proof.Machine

/-- Settles O60: the reset state is the default of every field. -/
theorem resetIsCanonicalAndIdle : Obligations.ResetIsCanonicalAndIdle :=
  ⟨rfl, rfl, rfl, rfl, fun _ => ⟨rfl, rfl⟩, fun _ => ⟨rfl, rfl, rfl, rfl, fun _ => rfl⟩, fun _ => rfl, fun _ => ⟨rfl, rfl⟩, rfl, rfl⟩

/-- A command whose effect on the block is known leads to the state with that block. -/
theorem exec_of_dev {i : Instr} {s : State} {f : Device → Device} (hi : exec i s = .next (s.onDev f)) {d : Device} (h : f s.dev = d) :
    exec i s = .next { s with dev := d } := by
  rw [hi, ← h]; rfl

theorem exec_leads {i : Instr} {s : State} {f : Device → Device} (hi : exec i s = .next (s.onDev f)) {d : Device} (h : f s.dev = d)
    {P : State → Prop} (hP : P { s with dev := d }) : ∃ t, exec i s = .next t ∧ P t :=
  ⟨_, exec_of_dev hi h, hP⟩

/-! ### Requests for a mode (R28, R34, R35) -/

section
variable {s : State} {p : Nat} {req : BitVec 3}

/-- A request that changes its partition alone. -/
theorem exec_modeRequest_onPart (f : Part → Part) (h : s.dev.modeRequest p req = s.dev.onPart p f) :
    ∃ t, exec (.modeRequest p req) s = .next t ∧ OnlyPart s t p ∧ t.dev.part p = f (s.dev.part p) := by
  refine exec_leads rfl h ?_
  exact ⟨⟨rfl, rfl, fun k hk => Device.onPart_other s.dev p f k hk⟩, Device.onPart_self s.dev p f⟩

/-- PAR.MODE.REASON takes a value. -/
def Part.withReason (why : Nat) (x : Part) : Part := { x with reason := why }

/-- A request for a mode stands as pending; one before it leaves its reason (R34). -/
def Part.withPending (m : Mode) (x : Part) : Part := { x with pending := some m, reason := if x.pending.isSome then 9 else x.reason }

/-- A partition that is not valid takes no request, and REQ values 0, 6 and 7 are none. -/
theorem Device.modeRequest_of_ignored {d : Device} (h : d.valid p = false ∨ req = 0 ∨ req = 6 ∨ req = 7) : d.modeRequest p req = d := by
  obtain h | rfl | rfl | rfl := h
  · simp [Device.modeRequest, h]
  all_goals simp [Device.modeRequest]

section
variable {d : Device} (hvalid : d.valid p = true) (hreq : req ∈ [1#3, 2#3, 3#3, 4#3, 5#3])
include hvalid hreq

/-- A valid partition judges the REQ values that name a mode or Cocoon (R34, R35). -/
theorem Device.modeRequest_of_valid :
    d.modeRequest p req =
      if d.heldNow p then d.onPart p (Part.withReason 0xA)
      else match reqMode req.toNat with
        | none => d.onPart p (Part.withReason 1)
        | some m =>
          if !transitionAllowed (d.modeNow p) m then d.onPart p (Part.withReason 1)
          else if d.modeNow p = .decant then d.leaveDecant p
          else d.onPart p (Part.withPending m) := by
  simp only [List.mem_cons, List.not_mem_nil, or_false] at hreq
  unfold Device.modeRequest
  rw [hvalid]
  obtain rfl | rfl | rfl | rfl | rfl := hreq <;> rfl

theorem Device.modeRequest_of_held (h : d.heldNow p = true) : d.modeRequest p req = d.onPart p (Part.withReason 0xA) := by
  rw [d.modeRequest_of_valid hvalid hreq, if_pos h]

theorem Device.modeRequest_of_no_mode (h : d.heldNow p = false) (hm : reqMode req.toNat = none) :
    d.modeRequest p req = d.onPart p (Part.withReason 1) := by
  rw [d.modeRequest_of_valid hvalid hreq]
  simp [h, hm]

theorem Device.modeRequest_of_barred (h : d.heldNow p = false) {m : Mode} (hm : reqMode req.toNat = some m)
    (hbar : transitionAllowed (d.modeNow p) m = false) : d.modeRequest p req = d.onPart p (Part.withReason 1) := by
  rw [d.modeRequest_of_valid hvalid hreq]
  simp [h, hm, hbar]

theorem Device.modeRequest_of_allowed (h : d.heldNow p = false) {m : Mode} (hm : reqMode req.toNat = some m)
    (hgo : transitionAllowed (d.modeNow p) m = true) (hrun : d.modeNow p ≠ .decant) :
    d.modeRequest p req = d.onPart p (Part.withPending m) := by
  rw [d.modeRequest_of_valid hvalid hreq]
  simp [h, hm, hgo, hrun]

end
end

/-- The transitions of R28, a Decant's end apart. -/
def requestable : List (Mode × Mode) :=
  [(.free, .paced), (.paced, .free), (.free, .recovery), (.paced, .recovery), (.recovery, .free), (.recovery, .paced), (.recovery, .decant)]

theorem transitionAllowed_iff (a b : Mode) : transitionAllowed a b = true ↔ (a, b) ∈ requestable ∨ (a, b) = (.decant, .recovery) := by
  cases a <;> cases b <;> decide

theorem ne_decant_of_requestable {a b : Mode} (h : (a, b) ∈ requestable) : a ≠ .decant := by
  rintro rfl
  cases b <;> revert h <;> decide

/-- The REQ values and the modes that they ask for (R409). -/
theorem reqMode_of_wanted {req : BitVec 3} {m : Mode} (h : (req, m) ∈ [(1#3, Mode.free), (2#3, .paced), (3#3, .decant), (4#3, .recovery)]) :
    req ∈ [1#3, 2#3, 3#3, 4#3, 5#3] ∧ reqMode req.toNat = some m := by
  simp only [List.mem_cons, List.not_mem_nil, or_false, Prod.mk.injEq] at h
  obtain ⟨rfl, rfl⟩ | ⟨rfl, rfl⟩ | ⟨rfl, rfl⟩ | ⟨rfl, rfl⟩ := h <;> decide

/-- Settles O33, by the cases of MODE_REQUEST: held, no mode, not allowed, allowed. -/
theorem modeRequestPendsOrIsRefused : Obligations.ModeRequestPendsOrIsRefused := by
  intro s p req d x now wanted allowed
  refine ⟨fun hignored => exec_of_dev rfl (Device.modeRequest_of_ignored hignored), fun hvalid hreq hheld => ?_,
    fun hvalid hreleased huncovered => ?_⟩
  · have hnow : d.heldNow p = true := by simpa [Device.heldNow] using hheld
    exact exec_modeRequest_onPart (Part.withReason 0xA) (Device.modeRequest_of_held hvalid hreq hnow)
  · have hnow : d.heldNow p = false := by simp [Device.heldNow, hreleased, huncovered]
    refine ⟨fun m hm hallowed => ?_, fun m hm hbar hdecant => ?_, ?_⟩
    · obtain ⟨hreq, hmode⟩ := reqMode_of_wanted hm
      exact exec_modeRequest_onPart (Part.withPending m) (Device.modeRequest_of_allowed hvalid hreq hnow hmode
        ((transitionAllowed_iff _ _).mpr (.inl hallowed)) (ne_decant_of_requestable hallowed))
    · obtain ⟨hreq, hmode⟩ := reqMode_of_wanted hm
      have hstop : transitionAllowed (d.modeNow p) m = false :=
        Bool.eq_false_iff.mpr fun h => ((transitionAllowed_iff _ _).mp h).elim hbar hdecant
      exact exec_modeRequest_onPart (Part.withReason 1) (Device.modeRequest_of_barred hvalid hreq hnow hmode hstop)
    · rintro rfl
      exact exec_modeRequest_onPart (Part.withReason 1) (Device.modeRequest_of_no_mode hvalid (by decide) hnow rfl)

end Sys2Proof.Machine
end

section
/-! SUPPORT. Who owns what depends on the registers of the ownership tables alone, and what decides a hold on little more. -/

namespace Sys2Proof.Machine

/-! ### The ownership tables (R23, R396) -/

/-- The registers that name a partition's units, pages and start mode. -/
def Reg.isTable : Reg → Bool
  | .parOwn _ | .parCll _ | .parClh _ | .parFll _ | .parFlh _ | .parDrb _ _ | .parDrl _ _ | .parStart _ => true
  | _ => false

/-- The ownership tables of two blocks agree. -/
def Device.SameTables (d d' : Device) : Prop := ∀ r : Reg, r.isTable = true → d'.reg r = d.reg r

/-- A register outside the tables. -/
theorem Device.SameTables.of_setReg (d : Device) {r : Reg} (hr : r.isTable = false) (w : Word) : d.SameTables (d.setReg r w) :=
  fun q hq => Device.setReg_other d r q w (by rintro rfl; simp [hq] at hr)

section
variable {d d' : Device} (h : d.SameTables d')
include h

theorem Device.SameTables.valid (p : Nat) : d'.valid p = d.valid p := by simp only [Device.valid, h (.parOwn p) rfl]

theorem Device.SameTables.ownsCluster (p c : Nat) : d'.ownsCluster p c = d.ownsCluster p c := by
  simp only [Device.ownsCluster, h.valid, h (.parCll p) rfl, h (.parClh p) rfl]

theorem Device.SameTables.clusterOwner (c : Nat) : d'.clusterOwner c = d.clusterOwner c := by
  simp only [Device.clusterOwner, h.ownsCluster]

theorem Device.SameTables.engPart (e : Nat) : d'.engPart e = d.engPart e := h.clusterOwner (e / 16)

theorem Device.SameTables.laneOwner (n : Nat) : d'.laneOwner n = d.laneOwner n := by
  simp only [Device.laneOwner, h.valid, h (.parFll _) rfl, h (.parFlh _) rfl]

theorem Device.SameTables.hostOwner : d'.hostOwner = d.hostOwner := by
  simp only [Device.hostOwner, h.valid, h (.parOwn _) rfl]

theorem Device.SameTables.ownsPage (p g : Nat) : d'.ownsPage p g = d.ownsPage p g := by
  simp only [Device.ownsPage, h.valid, h (.parDrl _ _) rfl, h (.parDrb _ _) rfl]

end

/-- What of a partition decides its hold and its start mode (R24, R33, R487). -/
def Part.holds (x : Part) : Mode × Bool × Nat × Bool × Bool × Bool × Bool :=
  (x.mode, x.escalated, x.widest, x.inCocoon, x.fence, x.heldCluster, x.heldStack)

/-! ### What decides a hold (R24, R33, R478, R487) -/

/-- What starts and ends of runs, and the recorder, leave of a block: its tables, its memories, its image, the asserted reset sources and how far the
module has come up. -/
structure Device.Agrees (d d' : Device) : Prop where
  tables : d.SameTables d'
  grade : d'.grade = d.grade
  phase : d'.phase = d.phase
  mem : d'.mem = d.mem
  unfilled : d'.unfilled = d.unfilled
  sources : d'.sources = d.sources
  image : d'.image = d.image
  stage : d'.stage = d.stage
  domains : d'.domains = d.domains
  ejectStopped : d'.ejectStopped = d.ejectStopped

theorem Device.Agrees.refl (d : Device) : d.Agrees d := ⟨fun _ _ => rfl, rfl, rfl, rfl, rfl, rfl, rfl, rfl, rfl, rfl⟩

theorem Device.Agrees.trans {a b c : Device} (h : a.Agrees b) (h' : b.Agrees c) : a.Agrees c :=
  ⟨fun r hr => (h'.tables r hr).trans (h.tables r hr), h'.grade.trans h.grade, h'.phase.trans h.phase, h'.mem.trans h.mem,
    h'.unfilled.trans h.unfilled, h'.sources.trans h.sources, h'.image.trans h.image, h'.stage.trans h.stage, h'.domains.trans h.domains,
    h'.ejectStopped.trans h.ejectStopped⟩

theorem Device.Agrees.foldDev {α : Type} {f : Device → α → Device} (hf : ∀ (d : Device) x, d.Agrees (f d x)) (d : Device) (xs : List α) :
    d.Agrees (foldDev f d xs) := by
  induction xs generalizing d with
  | nil => exact .refl d
  | cons x xs ih => exact (hf d x).trans (ih (f d x))

/-- Storing a register outside the tables. -/
theorem Device.Agrees.setReg (d : Device) {r : Reg} (hr : r.isTable = false) (w : Word) : d.Agrees (d.setReg r w) :=
  ⟨.of_setReg d hr w, rfl, rfl, rfl, rfl, rfl, rfl, rfl, rfl, rfl⟩

theorem Device.Agrees.onPart (d : Device) (p : Nat) (f : Part → Part) : d.Agrees (d.onPart p f) :=
  ⟨fun _ _ => rfl, rfl, rfl, rfl, rfl, rfl, rfl, rfl, rfl, rfl⟩

theorem Device.Agrees.onLane (d : Device) (n : Nat) (f : Lane → Lane) : d.Agrees (d.onLane n f) :=
  ⟨fun _ _ => rfl, rfl, rfl, rfl, rfl, rfl, rfl, rfl, rfl, rfl⟩

theorem Device.Agrees.raise (d : Device) (n : Nat) : d.Agrees (d.raise n) := by
  obtain ⟨rs, hs, h⟩ := d.raise_eq n
  rw [h]
  exact ⟨fun _ _ => rfl, rfl, rfl, rfl, rfl, rfl, rfl, rfl, rfl, rfl⟩

section
variable {d d' : Device} (h : d.Agrees d')
include h

theorem Device.Agrees.partEngines (p : Nat) : d'.partEngines p = d.partEngines p := by
  simp only [Device.partEngines, h.tables.ownsCluster, h.grade]

theorem Device.Agrees.partLanes (p : Nat) : d'.partLanes p = d.partLanes p := by
  simp only [Device.partLanes, h.tables.laneOwner, h.grade]

theorem Device.Agrees.partCovered (p : Nat) : d'.partCovered p = d.partCovered p := by
  simp only [Device.partCovered, h.sources, h.tables.ownsCluster, h.tables.engPart]

theorem Device.Agrees.entry (p : Nat) (m : Mode) : d'.entry p m = d.entry p m := by
  simp only [Device.entry, h.image]

theorem Device.Agrees.startState : d'.startState = d.startState := by
  simp only [Device.startState, h.ejectStopped]

section
variable {p : Nat} (hpart : (d'.part p).holds = (d.part p).holds) (hs : d'.pace.s = d.pace.s)
include hpart hs

theorem Device.Agrees.releaseMode : d'.releaseMode p = d.releaseMode p := by
  simp only [Part.holds, Prod.mk.injEq] at hpart
  obtain ⟨-, hescalated, hwidest, -⟩ := hpart
  unfold Device.releaseMode Device.paceLoss
  dsimp only
  rw [hescalated, hwidest, h.tables (.parStart p) rfl, hs]

theorem Device.Agrees.fillPending : d'.fillPending p = d.fillPending p := by
  simp only [Device.fillPending, h.releaseMode hpart hs, h.unfilled, h.tables.ownsPage]

theorem Device.Agrees.mayRelease : d'.mayRelease p = d.mayRelease p := by
  have hfill := h.fillPending hpart hs
  simp only [Part.holds, Prod.mk.injEq] at hpart
  obtain ⟨hmode, -, -, hcocoon, hfence, hcluster, hstack⟩ := hpart
  simp only [Device.mayRelease, hcocoon, hfence, hcluster, hstack, Device.released, hmode, h.tables.valid, h.phase, h.stage, h.partCovered, hfill]

end
end

end Sys2Proof.Machine
end

section
/-! SUPPORT and proofs: engines that start, and the release of reset sources; O48. -/

namespace Sys2Proof.Machine

/-! ### An engine starts (R160) -/

section
variable (d : Device) (e : Nat) (a : Word) (guarded : Bool)

/-- An engine that starts stands at its address in ring 0 at L0, with nothing fetched; it runs unless an ejection has stopped the engines. -/
theorem Device.startEngine_self :
    ((d.startEngine e a guarded).eng e).run = d.startState ∧ ((d.startEngine e a guarded).eng e).pc = a ∧
    ((d.startEngine e a guarded).eng e).st = { grd := guarded } ∧ ((d.startEngine e a guarded).eng e).step = 0 ∧
    ((d.startEngine e a guarded).eng e).lines = [] := by
  have heng : ∀ (d : Device) (x : Assoc Nat Nat), ({ d.dropFetches e with enginesReset := x } : Device).eng e = d.eng e := fun _ _ => rfl
  simp [Device.startEngine, Device.transfer, heng]

theorem Device.startEngine_other {k : Nat} (h : k ≠ e) : (d.startEngine e a guarded).eng k = d.eng k := by
  have heng : ∀ (d : Device) (x : Assoc Nat Nat), ({ d.dropFetches e with enginesReset := x } : Device).eng k = d.eng k := fun _ _ => rfl
  simp only [Device.startEngine, Device.transfer, Device.setEng_other _ _ _ _ h, heng, Device.onEng_other _ _ _ _ h]

/-- What a start leaves; it changes engines, drops requests at targets and ends the engine's wait for a restart. -/
@[simp] theorem Device.startEngine_keeps :
    (d.startEngine e a guarded).grade = d.grade ∧ (d.startEngine e a guarded).phase = d.phase ∧ (d.startEngine e a guarded).pace = d.pace ∧
    (d.startEngine e a guarded).regs = d.regs ∧ (d.startEngine e a guarded).mem = d.mem ∧ (d.startEngine e a guarded).unfilled = d.unfilled ∧
    (d.startEngine e a guarded).points = d.points ∧ (d.startEngine e a guarded).staleRanges = d.staleRanges ∧
    (d.startEngine e a guarded).lanes = d.lanes ∧ (d.startEngine e a guarded).host = d.host ∧ (d.startEngine e a guarded).parts = d.parts ∧
    (d.startEngine e a guarded).sources = d.sources ∧ (d.startEngine e a guarded).image = d.image ∧
    (d.startEngine e a guarded).stage = d.stage ∧ (d.startEngine e a guarded).domains = d.domains ∧
    (d.startEngine e a guarded).ejectStopped = d.ejectStopped := by
  simp [Device.startEngine, Device.transfer, Device.dropFetches]

@[simp] theorem Device.startEngine_enginesReset : (d.startEngine e a guarded).enginesReset = Assoc.erase d.enginesReset e := rfl

end

/-! ### A reset source is released (R483, R486, R487) -/

section
variable {d : Device} {k : Nat} {x : Source} (f : List (Nat × Nat)) (hx : d.sources[k]? = some x)
include hx

/-- A source whose condition stands, or whose partition is fenced, stays. -/
theorem Device.resetRelease_of_standing (h : x.cond = true ∨ (x.reach = 3 ∧ (d.part x.target).fence = true)) : d.resetRelease k f = d := by
  have hstay : (x.cond || (decide (x.reach = 3) && (d.part x.target).fence)) = true := by simpa using h
  simp [Device.resetRelease, hx, hstay]

/-- A source of less than Core reach leaves the list; where no wider source stands, what it covered restarts. -/
theorem Device.resetRelease_of_narrow (hcond : x.cond = false) (hreach : x.reach < 4) (hfence : x.reach = 3 → (d.part x.target).fence = false)
    (hcause : x.cause ≠ 18) :
    d.resetRelease k f =
      let d' : Device := { d with sources := d.sources.eraseIdx k }
      if d'.wideHeld then d' else (d'.refill x).restartFree.tryConfigure := by
  have hgo : (x.cond || (decide (x.reach = 3) && (d.part x.target).fence)) = false := by simpa [hcond] using hfence
  simp [Device.resetRelease, hx, hgo, hreach.not_ge, hcause]

end

/-- An engine of a released partition gets no fills. -/
theorem Device.refill_of_released {d : Device} {x : Source} {p : Nat} (hreach : x.reach = 1) (hpart : d.engPart x.target = some p)
    (hreleased : d.released p = true) : d.refill x = d := by
  have howner : d.clusterOwner (x.target / 16) = some p := hpart
  simp [Device.refill, hreach, howner, hreleased]

/-- The one engine that waits for a restart starts, where no source is left and its partition runs in Free mode or Recovery; a Free partition then wants a
vintage (R483, R357). -/
theorem Device.restartFree_of_single {d : Device} {e n p : Nat} (hreset : d.enginesReset = [(e, n)]) (hpart : d.engPart e = some p)
    (hmode : (d.part p).mode = .free ∨ (d.part p).mode = .recovery) (hchange : (d.part p).changing = none)
    (hscrub : (d.part p).scrubbing = false) (hprobe : bit (d.reg .tmxStat) (16 + p) = false) (hphase : d.phase = .running)
    (hsources : d.sources = []) :
    d.restartFree = d.startEngine e (d.entry p (d.part p).mode) true ∨
      d.restartFree = (d.startEngine e (d.entry p (d.part p).mode) true).wantVintage p := by
  have hgo : (d.released p && !d.pacedPart p && !d.engineCovered e && (d.part p).changing.isNone && !(d.part p).scrubbing &&
      !bit (d.reg .tmxStat) (16 + p)) = true := by
    have hcovered : d.engineCovered e = false := by simp [Device.engineCovered, hsources]
    obtain h | h := hmode <;> simp [Device.released, Device.pacedPart, h, hcovered, hchange, hscrub, hprobe]
  have hpart' : ((d.startEngine e (d.entry p (d.part p).mode) true).part p).mode = (d.part p).mode := rfl
  have hrun : d.restartFree =
      match (d.part p).mode with
      | .free => (d.startEngine e (d.entry p (d.part p).mode) true).wantVintage p
      | _ => d.startEngine e (d.entry p (d.part p).mode) true := by
    simp only [Device.restartFree, hphase, hreset, foldDev, hpart, hgo, hpart']
    rfl
  obtain h | h := hmode
  · exact .inr (by rw [hrun, h])
  · exact .inl (by rw [hrun, h])

/-- The release of an engine's only source, a software reset's, restarts the engine where its partition is released. -/
theorem Device.resetRelease_of_only {d : Device} {e p : Nat} (f : List (Nat × Nat))
    (hsources : d.sources = [{ cause := 7, reach := 1, target := e, cond := false }]) (hpart : d.engPart e = some p)
    (hreleased : d.released p = true) : d.resetRelease 0 f = ({ d with sources := [] } : Device).restartFree.tryConfigure := by
  have hx : d.sources[0]? = some { cause := 7, reach := 1, target := e, cond := false } := by rw [hsources]; rfl
  have hleft : d.sources.eraseIdx 0 = [] := by rw [hsources]; rfl
  have hpart' : ({ d with sources := [] } : Device).engPart e = some p := hpart
  have hreleased' : ({ d with sources := [] } : Device).released p = true := hreleased
  have hnarrow : ({ d with sources := [] } : Device).wideHeld = false := rfl
  rw [Device.resetRelease_of_narrow f hx rfl (Nat.lt_of_sub_eq_succ rfl) (fun h => absurd h (by simp)) (by simp), hleft]
  generalize ({ d with sources := [] } : Device) = d' at hpart' hreleased' hnarrow
  dsimp only
  rw [if_neg (by simp [hnarrow]), Device.refill_of_released rfl hpart' hreleased']

/-- Settles O48: a source that stands, one below a wider source, and the only source of an engine. -/
theorem releasedSourcesRestart : Obligations.ReleasedSourcesRestart := by
  intro s k e p x f d m
  refine ⟨fun hx hstands => exec_of_dev rfl (Device.resetRelease_of_standing f hx hstands),
    fun hx hcond hreach hfence hwide hcause => ?_, fun hsources hreset hpart hmode hchange hscrub hprobe hphase heject => ?_⟩
  · have hheld : ({ d with sources := d.sources.eraseIdx k } : Device).wideHeld = true := by
      simpa [Device.wideHeld] using hwide
    refine exec_leads rfl ((Device.resetRelease_of_narrow f hx hcond hreach hfence hcause).trans (if_pos hheld)) ?_
    exact ⟨rfl, rfl⟩
  · have hreleased : d.released p = true := by
      have hm : m ≠ .held := by obtain h | h := hmode <;> rw [h] <;> decide
      simpa [Device.released] using hm
    let d' : Device := { d with sources := [] }
    let started := d'.startEngine e (d'.entry p m) true
    have hrestart : d'.restartFree = started ∨ d'.restartFree = started.wantVintage p :=
      Device.restartFree_of_single (d := d') hreset hpart hmode hchange hscrub hprobe hphase rfl
    have hkept : ∀ {β : Type} (π : Device → β), (∀ d : Device, π (d.wantVintage p) = π d) → π d'.restartFree = π started := fun π hπ => by
      obtain h | h := hrestart
      · rw [h]
      · rw [h, hπ]
    have heng : ∀ j, d'.restartFree.eng j = started.eng j := fun j => hkept (fun d => d.eng j) fun _ => rfl
    have hphase' : d'.restartFree.phase = .running := by
      rw [hkept Device.phase fun _ => rfl]
      simpa [started, d'] using hphase
    have hsources' : d'.restartFree.sources = [] := by
      rw [hkept Device.sources fun _ => rfl]
      simp [started, d']
    have herase : d'.restartFree.enginesReset = [] := by
      rw [hkept Device.enginesReset fun _ => rfl]
      simp [started, d', hreset, Assoc.erase]
    have hmem : d'.restartFree.mem = d.mem := by
      rw [hkept Device.mem fun _ => rfl]
      simp [started, d']
    have hregs : d'.restartFree.regs = d.regs := by
      rw [hkept Device.regs fun _ => rfl]
      simp [started, d']
    have hdev : d.resetRelease 0 f = d'.restartFree := by
      rw [Device.resetRelease_of_only f hsources hpart hreleased]
      simp [Device.tryConfigure, d', hphase']
    obtain ⟨hrun, hpc, hst, -, -⟩ := Device.startEngine_self d' e (d'.entry p m) true
    have hstate : d'.startState = .running := by simp [Device.startState, d', heject]
    refine exec_leads rfl hdev ?_
    refine ⟨rfl, hsources', herase, ?_, ?_, ?_, fun j hj => (heng j).trans (Device.startEngine_other d' e _ true hj), hmem, hregs⟩
    · rw [heng, hrun, hstate]
    · rw [heng]
      exact hpc
    · rw [heng]
      exact hst

end Sys2Proof.Machine
end

section
/-! SUPPORT. The release of a partition (R32, R213, R301, R421, R445), stage by stage: what each stage changes and what it leaves. -/

namespace Sys2Proof.Machine

/-- A fold whose steps each set the same components sets those components. -/
theorem foldDev_exists {α β : Type} {set : Device → β → Device} (hset : ∀ d b c, set (set d b) c = set d c) (hself : ∀ d, ∃ b, d = set d b)
    {f : Device → α → Device} (hf : ∀ d x, ∃ b, f d x = set d b) (d : Device) (xs : List α) : ∃ b, foldDev f d xs = set d b := by
  induction xs generalizing d with
  | nil => exact hself d
  | cons x xs ih =>
    obtain ⟨b, hb⟩ := hf d x
    obtain ⟨c, hc⟩ := ih (f d x)
    exact ⟨c, by rw [foldDev, hc, hb, hset]⟩

/-- What holds of every listed value and its image, and of the defaults, holds of the values that a list and its image give. -/
theorem Assoc.get_map_rel {κ α β : Type} [DecidableEq κ] {R : α → β → Prop} {f : κ × α → κ × β} {a : α} {b : β} (k : κ)
    (hkey : ∀ x, (f x).1 = x.1) (hval : ∀ x, x.1 = k → R x.2 (f x).2) (hdflt : R a b) (xs : Assoc κ α) :
    R (Assoc.get a xs k) (Assoc.get b (xs.map f) k) := by
  induction xs with
  | nil => exact hdflt
  | cons x xs ih =>
    have hfx : f x = (x.1, (f x).2) := by rw [← hkey x]
    rw [List.map_cons, hfx]
    by_cases h : x.1 = k
    · simpa [Assoc.get, h] using hval x h
    · simpa [Assoc.get, h] using ih

/-! ### Probes, raises and the DRAM cache -/

/-- Dropped probe selections change registers alone. -/
theorem Device.dropProbes_eq (d : Device) (p : Nat) : ∃ rs, d.dropProbes p = { d with regs := rs } :=
  foldDev_exists (set := fun d rs => { d with regs := rs }) (fun _ _ _ => rfl) (fun d => ⟨d.regs, rfl⟩)
    (fun d k => by dsimp only; split_ifs <;> exact ⟨_, rfl⟩) d _

/-- The registers of the probes. -/
def Reg.isProbe : Reg → Bool
  | .tmxSel _ | .tmxStat => true
  | _ => false

theorem Device.dropProbes_reg (d : Device) (p : Nat) {r : Reg} (hr : r.isProbe = false) : (d.dropProbes p).reg r = d.reg r := by
  refine foldDev_keeps (fun d => d.reg r) _ (fun d k => ?_) d _
  dsimp only
  split_ifs
  · rw [Device.setRegBit_other _ _ _ _ _ (by rintro rfl; simp [Reg.isProbe] at hr),
      Device.setRegBit_other _ _ _ _ _ (by rintro rfl; simp [Reg.isProbe] at hr)]
  · rfl

@[simp] theorem Device.dropProbes_keeps (d : Device) (p : Nat) :
    (d.dropProbes p).pace = d.pace ∧ (∀ e, (d.dropProbes p).eng e = d.eng e) ∧ (d.dropProbes p).enginesReset = d.enginesReset ∧
    (d.dropProbes p).points = d.points ∧ (∀ k, (d.dropProbes p).point k = d.point k) ∧ (d.dropProbes p).host = d.host ∧
    (∀ q, (d.dropProbes p).part q = d.part q) ∧ (d.dropProbes p).parts = d.parts := by
  obtain ⟨rs, h⟩ := d.dropProbes_eq p
  rw [h]
  exact ⟨rfl, fun _ => rfl, rfl, rfl, fun _ => rfl, rfl, fun _ => rfl, rfl⟩

theorem Device.Agrees.dropProbes (d : Device) (p : Nat) : d.Agrees (d.dropProbes p) := by
  have htables : d.SameTables (d.dropProbes p) := fun r hr => d.dropProbes_reg p (by cases r <;> simp_all [Reg.isTable, Reg.isProbe])
  obtain ⟨rs, h⟩ := d.dropProbes_eq p
  rw [h] at htables ⊢
  exact ⟨htables, rfl, rfl, rfl, rfl, rfl, rfl, rfl, rfl, rfl⟩

/-- The held sources of a partition that raise change the raises alone. -/
theorem Device.fireHeld_eq (d : Device) (p : Nat) : ∃ x : _ × _, d.fireHeld p = { d with raises := x.1, heldRaises := x.2 } := by
  obtain ⟨x, hx⟩ := foldDev_exists (set := fun d (x : _ × _) => { d with raises := x.1, heldRaises := x.2 }) (fun _ _ _ => rfl)
    (fun d => ⟨(d.raises, d.heldRaises), rfl⟩) (fun d n => (d.raise_eq n).elim fun rs h => h.elim fun hs h => ⟨(rs, hs), h⟩)
    { d with heldRaises := d.heldRaises.filter (fun n => decide (d.sourceOwner n ≠ some p)) }
    (d.heldRaises.filter (fun n => decide (d.sourceOwner n = some p)))
  exact ⟨x, hx⟩

@[simp] theorem Device.fireHeld_keeps (d : Device) (p : Nat) :
    (d.fireHeld p).pace = d.pace ∧ (∀ r, (d.fireHeld p).reg r = d.reg r) ∧ (∀ e, (d.fireHeld p).eng e = d.eng e) ∧
    (d.fireHeld p).enginesReset = d.enginesReset ∧ (d.fireHeld p).points = d.points ∧ (∀ k, (d.fireHeld p).point k = d.point k) ∧
    (d.fireHeld p).host = d.host ∧ (∀ q, (d.fireHeld p).part q = d.part q) := by
  obtain ⟨x, h⟩ := d.fireHeld_eq p
  rw [h]
  exact ⟨rfl, fun _ => rfl, fun _ => rfl, rfl, rfl, fun _ => rfl, rfl, fun _ => rfl⟩

theorem Device.Agrees.fireHeld (d : Device) (p : Nat) : d.Agrees (d.fireHeld p) := by
  obtain ⟨x, h⟩ := d.fireHeld_eq p
  rw [h]
  exact ⟨fun _ _ => rfl, rfl, rfl, rfl, rfl, rfl, rfl, rfl, rfl, rfl⟩

/-! ### Entering a mode (R26, R176, R239) -/

/-- A partition without an open vintage closes none. -/
theorem Device.closeVintage_of_closed {d : Device} {p : Nat} (h : (d.part p).recorder.open_ = none) (reason : Nat) :
    d.closeVintage p reason = d := by
  simp [Device.closeVintage, h]

/-- A point that differs from another in its quality at most. -/
def Point.UpToQuality (x y : Point) : Prop := y = { x with squal := y.squal }

theorem Point.UpToQuality.trans {x y z : Point} (h : x.UpToQuality y) (h' : y.UpToQuality z) : x.UpToQuality z := by
  unfold Point.UpToQuality at *
  rw [h', h]

/-- Marking a range stale changes the quality of its points alone (R239). -/
theorem Device.point_markStale (d : Device) (lo hi k : Nat) : (d.point k).UpToQuality ((d.markStale lo hi).point k) := by
  refine Assoc.get_map_rel (R := Point.UpToQuality) k (fun x => ?_) (fun x _ => ?_) ?_ d.points
  · split_ifs <;> rfl
  · split_ifs <;> rfl
  · rfl

/-- Marked exports change points alone. -/
theorem Device.markExportsStale_eq (d : Device) (p : Nat) :
    ∃ x : _ × _, d.markExportsStale p = { d with points := x.1, staleRanges := x.2 } :=
  foldDev_exists (set := fun d (x : _ × _) => { d with points := x.1, staleRanges := x.2 }) (fun _ _ _ => rfl)
    (fun d => ⟨(d.points, d.staleRanges), rfl⟩)
    (fun d n => by dsimp only; split_ifs <;> exact ⟨(_, _), rfl⟩) d _

theorem Device.point_markExportsStale (d : Device) (p k : Nat) : (d.point k).UpToQuality ((d.markExportsStale p).point k) := by
  have hfold : ∀ (ns : List Nat) (d : Device), (d.point k).UpToQuality ((foldDev (fun d n =>
      let lo := fld (d.reg (.ptrIxa n)) 0 25
      if bit (d.reg (.ptrIxb n)) 31 && decide ((d.pointRange lo).map (·.2) = some p) then
        d.markStale lo (lo + fld (d.reg (.ptrIxb n)) 0 16)
      else d) d ns).point k) := by
    intro ns
    induction ns with
    | nil => exact fun _ => rfl
    | cons n ns ih =>
      intro d
      refine Point.UpToQuality.trans ?_ (ih _)
      dsimp only
      split_ifs
      · exact d.point_markStale ..
      · rfl
  exact hfold _ d

/-- How a released partition finds its points and the DRAM cache: on its way to Recovery its exports gain STALE (R26, R176, R239). -/
def Device.settleMode (d : Device) (p : Nat) (m : Mode) : Device :=
  match m with | .recovery => d.enterRecovery p | _ => d.leaveCache p m

section
variable {d : Device} {p : Nat} (hclosed : (d.part p).recorder.open_ = none) (m : Mode)
include hclosed

theorem Device.settleMode_eq : ∃ x : _ × _ × _, d.settleMode p m = { d with points := x.1, staleRanges := x.2.1, cache := x.2.2 } := by
  have hself : ∃ x : _ × _ × _, d = { d with points := x.1, staleRanges := x.2.1, cache := x.2.2 } := ⟨(d.points, d.staleRanges, d.cache), rfl⟩
  cases m with
  | recovery =>
    obtain ⟨x, h⟩ := d.markExportsStale_eq p
    exact ⟨(x.1, x.2, d.cache), (congrArg (fun d => d.markExportsStale p) (Device.closeVintage_of_closed hclosed 2)).trans h⟩
  | paced => exact ⟨(d.points, d.staleRanges, _), rfl⟩
  | decant => exact ⟨(d.points, d.staleRanges, _), rfl⟩
  | free => exact hself
  | held => exact hself

theorem Device.settleMode_keeps :
    (d.settleMode p m).pace = d.pace ∧ (∀ r, (d.settleMode p m).reg r = d.reg r) ∧ (∀ e, (d.settleMode p m).eng e = d.eng e) ∧
    (d.settleMode p m).enginesReset = d.enginesReset ∧ (d.settleMode p m).host = d.host ∧ (∀ q, (d.settleMode p m).part q = d.part q) := by
  obtain ⟨x, h⟩ := Device.settleMode_eq hclosed m
  rw [h]
  exact ⟨rfl, fun _ => rfl, fun _ => rfl, rfl, rfl, fun _ => rfl⟩

theorem Device.Agrees.settleMode : d.Agrees (d.settleMode p m) := by
  obtain ⟨x, h⟩ := Device.settleMode_eq hclosed m
  rw [h]
  exact ⟨fun _ _ => rfl, rfl, rfl, rfl, rfl, rfl, rfl, rfl, rfl, rfl⟩

theorem Device.point_settleMode (k : Nat) : (d.point k).UpToQuality ((d.settleMode p m).point k) := by
  cases m with
  | recovery =>
    have h : d.settleMode p .recovery = d.markExportsStale p :=
      congrArg (fun d => d.markExportsStale p) (Device.closeVintage_of_closed hclosed 2)
    rw [h]
    exact d.point_markExportsStale p k
  | _ => rfl

end

theorem Device.points_settleMode (d : Device) (p : Nat) {m : Mode} (hm : m ≠ .recovery) : (d.settleMode p m).points = d.points := by
  cases m with
  | recovery => exact absurd rfl hm
  | _ => rfl

/-! ### The engines of a partition start (R32, R160) -/

/-- Every engine of some list starts at an entry of partition p. -/
def Device.startAll (d : Device) (p : Nat) (m : Mode) (es : List Nat) : Device :=
  foldDev (fun d e => d.startEngine e (d.entry p m) true) d es

section
variable (d : Device) (p : Nat) (m : Mode) (es : List Nat)

theorem Device.Agrees.startEngine (e : Nat) (a : Word) (guarded : Bool) : d.Agrees (d.startEngine e a guarded) := by
  refine ⟨fun r _ => ?_, ?_, ?_, ?_, ?_, ?_, ?_, ?_, ?_, ?_⟩ <;> simp [Device.reg]

theorem Device.Agrees.startAll : d.Agrees (d.startAll p m es) := .foldDev (fun d e => .startEngine d e _ true) d es

@[simp] theorem Device.startAll_keeps :
    (d.startAll p m es).pace = d.pace ∧ (∀ r, (d.startAll p m es).reg r = d.reg r) ∧ (d.startAll p m es).points = d.points ∧
    (∀ k, (d.startAll p m es).point k = d.point k) ∧ (d.startAll p m es).host = d.host ∧ (∀ q, (d.startAll p m es).part q = d.part q) := by
  have hkept := foldDev_keeps (fun d : Device => (d.pace, d.regs, d.points, d.staleRanges, d.host, d.parts))
    (fun d e => d.startEngine e (d.entry p m) true) (fun d e => by simp) d es
  simp only [Prod.mk.injEq] at hkept
  obtain ⟨hpace, hregs, hpoints, hstale, hhost, hparts⟩ := hkept
  exact ⟨hpace, fun r => congrArg (Assoc.get 0 · r) hregs, hpoints, fun k => by simp only [Device.point, Device.startAll, hpoints, hstale],
    hhost, fun q => congrArg (Assoc.get _ · q) hparts⟩

theorem Device.startAll_other {k : Nat} (h : k ∉ es) : (d.startAll p m es).eng k = d.eng k := by
  induction es generalizing d with
  | nil => rfl
  | cons e es ih =>
    simp only [List.mem_cons, not_or] at h
    exact (ih _ h.2).trans (Device.startEngine_other d e _ true h.1)

/-- Each of the engines stands at the entry. -/
theorem Device.startAll_started {e : Nat} (he : e ∈ es) (hgo : d.ejectStopped = false) :
    ((d.startAll p m es).eng e).run = .running ∧ ((d.startAll p m es).eng e).pc = d.entry p m ∧
    ((d.startAll p m es).eng e).st = { grd := true } ∧ ((d.startAll p m es).eng e).step = 0 ∧ ((d.startAll p m es).eng e).lines = [] := by
  induction es generalizing d with
  | nil => simp at he
  | cons x es ih =>
    have hx := Device.Agrees.startEngine d x (d.entry p m) true
    by_cases hin : e ∈ es
    · rw [← hx.entry p m]
      exact ih (d.startEngine x (d.entry p m) true) hin (hx.ejectStopped.trans hgo)
    · obtain rfl : e = x := by simpa [hin] using he
      have hlast : (d.startAll p m (e :: es)).eng e = (d.startEngine e (d.entry p m) true).eng e :=
        Device.startAll_other (d.startEngine e (d.entry p m) true) p m es hin
      have hstate : d.startState = .running := by simp [Device.startState, hgo]
      rw [hlast, ← hstate]
      exact Device.startEngine_self d e (d.entry p m) true

/-- No started engine waits for a restart. -/
theorem Device.startAll_enginesReset {e : Nat} (he : e ∈ es) : ∀ x ∈ (d.startAll p m es).enginesReset, x.1 ≠ e := by
  have hsub : ∀ (es : List Nat) (d : Device), ∀ x ∈ (d.startAll p m es).enginesReset, x ∈ d.enginesReset := by
    intro es
    induction es with
    | nil => exact fun _ _ hx => hx
    | cons e es ih => exact fun d x hx => List.mem_of_mem_filter (ih (d.startEngine e (d.entry p m) true) x hx)
  induction es generalizing d with
  | nil => simp at he
  | cons k es ih =>
    intro x hx
    by_cases hin : e ∈ es
    · exact ih (d.startEngine k (d.entry p m) true) hin x hx
    · obtain rfl : e = k := by simpa [hin] using he
      have hleft := hsub es (d.startEngine e (d.entry p m) true) x hx
      simpa [Assoc.erase] using (List.mem_filter.mp hleft).2

end

end Sys2Proof.Machine
end

section
/-! SUPPORT. What the release of a partition leads to: its mode, its engines, its lanes, the host port, and what it leaves. -/

namespace Sys2Proof.Machine

/-! ### Bits of a word -/

theorem bit_setBit (w : Word) (i j : Nat) (b : Bool) (hi : i < 32) : bit (setBit w i b) j = if j = i then b else bit w j := by
  unfold bit setBit
  by_cases hj : j < 32
  · by_cases hji : j = i
    · subst hji
      cases b <;> simp [hj]
    · have hone : (1#32 <<< i).getLsbD j = false := by simp [BitVec.getLsbD_shiftLeft, BitVec.getLsbD_one]; omega
      cases b
      · simp only [Bool.false_eq_true, if_false, BitVec.getLsbD_and, BitVec.getLsbD_not, hone, hji, hj]
        simp
      · simp only [if_true, BitVec.getLsbD_or, hone, hji, if_false, Bool.or_false]
  · have hge : 32 ≤ j := by omega
    have hne : j ≠ i := by omega
    simp [BitVec.getLsbD_of_ge _ _ hge, hne]

/-! ### The last stages of a release -/

/-- A lane comes alive. -/
def Device.wakeLanes (d : Device) (ns : List Nat) : Device :=
  foldDev (fun d n =>
    (d.setRegBit (.fldLstat n) 1 true).onLane n (fun l => { l with
      waiting := [], lastCycle := [], devflt := [], txCount := [], txSent := [], lastTake := [], lastSend := [], lateAt := [] })) d ns

/-- The host port stops holding BUSY# where its partition is back (R445). -/
def Device.freeHost (d : Device) (p : Nat) : Device :=
  if d.hostOwner = some p then { d with host := { d.host with busyLow := false } } else d

/-- A partition in Free mode or Paced wants a vintage (R357). -/
def Device.wantIn (d : Device) (p : Nat) (m : Mode) : Device :=
  match m with | .free | .paced => d.wantVintage p | _ => d

/-- A partition as its release sets it. -/
def Part.releasedAs (x : Part) (m : Mode) (late : Bool) : Part :=
  { x with
    mode := m, widest := 0, escalated := false, cycleAt := none, inCocoon := false, changing := none, scrubEntry := false
    reason := if late then 4 else x.reason
    forceQueue := (if 4 ≤ x.widest then x.forces else []) ++ x.forceQueue }

section
variable (d : Device) (p : Nat) (m : Mode) (ns : List Nat)

@[simp] theorem Device.wakeLanes_keeps :
    (d.wakeLanes ns).pace = d.pace ∧ (∀ e, (d.wakeLanes ns).eng e = d.eng e) ∧ (d.wakeLanes ns).enginesReset = d.enginesReset ∧
    (d.wakeLanes ns).points = d.points ∧ (∀ k, (d.wakeLanes ns).point k = d.point k) ∧ (d.wakeLanes ns).host = d.host ∧
    (∀ q, (d.wakeLanes ns).part q = d.part q) := by
  obtain ⟨x, h⟩ : ∃ x : _ × _, d.wakeLanes ns = { d with regs := x.1, lanes := x.2 } :=
    foldDev_exists (set := fun d (x : _ × _) => { d with regs := x.1, lanes := x.2 }) (fun _ _ _ => rfl) (fun d => ⟨(d.regs, d.lanes), rfl⟩)
      (fun d n => ⟨(_, _), rfl⟩) d ns
  rw [h]
  exact ⟨rfl, fun _ => rfl, rfl, rfl, fun _ => rfl, rfl, fun _ => rfl⟩

theorem Device.wakeLanes_reg {r : Reg} (hr : ∀ n, r ≠ .fldLstat n) : (d.wakeLanes ns).reg r = d.reg r :=
  foldDev_keeps (fun d => d.reg r) _ (fun d n => (Device.onLane_reads (d.setRegBit (.fldLstat n) 1 true) n _).1 r |>.trans
    (Device.setRegBit_other d _ r 1 true (hr n))) d ns

theorem Device.wakeLanes_alive {n : Nat} (hn : n ∈ ns) : bit ((d.wakeLanes ns).reg (.fldLstat n)) 1 = true := by
  have hset : ∀ (d : Device) (k : Nat), bit (d.reg (.fldLstat n)) 1 = true ∨ n = k →
      bit ((d.setRegBit (.fldLstat k) 1 true).reg (.fldLstat n)) 1 = true := fun d k h => by
    by_cases hk : n = k
    · subst hk
      simp [bit_setBit]
    · rw [Device.setRegBit_other _ _ _ _ _ (by simpa using hk)]
      exact h.resolve_right hk
  have hfold : ∀ (ns : List Nat) (d : Device), bit (d.reg (.fldLstat n)) 1 = true ∨ n ∈ ns → bit ((d.wakeLanes ns).reg (.fldLstat n)) 1 = true := by
    intro ns
    induction ns with
    | nil => exact fun d h => h.resolve_right (by simp)
    | cons k ns ih =>
      intro d h
      refine ih _ ?_
      by_cases hin : n ∈ ns
      · exact .inr hin
      · exact .inl (hset d k (h.imp_right fun h => by simpa [hin] using h))
  exact hfold ns d (.inr hn)

theorem Device.Agrees.wakeLanes : d.Agrees (d.wakeLanes ns) :=
  .foldDev (fun d n => (Device.Agrees.setReg d rfl _).trans (.onLane _ n _)) d ns

@[simp] theorem Device.freshCycle_keeps :
    (d.freshCycle p).pace = d.pace ∧ (∀ r, (d.freshCycle p).reg r = d.reg r) ∧ (∀ e, (d.freshCycle p).eng e = d.eng e) ∧
    (d.freshCycle p).enginesReset = d.enginesReset ∧ (d.freshCycle p).points = d.points ∧ (∀ k, (d.freshCycle p).point k = d.point k) ∧
    (d.freshCycle p).host = d.host :=
  ⟨rfl, fun _ => rfl, fun _ => rfl, rfl, rfl, fun _ => rfl, rfl⟩

theorem Device.Agrees.freshCycle : d.Agrees (d.freshCycle p) := by
  unfold Device.freshCycle
  exact .onPart d p _

@[simp] theorem Device.freeHost_keeps :
    (d.freeHost p).pace = d.pace ∧ (∀ r, (d.freeHost p).reg r = d.reg r) ∧ (∀ e, (d.freeHost p).eng e = d.eng e) ∧
    (d.freeHost p).enginesReset = d.enginesReset ∧ (d.freeHost p).points = d.points ∧ (∀ k, (d.freeHost p).point k = d.point k) ∧
    (∀ q, (d.freeHost p).part q = d.part q) := by
  unfold Device.freeHost
  split_ifs <;> exact ⟨rfl, fun _ => rfl, fun _ => rfl, rfl, rfl, fun _ => rfl, fun _ => rfl⟩

theorem Device.Agrees.freeHost : d.Agrees (d.freeHost p) := by
  unfold Device.freeHost
  split_ifs <;> exact ⟨fun _ _ => rfl, rfl, rfl, rfl, rfl, rfl, rfl, rfl, rfl, rfl⟩

@[simp] theorem Device.wantIn_keeps :
    (d.wantIn p m).pace = d.pace ∧ (∀ r, (d.wantIn p m).reg r = d.reg r) ∧ (∀ e, (d.wantIn p m).eng e = d.eng e) ∧
    (d.wantIn p m).enginesReset = d.enginesReset ∧ (d.wantIn p m).points = d.points ∧ (∀ k, (d.wantIn p m).point k = d.point k) ∧
    (d.wantIn p m).host = d.host := by
  cases m <;> exact ⟨rfl, fun _ => rfl, fun _ => rfl, rfl, rfl, fun _ => rfl, rfl⟩

theorem Device.wantIn_part_self :
    ((d.wantIn p m).part p).mode = (d.part p).mode ∧ ((d.wantIn p m).part p).reason = (d.part p).reason ∧
    ((d.wantIn p m).part p).inCocoon = (d.part p).inCocoon ∧ ((d.wantIn p m).part p).pending = (d.part p).pending ∧
    ((d.wantIn p m).part p).recorder.open_ = (d.part p).recorder.open_ := by
  cases m <;> simp [Device.wantIn, Device.wantVintage, Device.onRec]

theorem Device.Agrees.wantIn : d.Agrees (d.wantIn p m) := by
  cases m
  case free | paced => exact Device.Agrees.onPart d p (fun x => { x with recorder := { x.recorder with wantOpen := true } })
  all_goals exact .refl d

end

/-! ### A release -/

section
variable (d : Device) (p : Nat)

/-- The partition leaves its hold. -/
def Device.leaveHold : Device :=
  ((d.dropProbes p).setRegBit .tmxStat (16 + p) false).onPart p (fun x => x.releasedAs (d.releaseMode p).1 (d.releaseMode p).2)

/-- Its points and the DRAM cache stand as its mode wants them. -/
def Device.leaveSettled : Device := (d.leaveHold p).settleMode p (d.releaseMode p).1

/-- Its engines start. -/
def Device.leaveStarted : Device := (d.leaveSettled p).startAll p (d.releaseMode p).1 ((d.leaveSettled p).partEngines p)

/-- A release is these stages, and then the lanes, the cycle, the host port, the vintage and the held sources. -/
theorem Device.release_eq :
    d.release p = (((((d.leaveStarted p).wakeLanes ((d.leaveStarted p).partLanes p)).freshCycle p).freeHost p).wantIn p
      (d.releaseMode p).1).fireHeld p := rfl

@[simp] theorem Device.leaveHold_keeps :
    (d.leaveHold p).pace = d.pace ∧ (∀ e, (d.leaveHold p).eng e = d.eng e) ∧ (d.leaveHold p).enginesReset = d.enginesReset ∧
    (d.leaveHold p).points = d.points ∧ (∀ k, (d.leaveHold p).point k = d.point k) ∧ (d.leaveHold p).host = d.host := by
  simp [Device.leaveHold]

theorem Device.leaveHold_reg {r : Reg} (hr : r.isProbe = false) : (d.leaveHold p).reg r = d.reg r :=
  (Device.setRegBit_other _ _ _ _ _ (by rintro rfl; simp [Reg.isProbe] at hr)).trans (d.dropProbes_reg p hr)

theorem Device.leaveHold_part_self : (d.leaveHold p).part p = (d.part p).releasedAs (d.releaseMode p).1 (d.releaseMode p).2 := by
  simp [Device.leaveHold]

theorem Device.leaveHold_part_other {q : Nat} (hq : q ≠ p) : (d.leaveHold p).part q = d.part q := by
  simp [Device.leaveHold, Device.onPart_other _ _ _ _ hq]

theorem Device.Agrees.leaveHold : d.Agrees (d.leaveHold p) :=
  ((Device.Agrees.dropProbes d p).trans (.setReg _ rfl _)).trans (.onPart _ p _)

end

section
variable {d : Device} {p : Nat} (hclosed : (d.part p).recorder.open_ = none)
include hclosed

theorem Device.leaveHold_closed : ((d.leaveHold p).part p).recorder.open_ = none := by
  rw [Device.leaveHold_part_self]
  exact hclosed

theorem Device.Agrees.leaveSettled : d.Agrees (d.leaveSettled p) :=
  (Device.Agrees.leaveHold d p).trans (.settleMode (Device.leaveHold_closed hclosed) _)

theorem Device.Agrees.leaveStarted : d.Agrees (d.leaveStarted p) := (Device.Agrees.leaveSettled hclosed).trans (.startAll _ p _ _)

theorem Device.Agrees.release : d.Agrees (d.release p) := by
  rw [Device.release_eq]
  exact (((((Device.Agrees.leaveStarted hclosed).trans (.wakeLanes _ _)).trans (.freshCycle _ p)).trans (.freeHost _ p)).trans (.wantIn _ p _)).trans
    (.fireHeld _ p)

/-- What a release leaves of time and of the registers that are no probe's and no lane's status. -/
theorem Device.release_pace : (d.release p).pace = d.pace := by
  obtain ⟨hpace, -⟩ := Device.settleMode_keeps (Device.leaveHold_closed hclosed) (d.releaseMode p).1
  simp [Device.release_eq, Device.leaveStarted, Device.leaveSettled, hpace]

theorem Device.release_reg {r : Reg} (hprobe : r.isProbe = false) (hlane : ∀ n, r ≠ .fldLstat n) : (d.release p).reg r = d.reg r := by
  obtain ⟨-, hreg, -⟩ := Device.settleMode_keeps (Device.leaveHold_closed hclosed) (d.releaseMode p).1
  simp [Device.release_eq, Device.wakeLanes_reg _ _ hlane, Device.leaveStarted, Device.leaveSettled, hreg, Device.leaveHold_reg _ _ hprobe]

/-- The lanes of a released partition are alive (R421). -/
theorem Device.release_lanes {n : Nat} (hn : n ∈ d.partLanes p) : bit ((d.release p).reg (.fldLstat n)) 1 = true := by
  have hlanes := (Device.Agrees.leaveStarted hclosed).partLanes p
  simpa [Device.release_eq] using Device.wakeLanes_alive (d.leaveStarted p) ((d.leaveStarted p).partLanes p) (hlanes ▸ hn)

/-- The engines of a released partition stand at its entry (R32, R160). -/
theorem Device.release_started {e : Nat} (he : e ∈ d.partEngines p) (hgo : d.ejectStopped = false) :
    ((d.release p).eng e).run = .running ∧ ((d.release p).eng e).pc = d.entry p (d.releaseMode p).1 ∧
    ((d.release p).eng e).st = { grd := true } ∧ ((d.release p).eng e).step = 0 ∧ ((d.release p).eng e).lines = [] := by
  have hsettled := Device.Agrees.leaveSettled hclosed
  have heng : (d.release p).eng e = (d.leaveStarted p).eng e := by simp [Device.release_eq]
  rw [heng, ← hsettled.entry p]
  exact Device.startAll_started _ p _ _ (by rw [hsettled.partEngines]; exact he) (hsettled.ejectStopped.trans hgo)

theorem Device.release_eng_other {e : Nat} (he : e ∉ d.partEngines p) : (d.release p).eng e = d.eng e := by
  obtain ⟨-, -, heng, -⟩ := Device.settleMode_keeps (Device.leaveHold_closed hclosed) (d.releaseMode p).1
  have hother := Device.startAll_other (d.leaveSettled p) p (d.releaseMode p).1 ((d.leaveSettled p).partEngines p) (k := e)
    (by rw [(Device.Agrees.leaveSettled hclosed).partEngines]; exact he)
  simp only [Device.release_eq, Device.fireHeld_keeps, Device.wantIn_keeps, Device.freeHost_keeps, Device.freshCycle_keeps,
    Device.wakeLanes_keeps]
  exact hother.trans ((heng e).trans ((d.leaveHold_keeps p).2.1 e))

/-- No engine of a released partition waits for a restart. -/
theorem Device.release_enginesReset {e : Nat} (he : e ∈ d.partEngines p) : ∀ x ∈ (d.release p).enginesReset, x.1 ≠ e := by
  have hsettled := Device.Agrees.leaveSettled hclosed
  have hreset : (d.release p).enginesReset = (d.leaveStarted p).enginesReset := by simp [Device.release_eq]
  rw [hreset]
  exact Device.startAll_enginesReset _ p _ _ (by rw [hsettled.partEngines]; exact he)

/-- A released partition stands in its start mode; it has no open vintage yet. -/
theorem Device.release_part_self :
    ((d.release p).part p).mode = (d.releaseMode p).1 ∧
    ((d.release p).part p).reason = (if (d.releaseMode p).2 then 4 else (d.part p).reason) ∧
    ((d.release p).part p).inCocoon = false ∧ ((d.release p).part p).pending = (d.part p).pending ∧
    ((d.release p).part p).recorder.open_ = none := by
  obtain ⟨-, -, -, -, -, hpart⟩ := Device.settleMode_keeps (Device.leaveHold_closed hclosed) (d.releaseMode p).1
  have hstarted : (d.leaveStarted p).part p = (d.part p).releasedAs (d.releaseMode p).1 (d.releaseMode p).2 := by
    simp [Device.leaveStarted, Device.leaveSettled, hpart, Device.leaveHold_part_self]
  rw [Device.release_eq]
  simp only [Device.fireHeld_keeps, Device.wantIn_part_self, Device.freeHost_keeps, Device.freshCycle, Device.onPart_self,
    Device.wakeLanes_keeps, hstarted]
  exact ⟨rfl, rfl, rfl, rfl, hclosed⟩

theorem Device.release_part_other {q : Nat} (hq : q ≠ p) : (d.release p).part q = d.part q := by
  obtain ⟨-, -, -, -, -, hpart⟩ := Device.settleMode_keeps (Device.leaveHold_closed hclosed) (d.releaseMode p).1
  have hwant : ∀ (d : Device) (m : Mode), (d.wantIn p m).part q = d.part q := fun d m => by
    cases m <;> simp [Device.wantIn, Device.wantVintage, Device.onRec, Device.onPart_other _ _ _ _ hq]
  simp [Device.release_eq, hwant, Device.freshCycle, Device.onPart_other _ _ _ _ hq, Device.leaveStarted, Device.leaveSettled, hpart,
    Device.leaveHold_part_other d p hq]

/-- A release changes the quality of points alone, and that only on the way to Recovery (R26, R239). -/
theorem Device.point_release (k : Nat) : (d.point k).UpToQuality ((d.release p).point k) := by
  have hpoint : (d.release p).point k = (d.leaveSettled p).point k := by simp [Device.release_eq, Device.leaveStarted]
  rw [hpoint, ← (d.leaveHold_keeps p).2.2.2.2.1 k]
  exact Device.point_settleMode (Device.leaveHold_closed hclosed) _ k

omit hclosed in
theorem Device.release_points (hm : (d.releaseMode p).1 ≠ .recovery) : (d.release p).points = d.points := by
  simp [Device.release_eq, Device.leaveStarted, Device.leaveSettled, Device.points_settleMode _ p hm]

/-- The host port of a released partition is free (R445). -/
theorem Device.release_host : (d.release p).host = if d.hostOwner = some p then { d.host with busyLow := false } else d.host := by
  obtain ⟨-, -, -, -, hhost, -⟩ := Device.settleMode_keeps (Device.leaveHold_closed hclosed) (d.releaseMode p).1
  have howner : (((d.leaveStarted p).wakeLanes ((d.leaveStarted p).partLanes p)).freshCycle p).hostOwner = d.hostOwner :=
    (((Device.Agrees.leaveStarted hclosed).trans (.wakeLanes _ _)).trans (.freshCycle _ p)).tables.hostOwner
  simp only [Device.release_eq, Device.fireHeld_keeps, Device.wantIn_keeps]
  unfold Device.freeHost
  rw [howner]
  split_ifs <;> simp [Device.leaveStarted, Device.leaveSettled, hhost]

end

end Sys2Proof.Machine
end

section
/-! SUPPORT and proofs: how Cocoon is left; O36. -/

namespace Sys2Proof.Machine

/-! ### Fields of a word -/

/-- A replaced field leaves the bits below it. -/
theorem bit_setFld_below (w : Word) {lo len v j : Nat} (hj : j < lo) : bit (setFld w lo len v) j = bit w j := by
  unfold bit setFld fld
  have hle : (w.toNat >>> lo % 2 ^ len) * 2 ^ lo ≤ w.toNat := by
    rw [Nat.shiftRight_eq_div_pow]
    exact (Nat.mul_le_mul_right _ (Nat.mod_le _ _)).trans (Nat.div_mul_le_self _ _)
  have hmod : (w.toNat - (w.toNat >>> lo % 2 ^ len) <<< lo + (v % 2 ^ len) <<< lo) % 2 ^ lo = w.toNat % 2 ^ lo := by
    rw [Nat.shiftLeft_eq, Nat.shiftLeft_eq, Nat.add_mul_mod_self_right]
    conv_rhs => rw [← Nat.sub_add_cancel hle, Nat.add_mul_mod_self_right]
  have hbit : ∀ n : Nat, n.testBit j = (n % 2 ^ lo).testBit j := fun n => by simp [Nat.testBit_mod_two_pow, hj]
  by_cases h32 : j < 32
  · rw [BitVec.getLsbD_ofNat, hbit, hmod, ← hbit]
    simp [h32, BitVec.getLsbD]
  · rw [BitVec.getLsbD_of_ge _ _ (by omega), BitVec.getLsbD_of_ge _ _ (by omega)]

/-! ### Power domains (R495) -/

theorem Device.setDomains_one (d : Device) (k : Nat) (st : DomState) : d.setDomains k 1 st = { d with domains := Assoc.put d.domains k st } := rfl

theorem Device.moveDomains_eq (d : Device) (lo n : Nat) (which : Nat → Bool) (st : DomState) :
    ∃ ds, d.moveDomains lo n which st = { d with domains := ds } :=
  foldDev_exists (set := fun d ds => { d with domains := ds }) (fun _ _ _ => rfl) (fun d => ⟨d.domains, rfl⟩)
    (fun d k => by
      split
      · exact ⟨d.domains, rfl⟩
      · exact ⟨d.domains, rfl⟩
      · split_ifs
        · exact ⟨_, rfl⟩
        · exact ⟨d.domains, rfl⟩) d _

theorem Device.rampDomains_eq (d : Device) (lo n : Nat) : ∃ ds, d.rampDomains lo n = { d with domains := ds } :=
  foldDev_exists (set := fun d ds => { d with domains := ds }) (fun _ _ _ => rfl) (fun d => ⟨d.domains, rfl⟩)
    (fun d k => by
      split
      · split_ifs
        · exact ⟨_, rfl⟩
        · exact ⟨d.domains, rfl⟩
      · split_ifs
        · exact ⟨_, rfl⟩
        · exact ⟨d.domains, rfl⟩
      · exact ⟨d.domains, rfl⟩) d _

/-- A powered domain that is switched on; one that is off or in FAULT stays so. -/
def DomState.switchedOn : DomState → DomState
  | .off => .off
  | .fault => .fault
  | _ => .on

theorem DomState.switchedOn_eq (st : DomState) : st.switchedOn = if st = .off ∨ st = .fault then st else .on := by
  cases st <;> rfl

theorem DomState.switchedOn_switchedOn (st : DomState) : st.switchedOn.switchedOn = st.switchedOn := by cases st <;> rfl

/-- The domains of a range that are switched on (R495). -/
theorem Device.domain_moveDomains_on (d : Device) (lo n c : Nat) :
    (d.moveDomains lo n (fun _ => true) .on).domain c =
      if lo ≤ c ∧ c < lo + n then (d.domain c).switchedOn else d.domain c := by
  have hstep : ∀ (d : Device) (k : Nat), (match d.domain (lo + k) with
      | .off | .fault => d
      | _ => if (fun _ => true) (lo + k) = true then d.setDomains (lo + k) 1 .on else d).domain c =
        if c = lo + k then (d.domain c).switchedOn else d.domain c := fun d k => by
    by_cases hc : c = lo + k
    · subst hc
      cases h : d.domain (lo + k) <;> simp [h, DomState.switchedOn, Device.setDomains_one] <;> simp [Device.domain]
    · have hput : ∀ st, (d.setDomains (lo + k) 1 st).domain c = d.domain c := fun st => Assoc.get_put_of_ne _ _ _ _ _ hc
      cases h : d.domain (lo + k) <;> simp [hc, hput]
  have hfold : ∀ (ks : List Nat) (d : Device), (foldDev (fun d k => match d.domain (lo + k) with
      | .off | .fault => d
      | _ => if (fun _ => true) (lo + k) = true then d.setDomains (lo + k) 1 .on else d) d ks).domain c =
        if ∃ k ∈ ks, c = lo + k then (d.domain c).switchedOn else d.domain c := by
    intro ks
    induction ks with
    | nil => simp [foldDev]
    | cons k ks ih =>
      intro d
      rw [foldDev, ih, hstep]
      by_cases hk : c = lo + k <;> by_cases hks : ∃ j ∈ ks, c = lo + j <;> simp_all [DomState.switchedOn_switchedOn]
  refine (hfold (List.range n) d).trans ?_
  have hrange : (∃ k ∈ List.range n, c = lo + k) ↔ lo ≤ c ∧ c < lo + n := by
    simp only [List.mem_range]
    exact ⟨by rintro ⟨k, hk, rfl⟩; omega, fun h => ⟨c - lo, by omega, by omega⟩⟩
  simp only [hrange]

/-! ### A wake (R38, R192, R514) -/

/-- The scrub of a wake changes marks and the error counts. -/
theorem Device.wakeScrub_eq (d : Device) (struck : List (Nat × Upset)) : ∃ x : _ × _, d.wakeScrub struck = { d with regs := x.1, marks := x.2 } := by
  have hcount : ∀ (lo : Nat) (ks : List Nat) (d : Device),
      ∃ rs, foldDev (fun d _ => d.bump .cfgEcccnt lo 16) d ks = { d with regs := rs } := fun lo ks d =>
    foldDev_exists (set := fun d rs => { d with regs := rs }) (fun _ _ _ => rfl) (fun d => ⟨d.regs, rfl⟩) (fun d _ => d.bump_eq ..) d ks
  unfold Device.wakeScrub
  dsimp only
  obtain ⟨rs, hrs⟩ := hcount 0 (List.range _) d
  rw [hrs]
  obtain ⟨qs, hqs⟩ := hcount 16 (List.range _) { d with regs := rs }
  rw [hqs]
  exact ⟨(qs, _), rfl⟩

/-- What a wake of each cause shows: PWR.CSTAT names it, BUSY# is low, and memory and time stand. -/
structure Device.WokenFrom (d d' : Device) (code : Nat) : Prop where
  phase : d'.phase = .waking
  cause : fld (d'.reg .pwrCstat) 4 3 = code
  busy : d'.host.busyLow = true
  mem : d'.mem = d.mem
  pace : d'.pace = d.pace

/-- The host port holds BUSY# (R445). -/
def Device.holdHost (d : Device) : Device := { d with host := { d.host with busyLow := true } }

/-- PWR.CSTAT names the cause of a wake, and the host port holds BUSY# (R445, R514). -/
def Device.showWake (d : Device) (code : Nat) : Device := (d.setRegFld .pwrCstat 4 3 code).holdHost

theorem Device.WokenFrom.showWake {d c : Device} (hphase : c.phase = .waking) (hmem : c.mem = d.mem) (hpace : c.pace = d.pace) {code : Nat}
    (hcode : code < 2 ^ 3) : d.WokenFrom (c.showWake code) code :=
  ⟨hphase, (congrArg (fld · 4 3) (c.setRegFld_self .pwrCstat 4 3 code)).trans (fld_setFld _ _ _ _ (by decide) hcode), rfl, hmem, hpace⟩

/-- What a scrub, and a wake of its kind before it, leave. -/
theorem Device.wakeScrub_keeps (d : Device) (struck : List (Nat × Upset)) : (d.wakeScrub struck).mem = d.mem ∧ (d.wakeScrub struck).pace = d.pace := by
  obtain ⟨x, h⟩ := d.wakeScrub_eq struck
  rw [h]
  exact ⟨rfl, rfl⟩

theorem Device.raise_keeps (d : Device) (n : Nat) : (d.raise n).mem = d.mem ∧ (d.raise n).pace = d.pace := by
  obtain ⟨rs, hs, h⟩ := d.raise_eq n
  rw [h]
  exact ⟨rfl, rfl⟩

theorem Device.rampDomains_keeps (d : Device) (lo n : Nat) :
    (d.rampDomains lo n).phase = d.phase ∧ (d.rampDomains lo n).mem = d.mem ∧ (d.rampDomains lo n).pace = d.pace := by
  obtain ⟨ds, h⟩ := d.rampDomains_eq lo n
  rw [h]
  exact ⟨rfl, rfl, rfl⟩

/-- A wake out of Cocoon (R38). -/
theorem Device.wake_of_cocoon {d : Device} (hphase : d.phase = .cocoon) {why : WakeCause} (hwhy : why ≠ .duringDrain) (struck : List (Nat × Upset)) :
    d.WokenFrom (d.wake why struck) (wakeCode why) := by
  have hwake : d.wake why struck =
      (Device.rampDomains { (if why = .chipSelect then d.raise 0xA6 else d).wakeScrub struck with phase := .waking, unfilled := [] } 0 83).showWake
        (wakeCode why) := by
    simp only [Device.wake, hphase, hwhy, if_false, Device.showWake, Device.holdHost]
  obtain ⟨hmem, hpace⟩ := Device.wakeScrub_keeps (if why = .chipSelect then d.raise 0xA6 else d) struck
  obtain ⟨hphase', hmem', hpace'⟩ := Device.rampDomains_keeps
    { (if why = .chipSelect then d.raise 0xA6 else d).wakeScrub struck with phase := .waking, unfilled := [] } 0 83
  have hkept : (if why = .chipSelect then d.raise 0xA6 else d).mem = d.mem ∧ (if why = .chipSelect then d.raise 0xA6 else d).pace = d.pace := by
    split_ifs
    · exact d.raise_keeps 0xA6
    · exact ⟨rfl, rfl⟩
  rw [hwake]
  exact .showWake hphase' (hmem'.trans (hmem.trans hkept.1)) (hpace'.trans (hpace.trans hkept.2)) (by cases why <;> decide)

/-- A partition that a wake during the drain stops (R37). -/
def Device.stopForCocoon (d : Device) (p : Nat) : Device :=
  if d.released p then
    ((d.dropProbes p).setRegBit .tmxStat (16 + p) false).onPart p (fun x => { x with mode := .held, inCocoon := true, scrubbing := false })
  else d

theorem Device.stopForCocoon_part_other (d : Device) {p q : Nat} (hq : q ≠ p) : (d.stopForCocoon p).part q = d.part q := by
  unfold Device.stopForCocoon
  split_ifs
  · simp [Device.onPart_other _ _ _ _ hq]
  · rfl

theorem Device.stopForCocoon_part_self (d : Device) (p : Nat) (h : d.released p = true) :
    ((d.stopForCocoon p).part p).mode = .held ∧ ((d.stopForCocoon p).part p).inCocoon = true := by
  simp [Device.stopForCocoon, h]

theorem Device.stopForCocoon_keeps (d : Device) (p : Nat) : (d.stopForCocoon p).mem = d.mem ∧ (d.stopForCocoon p).pace = d.pace := by
  have hmem := (Device.Agrees.dropProbes d p).mem
  unfold Device.stopForCocoon
  split_ifs <;> simp [hmem]

/-- Stopping partitions holds those that were released for Cocoon, and leaves memory and time. -/
theorem Device.foldDev_stopForCocoon (ps : List Nat) (d : Device) :
    (foldDev Device.stopForCocoon d ps).mem = d.mem ∧ (foldDev Device.stopForCocoon d ps).pace = d.pace ∧
    ∀ p, (p ∈ ps ∧ d.released p = true ∨ (d.part p).mode = .held ∧ (d.part p).inCocoon = true) →
      ((foldDev Device.stopForCocoon d ps).part p).mode = .held ∧ ((foldDev Device.stopForCocoon d ps).part p).inCocoon = true := by
  induction ps generalizing d with
  | nil => exact ⟨rfl, rfl, fun p hp => hp.resolve_left (by simp)⟩
  | cons k ps ih =>
    obtain ⟨hmem, hpace, hparts⟩ := ih (d.stopForCocoon k)
    obtain ⟨hmem', hpace'⟩ := d.stopForCocoon_keeps k
    refine ⟨hmem.trans hmem', hpace.trans hpace', fun p hp => hparts p ?_⟩
    by_cases hk : p = k
    · subst hk
      refine .inr ?_
      by_cases hrel : d.released p = true
      · exact d.stopForCocoon_part_self p hrel
      · have hstay : d.stopForCocoon p = d := if_neg hrel
        rw [hstay]
        exact hp.resolve_left fun h => hrel h.2
    · have hpart := d.stopForCocoon_part_other hk
      simpa [Device.released, hpart, hk] using hp

/-- A wake during the drain ends it: every partition that was released is held for Cocoon (R37, R38). -/
theorem Device.wake_of_drain {d : Device} (hphase : d.phase = .cocoonDrain) (struck : List (Nat × Upset)) :
    d.WokenFrom (d.wake .duringDrain struck) 4 ∧ bit ((d.wake .duringDrain struck).reg .pwrCstat) 0 = false ∧
    ∀ p ∈ partNumbers, d.released p = true →
      ((d.wake .duringDrain struck).part p).mode = .held ∧ ((d.wake .duringDrain struck).part p).inCocoon = true := by
  obtain ⟨hmem, hpace, hparts⟩ := Device.foldDev_stopForCocoon partNumbers d
  have hwake : d.wake .duringDrain struck =
      (({ (foldDev (fun d p => d.stopForCocoon p) d partNumbers).loseEngines with phase := .waking } : Device).setRegBit
        .pwrCstat 0 false).showWake 4 := by
    simp only [Device.wake, hphase, Device.showWake, Device.holdHost, Device.stopForCocoon]
  rw [hwake]
  generalize foldDev Device.stopForCocoon d partNumbers = c at hmem hpace hparts
  refine ⟨Device.WokenFrom.showWake (c := ({ c.loseEngines with phase := .waking } : Device).setRegBit .pwrCstat 0 false) rfl hmem hpace
    (by decide), ?_, fun p hp hrel => hparts p (.inl ⟨hp, hrel⟩)⟩
  have hreg : ∀ e : Device, bit (((e.setRegBit .pwrCstat 0 false).showWake 4).reg .pwrCstat) 0 = false := fun e => by
    have hshow : ((e.setRegBit .pwrCstat 0 false).showWake 4).reg .pwrCstat = setFld (setBit (e.reg .pwrCstat) 0 false) 4 3 4 :=
      ((e.setRegBit .pwrCstat 0 false).setRegFld_self .pwrCstat 4 3 4).trans (by rw [Device.setRegBit_self])
    rw [hshow, bit_setFld_below _ (by decide), bit_setBit _ _ _ _ (by decide), if_pos rfl]
  exact hreg _

/-- A wake frame of the lane that is addressed to it, or to all, and carries its key wakes the module (R423). -/
theorem Device.wakeFrame_of_key {d : Device} {n : Nat} {bytes : List Byte} (hphase : d.phase = .cocoon) (hup : d.laneUp n = true)
    (hwake : d.wakeLane n = true) (hk : isKryene bytes = true) (hver : (kryeneOf bytes).ver = 1) (htype : (kryeneOf bytes).type = 4)
    (hres : (kryeneOf bytes).reserved = false) (hlen : 4 ≤ (kryeneOf bytes).pdlen) (hdst : bytes.take 6 ∈ [d.laneMac n, broadcast])
    (hdata : 4 ≤ (kryeneOf bytes).data.length) (hkey : word (fromBytes ((kryeneOf bytes).data.take 4)) = d.reg (.fldWake n)) :
    d.wakeFrame n bytes = d.wake .laneFrame [] := by
  have hkey' : word (le (kryeneOf bytes).data 0 4) = d.reg (.fldWake n) := hkey
  unfold Device.wakeFrame
  dsimp only
  rw [if_pos]
  simp [hup, hwake, hk, hphase, hver, htype, hres, hkey', hlen, hdata, hdst]

end Sys2Proof.Machine
end

section
/-! SUPPORT and proofs: partitions restart 150 µs after a wake; O36. -/

namespace Sys2Proof.Machine

/-- Does a partition that Cocoon stopped restart now: does nothing else hold it? -/
def Device.restarts (d : Device) (p : Nat) : Bool :=
  (d.part p).inCocoon &&
    !((d.part p).heldCluster || (d.part p).heldStack || (d.part p).fence || d.partCovered p || d.fillPending p)

/-- What the restart does to one partition (R38). -/
def Device.restartPart (d : Device) (p : Nat) : Device :=
  let x := d.part p
  if !x.inCocoon then d
  else if x.heldCluster || x.heldStack || x.fence || d.partCovered p || d.fillPending p then d.onPart p (fun x => { x with inCocoon := false })
  else d.release p

theorem Device.restartPart_of_restarts {d : Device} {p : Nat} (h : d.restarts p = true) : d.restartPart p = d.release p := by
  simp only [Device.restarts, Bool.and_eq_true, Bool.not_eq_true'] at h
  simp only [Device.restartPart, h.1, h.2]
  rfl

theorem Device.restartPart_of_awake {d : Device} {p : Nat} (h : (d.part p).inCocoon = false) : d.restartPart p = d := by
  simp [Device.restartPart, h]

/-- A partition that does not restart loses the mark of Cocoon at most. -/
theorem Device.restartPart_of_held {d : Device} {p : Nat} (h : d.restarts p = false) :
    d.restartPart p = d ∨ d.restartPart p = d.onPart p (fun x => { x with inCocoon := false }) := by
  unfold Device.restartPart
  dsimp only
  split_ifs with hawake hheld
  · exact .inl rfl
  · exact .inr rfl
  · simp_all [Device.restarts]

theorem Device.Agrees.restarts {d d' : Device} (h : d.Agrees d') {p : Nat} (hpart : d'.part p = d.part p) (hs : d'.pace.s = d.pace.s) :
    d'.restarts p = d.restarts p := by
  simp only [Device.restarts, hpart, h.partCovered, h.fillPending (congrArg Part.holds hpart) hs]

/-- What restarting some partitions leaves and leads to. -/
structure Device.RestartedTo (d : Device) (ps : List Nat) (d' : Device) : Prop where
  agrees : d.Agrees d'
  pace : d'.pace = d.pace
  points : ∀ k, (d.point k).UpToQuality (d'.point k)
  others : ∀ q ∉ ps, d'.part q = d.part q
  awake : ∀ q, (d.part q).inCocoon = false → d'.part q = d.part q
  restarted : ∀ p ∈ ps, d.restarts p = true → (d'.part p).mode = (d.releaseMode p).1 ∧ (d'.part p).inCocoon = false
  freed : ∀ p ∈ ps, d.restarts p = true → d.hostOwner = some p → d'.host.busyLow = false
  held : (∀ p ∈ ps, d.restarts p = true → d.hostOwner ≠ some p) → d'.host = d.host

/-- One partition. -/
theorem Device.RestartedTo.restartPart {d : Device} {p : Nat} (hclosed : (d.part p).recorder.open_ = none) :
    d.RestartedTo [p] (d.restartPart p) := by
  have hsame : d.restarts p = false → d.RestartedTo [p] d := fun h =>
    ⟨.refl d, rfl, fun _ => rfl, fun _ _ => rfl, fun _ _ => rfl, by simp [h], by simp [h], fun _ => rfl⟩
  cases h : d.restarts p
  · obtain hkept | hmark := Device.restartPart_of_held h
    · rw [hkept]
      exact hsame h
    · by_cases hawake : (d.part p).inCocoon = false
      · rw [Device.restartPart_of_awake hawake]
        exact hsame h
      · rw [hmark]
        refine ⟨.onPart d p _, rfl, fun _ => rfl, fun q hq => Device.onPart_other d p _ q (by simpa using hq), fun q hq => ?_, by simp [h],
          by simp [h], fun _ => rfl⟩
        exact Device.onPart_other d p _ q (by rintro rfl; exact hawake hq)
  · obtain ⟨hmode, -, hawake, -⟩ := Device.release_part_self hclosed
    have hcocoon : (d.part p).inCocoon = true := by
      simp only [Device.restarts, Bool.and_eq_true] at h
      exact h.1
    rw [Device.restartPart_of_restarts h]
    refine ⟨.release hclosed, Device.release_pace hclosed, Device.point_release hclosed, fun q hq => Device.release_part_other hclosed (by simpa using hq),
      fun q hq => Device.release_part_other hclosed (by rintro rfl; simp [hcocoon] at hq), fun q hq _ => ?_, fun q hq _ howner => ?_, fun hnot => ?_⟩
    · obtain rfl : q = p := by simpa using hq
      exact ⟨hmode, hawake⟩
    · obtain rfl : q = p := by simpa using hq
      rw [Device.release_host hclosed, if_pos howner]
    · rw [Device.release_host hclosed, if_neg (hnot p (by simp) h)]

/-- One partition after the other, each without an open vintage. -/
theorem Device.RestartedTo.foldDev {ps : List Nat} (hnodup : ps.Nodup) (d : Device) (hclosed : ∀ p ∈ ps, (d.part p).recorder.open_ = none) :
    d.RestartedTo ps (foldDev (fun d p => d.restartPart p) d ps) := by
  induction ps generalizing d with
  | nil => exact ⟨.refl d, rfl, fun _ => rfl, fun _ _ => rfl, fun _ _ => rfl, by simp, by simp, fun _ => rfl⟩
  | cons p ps ih =>
    obtain ⟨hp, hps⟩ := List.nodup_cons.mp hnodup
    have hone := Device.RestartedTo.restartPart (hclosed p (by simp))
    have hsame : ∀ q ∈ ps, (d.restartPart p).part q = d.part q := fun q hq => hone.others q (by rintro h; simp at h; exact hp (h ▸ hq))
    have hs : (d.restartPart p).pace.s = d.pace.s := by rw [hone.pace]
    have hrest := ih hps (d.restartPart p) fun q hq => by rw [hsame q hq]; exact hclosed q (by simp [hq])
    have hrestarts : ∀ q ∈ ps, (d.restartPart p).restarts q = d.restarts q := fun q hq => hone.agrees.restarts (hsame q hq) hs
    have howner := hone.agrees.tables.hostOwner
    rw [Machine.foldDev]
    refine ⟨hone.agrees.trans hrest.agrees, hrest.pace.trans hone.pace, fun k => (hone.points k).trans (hrest.points k), fun q hq => ?_,
      fun q hq => ?_, fun q hq hgo => ?_, fun q hq hgo hq' => ?_, fun hnot => ?_⟩
    · simp only [List.mem_cons, not_or] at hq
      exact (hrest.others q hq.2).trans (hone.others q (by simpa using hq.1))
    · have hq' := hone.awake q hq
      exact (hrest.awake q (by rw [hq']; exact hq)).trans hq'
    · by_cases hin : q ∈ ps
      · rw [← hone.agrees.releaseMode (congrArg Part.holds (hsame q hin)) hs]
        exact hrest.restarted q hin ((hrestarts q hin).trans hgo)
      · obtain rfl : q = p := by simpa [hin] using hq
        rw [hrest.others q hin]
        exact hone.restarted q (by simp) hgo
    · by_cases hin : q ∈ ps
      · exact hrest.freed q hin ((hrestarts q hin).trans hgo) (howner.trans hq')
      · obtain rfl : q = p := by simpa [hin] using hq
        rw [hrest.held fun k hk _ h => hp (by rw [howner, hq'] at h; exact Option.some.inj h ▸ hk)]
        exact hone.freed q (by simp) hgo hq'
    · rw [hrest.held fun k hk hk' => by rw [howner]; exact hnot k (by simp [hk]) ((hrestarts k hk).symm.trans hk')]
      exact hone.held fun k hk hk' => hnot k (by simp_all) hk'

/-- The module runs again: its domains stand on, its lanes send, and the host port holds BUSY# while a partition holds it (R38, R445, R495). -/
def Device.leaveWaking (d : Device) : Device :=
  ({ d with phase := .running, host := { d.host with busyLow := d.hostOwner.isSome }
            lanes := d.lanes.map (fun (l : Nat × Lane) => (l.1, { l.2 with quiet := false })) } : Device).moveDomains 0 72 (fun _ => true) .on

theorem Device.engineRestart_eq {d : Device} (h : d.phase = .waking) :
    d.engineRestart = foldDev (fun d p => d.restartPart p) d.leaveWaking partNumbers := by
  simp only [Device.engineRestart, h, Device.leaveWaking, Device.restartPart]
  rfl

theorem Device.leaveWaking_eq (d : Device) :
    ∃ x : _ × _, d.leaveWaking = { d with phase := .running, host := { d.host with busyLow := d.hostOwner.isSome }, lanes := x.1, domains := x.2 } := by
  obtain ⟨ds, h⟩ := Device.moveDomains_eq { d with
    phase := .running, host := { d.host with busyLow := d.hostOwner.isSome }
    lanes := d.lanes.map (fun (l : Nat × Lane) => (l.1, { l.2 with quiet := false })) } 0 72 (fun _ => true) .on
  exact ⟨(_, ds), h⟩

/-- What the wake's end leaves before the partitions restart. -/
theorem Device.leaveWaking_keeps (d : Device) :
    d.SameTables d.leaveWaking ∧ d.leaveWaking.phase = .running ∧ d.leaveWaking.host.busyLow = d.hostOwner.isSome ∧ d.leaveWaking.mem = d.mem ∧
    d.leaveWaking.pace = d.pace ∧ d.leaveWaking.sources = d.sources ∧ d.leaveWaking.unfilled = d.unfilled ∧
    (∀ p, d.leaveWaking.part p = d.part p) ∧ ∀ k, d.leaveWaking.point k = d.point k := by
  obtain ⟨x, h⟩ := d.leaveWaking_eq
  rw [h]
  exact ⟨fun _ _ => rfl, rfl, rfl, rfl, rfl, rfl, rfl, fun _ => rfl, fun _ => rfl⟩

/-- At the wake's end the same partitions may restart, in the same modes. -/
theorem Device.leaveWaking_restarts (d : Device) (p : Nat) :
    d.leaveWaking.restarts p = d.restarts p ∧ d.leaveWaking.releaseMode p = d.releaseMode p := by
  obtain ⟨htables, -, -, -, hpace, hsources, hunfilled, hpart, -⟩ := d.leaveWaking_keeps
  have hmode : d.leaveWaking.releaseMode p = d.releaseMode p := by
    unfold Device.releaseMode Device.paceLoss
    rw [hpart, htables (.parStart p) rfl, hpace]
  have hcovered : d.leaveWaking.partCovered p = d.partCovered p := by
    simp only [Device.partCovered, hsources, htables.ownsCluster, htables.engPart]
  refine ⟨?_, hmode⟩
  simp only [Device.restarts, hpart, hcovered, Device.fillPending, hmode, hunfilled, htables.ownsPage]

/-- The domains of the engines, dies and stacks stand on again (R495). -/
theorem Device.domain_leaveWaking (d : Device) {c : Nat} (hc : c < 72) :
    Assoc.get .off d.leaveWaking.domains c =
      if Assoc.get .off d.domains c = .off ∨ Assoc.get .off d.domains c = .fault then Assoc.get .off d.domains c else .on := by
  have h := Device.domain_moveDomains_on { d with
    phase := .running, host := { d.host with busyLow := d.hostOwner.isSome }
    lanes := d.lanes.map (fun (l : Nat × Lane) => (l.1, { l.2 with quiet := false })) } 0 72 c
  rw [if_pos ⟨by omega, by omega⟩, DomState.switchedOn_eq] at h
  exact h

/-- The mode of a start that no escalation decides (R32, R33). -/
theorem Device.releaseMode_of_start {d : Device} {p : Nat} (h : (d.part p).escalated = false) :
    (d.releaseMode p).1 = match fld (d.reg (.parStart p)) 0 3 with | 2 => if 1 < d.pace.s then .free else .paced | 4 => .recovery | _ => .free := by
  unfold Device.releaseMode Device.paceLoss
  simp only [h, Bool.false_eq_true, false_and, if_false]
  generalize fld (d.reg (.parStart p)) 0 3 = start
  split
  · by_cases hs : 1 < d.pace.s <;> simp [hs]
  · rfl
  · simp_all

/-- Settles O36: a wake by its cause, a wake during the drain, and the restart of the partitions one by one. -/
theorem cocoonIsLeft : Obligations.CocoonIsLeft := by
  intro s n bytes struck d k woken
  have hwoken : ∀ {d' : Device} {code : Nat}, d.WokenFrom d' code → woken { s with dev := d' } code :=
    fun h => ⟨rfl, h.phase, h.cause, h.busy, h.mem, h.pace⟩
  have hmem : ∀ p, p ∈ partNumbers ↔ p < 16 := fun p => by simp [partNumbers]; omega
  refine ⟨fun hphase => ?_, fun hphase => ?_, fun hphase halarm => ?_, fun hphase hup hwake hk hver htype hres hlen hdst hdata hkey => ?_,
    fun hphase hclosed => ?_⟩
  · exact ⟨{ s with dev := d.wake .laneFrame struck }, { s with dev := d.wake .chipSelect struck }, rfl, rfl,
      hwoken (Device.wake_of_cocoon hphase (by decide) struck), hwoken (Device.wake_of_cocoon hphase (by decide) struck)⟩
  · obtain ⟨hwake, hbit, hparts⟩ := Device.wake_of_drain hphase struck
    exact ⟨{ s with dev := d.wake .duringDrain struck }, rfl, hwoken hwake, hbit, fun p hp => hparts p ((hmem p).mpr hp)⟩
  · have hdev : d.cocoonAlarm = d.wake .alarm [] := if_pos ⟨hphase, halarm⟩
    refine exec_leads rfl hdev ?_
    exact hwoken (Device.wake_of_cocoon hphase (by decide) [])
  · refine exec_leads rfl (Device.wakeFrame_of_key hphase hup hwake hk hver htype hres hlen hdst hdata hkey) ?_
    exact hwoken (Device.wake_of_cocoon hphase (by decide) [])
  · obtain ⟨htables, hrunning, hbusy, hbytes, hpace, -, -, hpart, hpoint⟩ := d.leaveWaking_keeps
    have hrest := Device.RestartedTo.foldDev (by decide : partNumbers.Nodup) d.leaveWaking fun p hp => by
      rw [hpart]; exact hclosed p ((hmem p).mp hp)
    have howner := htables.hostOwner
    refine exec_leads rfl (Device.engineRestart_eq hphase) ?_
    generalize foldDev (fun d p => d.restartPart p) d.leaveWaking partNumbers = d' at hrest
    refine ⟨rfl, hrest.agrees.phase.trans hrunning, fun hnone => ?_, fun p hp hawake => ?_, hrest.agrees.mem.trans hbytes, fun j => ?_,
      fun c hc => ?_, fun p hp hcocoon hesc hcluster hstack hfence hcover hfill => ?_, fun p hp hawake => ?_⟩
    · have hheld := hrest.held fun q _ _ => by rw [howner, hnone]; simp
      exact (congrArg HostPort.busyLow hheld).trans (by rw [hbusy, hnone]; rfl)
    · have hheld := hrest.held fun q _ hq hq' => by
        obtain rfl : p = q := Option.some.inj ((hp.symm.trans howner.symm).trans hq')
        simp [Device.restarts, hpart, hawake] at hq
      exact (congrArg HostPort.busyLow hheld).trans (by rw [hbusy, hp]; rfl)
    · have hquality := hrest.points j
      rw [hpoint] at hquality
      exact hquality
    · have hdomain := d.domain_leaveWaking hc
      rw [← hrest.agrees.domains] at hdomain
      exact hdomain
    · obtain ⟨hrestarts, hmode⟩ := d.leaveWaking_restarts p
      have hgo : d.leaveWaking.restarts p = true := by
        rw [hrestarts]
        simp only [Device.restarts, hcocoon, hcluster, hstack, hfence, hcover, hfill]
        rfl
      obtain ⟨hmode', hawake⟩ := hrest.restarted p ((hmem p).mpr hp) hgo
      rw [hmode, Device.releaseMode_of_start hesc] at hmode'
      exact ⟨hawake, fun hhost => hrest.freed p ((hmem p).mpr hp) hgo (howner.trans hhost), hmode'⟩
    · have hkept := hrest.awake p (by rw [hpart]; exact hawake)
      exact hkept.trans (hpart p)

end Sys2Proof.Machine
end

section
/-! SUPPORT. What records, checkpoints and the opening and closing of vintages leave (R344 to R373). -/

namespace Sys2Proof.Machine

/-- The registers that the recorder and the module's error log write. -/
def Reg.isRecording : Reg → Bool
  | .celStat _ | .celUse _ | .celLostrec _ | .celGaps _ | .celVinl _ | .celVinh _ | .trlMerr | .trlMera => true
  | _ => false

/-- The second block differs from the first in what recording changes: recorders, their registers, index blocks and requests at targets. -/
structure Device.Records (d d' : Device) : Prop where
  rest : ∃ x : Assoc Reg Word × Assoc Nat Part × Assoc Nat Target × Nat × Assoc (Nat × Nat) (List Byte),
    d' = { d with regs := x.1, parts := x.2.1, targets := x.2.2.1, fresh := x.2.2.2.1, blocks := x.2.2.2.2 }
  regs : ∀ r : Reg, r.isRecording = false → d'.reg r = d.reg r
  parts : ∀ q, { d'.part q with recorder := (d.part q).recorder } = d.part q

/-- No partition without an open vintage has one then. -/
def Device.KeepsClosed (d d' : Device) : Prop := ∀ q, (d.part q).recorder.open_ = none → (d'.part q).recorder.open_ = none

namespace Device.Records

theorem refl (d : Device) : d.Records d := ⟨⟨(d.regs, d.parts, d.targets, d.fresh, d.blocks), rfl⟩, fun _ _ => rfl, fun _ => rfl⟩

theorem trans {a b c : Device} (h : a.Records b) (h' : b.Records c) : a.Records c := by
  refine ⟨?_, fun r hr => (h'.regs r hr).trans (h.regs r hr), fun q => ?_⟩
  · obtain ⟨x, hx⟩ := h.rest
    obtain ⟨y, hy⟩ := h'.rest
    exact ⟨y, by rw [hy, hx]⟩
  · have hq := h'.parts q
    rw [← h.parts q, ← hq]

theorem foldDev {α : Type} {f : Device → α → Device} (hf : ∀ (d : Device) x, d.Records (f d x)) (d : Device) (xs : List α) :
    d.Records (foldDev f d xs) := by
  induction xs generalizing d with
  | nil => exact refl d
  | cons x xs ih => exact (hf d x).trans (ih (f d x))

/-- Whichever way a choice goes. -/
theorem ite {d a b : Device} {c : Prop} [Decidable c] (h : d.Records a) (h' : d.Records b) : d.Records (if c then a else b) := by
  split_ifs
  · exact h
  · exact h'

section
variable (d : Device)

theorem setReg {r : Reg} (hr : r.isRecording = true) (w : Word) : d.Records (d.setReg r w) :=
  ⟨⟨(_, d.parts, d.targets, d.fresh, d.blocks), rfl⟩, fun q hq => Device.setReg_other d r q w (by rintro rfl; simp [hr] at hq), fun _ => rfl⟩

theorem setRegBit {r : Reg} (hr : r.isRecording = true) (i : Nat) (b : Bool) : d.Records (d.setRegBit r i b) := setReg d hr _

theorem bump {r : Reg} (hr : r.isRecording = true) (lo len : Nat) : d.Records (d.bump r lo len) := by
  unfold Device.bump
  split_ifs
  · exact setReg d hr _
  · exact refl d

theorem onRec (p : Nat) (f : Recorder → Recorder) : d.Records (d.onRec p f) := by
  refine ⟨⟨(d.regs, _, d.targets, d.fresh, d.blocks), rfl⟩, fun _ _ => rfl, fun q => ?_⟩
  by_cases hq : q = p
  · subst hq
    simp [Device.onRec]
  · simp [Device.onRec, Device.onPart_other _ _ _ _ hq]

theorem askRing (off master : Nat) : d.Records (d.askRing off master) := by
  have hask : ∀ (t m q : Nat), d.Records (d.askPassing t m none q) := fun t m q =>
    ⟨⟨(d.regs, d.parts, _, d.fresh, d.blocks), rfl⟩, fun _ _ => rfl, fun _ => rfl⟩
  unfold Device.askRing
  split_ifs
  · refine (hask 122 master 8).trans ?_
    unfold Device.logStatus
    dsimp only
    split_ifs
    · exact refl _
    · exact (setReg _ rfl _).trans (setReg _ rfl _)
  · exact hask _ master 8

theorem append (p type src : Nat) (payload : List Byte) : d.Records (d.append p type src payload) := by
  have hask := askRing d (d.part p).recorder.bytes 151
  unfold Device.append
  by_cases hout : (d.askRing (d.part p).recorder.bytes 151).ringOut = true
  · rw [if_pos hout]
    exact hask
  · rw [if_neg hout]
    exact (hask.trans (onRec _ p _)).trans (setReg _ rfl _)

theorem record (p type src : Nat) (payload : List Byte) : d.Records (d.record p type src payload) := by
  unfold Device.record
  split
  · split_ifs
    · exact append d ..
    · exact bump d rfl 0 32
  · split_ifs
    · exact bump d rfl 0 32
    · exact refl d

theorem writeEntry (at_ : Nat × Nat) (bs : List Byte) : d.Records (d.writeEntry at_ bs) :=
  ⟨⟨(d.regs, d.parts, d.targets, d.fresh, _), rfl⟩, fun _ _ => rfl, fun _ => rfl⟩

theorem writeIndex (v : Vintage) : d.Records (d.writeIndex v) := by
  unfold Device.writeIndex
  split
  · exact writeEntry d ..
  · exact refl d

theorem freed (p : Nat) (r : Recorder) : d.Records (d.freed p r) := by
  unfold Device.freed
  exact (foldDev (fun d h => writeEntry d h _) d _).trans (onRec _ p _)

end

section
variable {d d' : Device} (h : d.Records d')
include h

theorem pace : d'.pace = d.pace := by
  obtain ⟨x, hx⟩ := h.rest
  rw [hx]

theorem eng (e : Nat) : d'.eng e = d.eng e := by
  obtain ⟨x, hx⟩ := h.rest
  rw [hx]
  rfl

theorem points : d'.points = d.points := by
  obtain ⟨x, hx⟩ := h.rest
  rw [hx]

theorem agrees : d.Agrees d' := by
  have htables : d.SameTables d' := fun r hr => h.regs r (by cases r <;> simp_all [Reg.isTable, Reg.isRecording])
  obtain ⟨x, hx⟩ := h.rest
  rw [hx] at htables ⊢
  exact ⟨htables, rfl, rfl, rfl, rfl, rfl, rfl, rfl, rfl, rfl⟩

theorem part (q : Nat) : (d'.part q).mode = (d.part q).mode ∧ (d'.part q).reason = (d.part q).reason ∧ (d'.part q).pending = (d.part q).pending := by
  rw [← h.parts q]
  exact ⟨rfl, rfl, rfl⟩

end

end Device.Records

/-! ### Vintages open and close (R356 to R359) -/

/-- What a close within a grant window does to the recorder: the CLOSE record, the last casks, and the vintage among the closed ones. -/
def Recorder.afterClose (r : Recorder) (reason : Nat) : Recorder :=
  let r := r.dropCaptures.flush (r.cask.length + 1)
  match r.open_ with
  | none => r
  | some v => { r with open_ := none, closed := r.closed ++ [{ v with reason := reason }]
                       wantOpen := decide (reason = 4), gapFrom := if reason = 4 then v.number else 0 }

/-- A close leaves no vintage open. -/
theorem Recorder.open_afterClose (r : Recorder) (reason : Nat) : (r.afterClose reason).open_ = none := by
  unfold Recorder.afterClose
  dsimp only
  split
  · assumption
  · rfl

/-- What a close does once its CLOSE record stands (R358). -/
def Device.endVintage (d : Device) (p reason : Nat) (waits : Bool) : Device :=
  let d := (((d.onRec p (·.afterClose reason)).setRegBit (.celStat p) 0 false).setRegBit (.celStat p) 1 (decide (reason = 4) || waits)).setRegBit
    (.celStat p) 2 (decide (reason = 5))
  if reason = 4 then d.bump (.celGaps p) else d

/-- A close ends the grant window, writes its record and ends the vintage. -/
theorem Device.closeVintage_of_open {d : Device} {p : Nat} (h : (d.part p).recorder.open_ ≠ none) (reason : Nat) :
    ∃ waits, d.closeVintage p reason = (d.grantWindow.append p recCLOSE srcModule (wordsBytes [word reason, 0])).endVintage p reason waits := by
  obtain ⟨v, hv⟩ := Option.ne_none_iff_exists'.mp h
  refine ⟨d.grantWindow.aboveHigh p && decide (d.grantWindow.policy p ≠ 1 ∧ d.grantWindow.policy p ≠ 2), ?_⟩
  unfold Device.closeVintage
  rw [hv]
  rfl

theorem Device.Records.endVintage (d : Device) (p reason : Nat) (waits : Bool) : d.Records (d.endVintage p reason waits) := by
  have hend := (((Device.Records.onRec d p (·.afterClose reason)).trans (.setRegBit _ (r := .celStat p) rfl 0 false)).trans
    (.setRegBit _ (r := .celStat p) rfl 1 (decide (reason = 4) || waits))).trans (.setRegBit _ (r := .celStat p) rfl 2 (decide (reason = 5)))
  unfold Device.endVintage
  by_cases hgap : reason = 4
  · rw [if_pos hgap]
    exact hend.trans (.bump _ rfl 0 32)
  · rw [if_neg hgap]
    exact hend

/-- A grant window that still runs is not ended. -/
theorem Device.grantWindow_of_running {d : Device} (h : d.now < d.pace.windowNext * 64) : d.grantWindow = d := if_pos h

/-- A close within a grant window changes what recording does. -/
theorem Device.Records.closeVintage_of_running {d : Device} (h : d.now < d.pace.windowNext * 64) (p reason : Nat) :
    d.Records (d.closeVintage p reason) := by
  by_cases hopen : (d.part p).recorder.open_ = none
  · rw [Device.closeVintage_of_closed hopen]
    exact .refl d
  · obtain ⟨waits, hclose⟩ := Device.closeVintage_of_open hopen reason
    rw [hclose, Device.grantWindow_of_running h]
    exact (append d ..).trans (endVintage _ p reason waits)

end Sys2Proof.Machine
end

section
/-! SUPPORT. Closing vintages moves no memory, no point, no mode and no engine but for its tokens; it opens no vintage (R329, R358). -/

namespace Sys2Proof.Machine

/-- The second block has the memories, points, modes and engines of the first, but for tokens and recorders; no vintage opened on the way. -/
structure Device.Settles (d d' : Device) : Prop where
  mem : d'.mem = d.mem
  points : d'.points = d.points
  engines : ∀ e, d'.eng e = { d.eng e with tokens := (d'.eng e).tokens }
  parts : ∀ q, { d'.part q with recorder := (d.part q).recorder } = d.part q
  closed : ∀ q, (d.part q).recorder.open_ = none → (d'.part q).recorder.open_ = none

namespace Device.Settles

theorem refl (d : Device) : d.Settles d := ⟨rfl, rfl, fun _ => rfl, fun _ => rfl, fun _ h => h⟩

theorem trans {a b c : Device} (h : a.Settles b) (h' : b.Settles c) : a.Settles c := by
  refine ⟨h'.mem.trans h.mem, h'.points.trans h.points, fun e => ?_, fun q => ?_, fun q hq => h'.closed q (h.closed q hq)⟩
  · rw [h'.engines e, h.engines e]
  · have hq := h'.parts q
    rw [← h.parts q, ← hq]

theorem foldDev {α : Type} {f : Device → α → Device} (hf : ∀ (d : Device) x, d.Settles (f d x)) (d : Device) (xs : List α) :
    d.Settles (foldDev f d xs) := by
  induction xs generalizing d with
  | nil => exact refl d
  | cons x xs ih => exact (hf d x).trans (ih (f d x))

theorem released {d d' : Device} (h : d.Settles d') (q : Nat) : d'.released q = d.released q := by
  unfold Device.released
  rw [← h.parts q]

/-- What the recorder changes settles when it opens no vintage. -/
theorem of_records {d d' : Device} (h : d.Records d') (hclosed : d.KeepsClosed d') : d.Settles d' :=
  ⟨h.agrees.mem, h.points, fun e => by rw [h.eng e], h.parts, hclosed⟩

/-- Whichever way a choice goes. -/
theorem ite {d a b : Device} {c : Prop} [Decidable c] (h : d.Settles a) (h' : d.Settles b) : d.Settles (if c then a else b) := by
  split_ifs
  · exact h
  · exact h'

section
variable (d : Device)

theorem setReg (r : Reg) (w : Word) : d.Settles (d.setReg r w) := ⟨rfl, rfl, fun _ => rfl, fun _ => rfl, fun _ h => h⟩

theorem setRegBit (r : Reg) (i : Nat) (b : Bool) : d.Settles (d.setRegBit r i b) := setReg d r _

theorem bump (r : Reg) (lo len : Nat) : d.Settles (d.bump r lo len) := by
  unfold Device.bump
  split_ifs
  · exact setReg d r _
  · exact refl d

theorem raise (n : Nat) : d.Settles (d.raise n) := by
  obtain ⟨rs, hs, h⟩ := d.raise_eq n
  rw [h]
  exact ⟨rfl, rfl, fun _ => rfl, fun _ => rfl, fun _ h => h⟩

theorem pace (x : Pace) : d.Settles { d with pace := x } := ⟨rfl, rfl, fun _ => rfl, fun _ => rfl, fun _ h => h⟩

theorem onRec (p : Nat) {f : Recorder → Recorder} (hf : ∀ r : Recorder, r.open_ = none → (f r).open_ = none) : d.Settles (d.onRec p f) := by
  refine of_records (.onRec d p f) fun q hq => ?_
  by_cases hqp : q = p
  · subst hqp
    simpa [Device.onRec] using hf _ hq
  · simpa [Device.onRec, Device.onPart_other _ _ _ _ hqp] using hq

theorem askRing (off master : Nat) : d.Settles (d.askRing off master) := by
  have hask : ∀ (t m q : Nat), d.Settles (d.askPassing t m none q) := fun t m q => ⟨rfl, rfl, fun _ => rfl, fun _ => rfl, fun _ h => h⟩
  unfold Device.askRing
  split_ifs
  · refine (hask 122 master 8).trans ?_
    unfold Device.logStatus
    dsimp only
    split_ifs
    · exact refl _
    · exact (setReg _ ..).trans (setReg _ ..)
  · exact hask _ master 8

theorem append (p type src : Nat) (payload : List Byte) : d.Settles (d.append p type src payload) := by
  have hask := askRing d (d.part p).recorder.bytes 151
  unfold Device.append
  by_cases hout : (d.askRing (d.part p).recorder.bytes 151).ringOut = true
  · rw [if_pos hout]
    exact hask
  · rw [if_neg hout]
    refine (hask.trans (onRec _ p fun r hr => ?_)).trans (setReg _ ..)
    rw [hr]
    exact hr

theorem record (p type src : Nat) (payload : List Byte) : d.Settles (d.record p type src payload) := by
  unfold Device.record
  split
  · split_ifs
    · exact append d ..
    · exact bump d ..
  · split_ifs
    · exact bump d ..
    · exact refl d

theorem recordAll (type src : Nat) (payload : List Word) : d.Settles (d.recordAll type src payload) :=
  foldDev (fun d p => record d p type src _) d partNumbers

/-- A change of the stretch factor (R325 to R327). -/
theorem stretch (s : Nat) : d.Settles (d.stretch s) := by
  unfold Device.stretch
  by_cases hsame : s = d.pace.s
  · rw [if_pos hsame]
    exact refl d
  rw [if_neg hsame]
  have hpace : d.Settles ({ d with pace := { d.pace with s := s } } : Device).showPace := (pace d _).trans (setReg _ ..)
  have hmarked : ∀ (d : Device) (p : Nat), d.Settles (if (d.part p).recorder.open_.isSome then
      (d.setRegBit (.celStat p) 4 true).onRec p (fun r => { r with open_ := r.open_.map (fun v => { v with pace := true }) }) else d) :=
    fun d p => ite ((setRegBit d ..).trans (onRec _ p fun r hr => by simp [hr])) (refl d)
  have hwarned := ite (c := d.pace.s = 1) (hpace.trans (((raise _ 0xC0).trans (setRegBit _ .pwrPace 8 true)).trans (bump _ .pwrPacecnt 16 16))) hpace
  have hcleared := ite (c := s = 1) (hwarned.trans (raise _ 0xC1)) hwarned
  exact (hcleared.trans (recordAll _ ..)).trans (foldDev hmarked _ partNumbers)

/-- Tokens count from 0 again. -/
theorem freshTokens (x : Pace) : d.Settles { d with
    pace := x
    engines := d.engines.map (fun x => (x.1, { x.2 with tokens := 0 }))
    clusters := d.clusters.map (fun x => (x.1, { x.2 with bmvTokens := 0 })) } := by
  refine ⟨rfl, rfl, fun e => ?_, fun _ => rfl, fun _ h => h⟩
  exact Assoc.get_map_rel (R := fun (x y : Engine) => y = { x with tokens := y.tokens }) e (f := fun x => (x.1, { x.2 with tokens := 0 }))
    (fun _ => rfl) (fun _ _ => rfl) rfl d.engines

/-- The end of a grant window (R322, R329). -/
theorem grantWindow : d.Settles d.grantWindow := by
  unfold Device.grantWindow
  by_cases hrun : d.now < d.pace.windowNext * 64
  · rw [if_pos hrun]
    exact refl d
  rw [if_neg hrun]
  have htokens := freshTokens d { d.pace with windowNext := d.now / 64 + 1, adj := d.pace.adjNext.getLast?.getD d.pace.adj, adjNext := [] }
  have hacted : ∀ d : Device, d.Settles { d.stretch d.pace.boundary with pace := (d.stretch d.pace.boundary).pace.acted d.pace.boundary } :=
    fun d => (stretch d _).trans (pace _ _)
  have hcounted : ∀ d : Device, d.Settles (if 1 < d.pace.s then
      if d.pace.winStretched + 1 = 1024 then ({ d with pace := { d.pace with winStretched := 0 } }).bump .pwrPacecnt 0 16
      else { d with pace := { d.pace with winStretched := d.pace.winStretched + 1 } }
    else d) := fun d => ite (ite ((pace d _).trans (bump _ ..)) (pace d _)) (refl d)
  exact ((htokens.trans (foldDev (fun d a => recordAll d recPTP srcModule [1, a, d.reg .timSetl, d.reg .timSeth]) _ d.pace.adjNext)).trans
    (hacted _)).trans (hcounted _)

theorem endVintage (p reason : Nat) (waits : Bool) : d.Settles (d.endVintage p reason waits) := by
  have hend := (((onRec d p (f := (·.afterClose reason)) fun r _ => r.open_afterClose reason).trans (setRegBit _ (.celStat p) 0 false)).trans
    (setRegBit _ (.celStat p) 1 (decide (reason = 4) || waits))).trans (setRegBit _ (.celStat p) 2 (decide (reason = 5)))
  exact ite (hend.trans (bump _ ..)) hend

/-- A close settles (R358). -/
theorem closeVintage (p reason : Nat) : d.Settles (d.closeVintage p reason) := by
  by_cases hopen : (d.part p).recorder.open_ = none
  · rw [Device.closeVintage_of_closed hopen]
    exact refl d
  · obtain ⟨waits, hclose⟩ := Device.closeVintage_of_open hopen reason
    rw [hclose]
    exact ((grantWindow d).trans (append _ ..)).trans (endVintage _ p reason waits)

end
end Device.Settles

end Sys2Proof.Machine
end

section
/-! SUPPORT and proofs: how Cocoon is requested and entered; O35. -/

namespace Sys2Proof.Machine

/-! ### A request for Cocoon (R28, R37, R499) -/

theorem mem_partNumbers {p : Nat} : p ∈ partNumbers ↔ p < 16 := by
  simp only [partNumbers, List.mem_cons, List.not_mem_nil, or_false]
  omega

theorem Device.open_endVintage (d : Device) (p reason : Nat) (waits : Bool) : ((d.endVintage p reason waits).part p).recorder.open_ = none := by
  have hrec : ((d.onRec p (·.afterClose reason)).part p).recorder.open_ = none := by
    simp only [Device.onRec, Device.onPart_self, Recorder.open_afterClose]
  unfold Device.endVintage
  by_cases hgap : reason = 4
  · rw [if_pos hgap]
    exact (Device.Settles.bump _ (.celGaps p) 0 32).closed p hrec
  · rw [if_neg hgap]
    exact hrec

/-- A closed vintage is open no longer. -/
theorem Device.open_closeVintage (d : Device) (p reason : Nat) : ((d.closeVintage p reason).part p).recorder.open_ = none := by
  by_cases hopen : (d.part p).recorder.open_ = none
  · rw [Device.closeVintage_of_closed hopen]
    exact hopen
  · obtain ⟨waits, hclose⟩ := Device.closeVintage_of_open hopen reason
    rw [hclose]
    exact Device.open_endVintage _ p reason waits

/-- The vintages of the released partitions among some close (R37). -/
def Device.closeReleased (d : Device) (ps : List Nat) : Device := foldDev (fun d p => if d.released p then d.closeVintage p 7 else d) d ps

theorem Device.closeReleased_settles (d : Device) (ps : List Nat) : d.Settles (d.closeReleased ps) :=
  .foldDev (fun d p => .ite (.closeVintage d p 7) (.refl d)) d ps

theorem Device.open_closeReleased (d : Device) {ps : List Nat} {p : Nat} (hp : p ∈ ps) (hreleased : d.released p = true) :
    ((d.closeReleased ps).part p).recorder.open_ = none := by
  induction ps generalizing d with
  | nil => simp at hp
  | cons q ps ih =>
    have hstep : d.Settles (if d.released q then d.closeVintage q 7 else d) := .ite (.closeVintage d q 7) (.refl d)
    by_cases hin : p ∈ ps
    · exact ih _ hin ((hstep.released p).trans hreleased)
    · obtain rfl : p = q := by simpa [hin] using hp
      refine (Device.closeReleased_settles _ ps).closed p ?_
      have hclosed := d.open_closeVintage p 7
      rw [← if_pos hreleased (t := d.closeVintage p 7) (e := d)] at hclosed
      exact hclosed

/-- What refuses Cocoon: a partition in Paced or Decant, or one with a change that pends (R28, R34). -/
def Device.refusesCocoon (d : Device) : Bool :=
  partNumbers.any (fun p => d.valid p && d.released p &&
    !d.partCovered p && (d.pacedPart p || (d.part p).pending.isSome || (d.part p).changing.isSome))

theorem Device.refusesCocoon_iff (d : Device) : d.refusesCocoon = true ↔
    ∃ p, p < 16 ∧ d.valid p = true ∧ d.released p = true ∧ d.partCovered p = false ∧
      (d.pacedPart p = true ∨ (d.part p).pending.isSome = true ∨ (d.part p).changing.isSome = true) := by
  simp only [Device.refusesCocoon, List.any_eq_true, mem_partNumbers, Bool.and_eq_true, Bool.or_eq_true, Bool.not_eq_true', and_assoc, or_assoc]

theorem Device.cocoonRequest_of_running {d : Device} (hphase : d.phase = .running) (hstage : d.stage = none) :
    d.cocoonRequest = if d.refusesCocoon then d.setRegBit .pwrCstat 1 true
      else ({ d.closeReleased partNumbers with phase := .cocoonDrain } : Device).setRegBit .pwrCstat 0 true := by
  unfold Device.cocoonRequest
  rw [hphase, hstage]
  rfl

/-! ### Cocoon is entered (R37, R191) -/

/-- Is an address in a memory that Cocoon loses (R191)? -/
def lostInCocoon (a : Nat) : Bool := match regionOf a with | some (.scratch _) => true | some (.dram _) => true | some .points => true | _ => false

/-- Scratchpads and DRAM are lost, and what was never stored to there reads 0. -/
theorem lostInCocoon_of_ram {a : Nat} (h : (∃ e, regionOf a = some (.scratch e)) ∨ ∃ g, regionOf a = some (.dram g)) :
    lostInCocoon a = true ∧ physBlank a = 0 := by
  have hflash : regionOf a ≠ some (.flash ((a - 0x300000000) / 0x800000)) := by
    obtain ⟨x, hx⟩ | ⟨x, hx⟩ := h <;> simp [hx]
  refine ⟨by obtain ⟨x, hx⟩ | ⟨x, hx⟩ := h <;> simp [lostInCocoon, hx], if_neg fun hrange => hflash ?_⟩
  unfold regionOf
  rw [if_neg (by omega), if_neg (by omega), if_neg (by omega), if_pos hrange]

theorem lostInCocoon_of_kept {a : Nat} (hscratch : ∀ e, regionOf a ≠ some (.scratch e)) (hdram : ∀ g, regionOf a ≠ some (.dram g))
    (hpoints : regionOf a ≠ some .points) : lostInCocoon a = false := by
  unfold lostInCocoon
  split
  · exact absurd ‹_› (hscratch _)
  · exact absurd ‹_› (hdram _)
  · exact absurd ‹_› hpoints
  · rfl

/-- A filtered memory reads as before where the filter keeps an address, and as never stored to elsewhere. -/
theorem Cells.read_filter (blank : Nat → Byte) (keep : Nat → Bool) (cells : List Host.Cell) (a : Nat) :
    Cells.read blank (cells.filter (fun c => keep c.1)) a = if keep a then Cells.read blank cells a else blank a := by
  induction cells with
  | nil => simp [Cells.read]
  | cons c cells ih =>
    obtain ⟨k, v⟩ := c
    by_cases hk : keep k = true
    · simp only [List.filter_cons, hk, if_true, Cells.read, ih]
      by_cases hka : k = a
      · subst hka
        simp [hk]
      · simp [hka]
    · have hne : keep a = true → k ≠ a := by rintro h rfl; exact hk h
      simp only [List.filter_cons, hk, Cells.read]
      split_ifs <;> simp_all

/-- The partitions that Cocoon stops stand as held (R37). -/
def Part.stopped (x : Part) : Part := if x.mode = .held then x else { x with mode := .held, inCocoon := true, scrubbing := false }

/-- Before Cocoon the casks are cut, the DRAM cache is written back and the probes are dropped. -/
def Device.tidyForCocoon (d : Device) : Device :=
  foldDev (fun d p => (((d.closeVintage p 7).writeBack p).dropProbes p).setRegBit .tmxStat (16 + p) false) d partNumbers

/-- What Cocoon loses (R37, R191). -/
def Device.loseForCocoon (d : Device) : Device :=
  { d with
    cache := [], phase := .cocoon, points := [], staleRanges := [], subs := [], routers := [], inFlight := [], namespaces := []
    lanes := d.lanes.map (fun (l : Nat × Lane) => (l.1, { l.2 with waiting := [], identPending := [], quiet := !d.wakeLane l.1 }))
    mem := d.mem.filter (fun c => !lostInCocoon c.1)
    marks := d.marks.filter (fun c => !lostInCocoon c.1)
    parts := d.parts.map (fun x => (x.1, x.2.stopped)) }

/-- The status registers of what stands off in Cocoon, and the domains. -/
def Device.shutForCocoon (d : Device) : Device :=
  let d := foldDev (fun d n => if d.wakeLane n then d else (d.setRegBit (.fldLstat n) 0 false).setRegBit (.fldLstat n) 4 false) d
    (List.range d.grade.fieldLanes)
  let d := foldDev (fun d m => d.setReg (.lnkStat m) 0) d (List.range 16)
  let d := foldDev (fun d p => foldDev (fun d r => d.setReg (.ptrSubuse p r) 0) d [0, 1, 2, 3]) d partNumbers
  let d := foldDev (fun d k => d.setReg (.stoPstat (k / 2) (k % 2)) 0) d [0, 1, 2, 3]
  let all := fun (_ : Nat) => true
  let asleep := fun (n : Nat) => !(List.range 8).any (fun i => d.wakeLane (8 * (n - 72) + i))
  ((((d.moveDomains 0 64 all .retain).moveDomains 64 8 all .off).moveDomains 72 8 asleep .off).moveDomains 80 3 all .off)

theorem Device.cocoonEnter_eq {d : Device} (hphase : d.phase = .cocoonDrain) (hcasks : ∀ p, p < 16 → (d.part p).recorder.casks = []) :
    d.cocoonEnter = d.tidyForCocoon.loseEngines.loseForCocoon.shutForCocoon.setRegBit .pwrCstat 0 false := by
  have hready : ¬ (d.phase ≠ .cocoonDrain ∨ partNumbers.any (fun p => !(d.part p).recorder.casks.isEmpty)) := by
    simp only [hphase, List.any_eq_true, mem_partNumbers, not_or, not_exists, not_and]
    exact ⟨by simp, fun p hp => by simp [hcasks p hp]⟩
  unfold Device.cocoonEnter
  rw [if_neg hready]
  rfl

/-- With every vintage closed, the tidying changes registers and the cache. -/
theorem Device.tidyForCocoon_eq {d : Device} (hclosed : ∀ p, p < 16 → (d.part p).recorder.open_ = none) :
    ∃ x : _ × _, d.tidyForCocoon = { d with regs := x.1, cache := x.2 } := by
  have hfold : ∀ (ps : List Nat) (d : Device), (∀ p ∈ ps, (d.part p).recorder.open_ = none) → ∃ x : _ × _,
      foldDev (fun d p => (((d.closeVintage p 7).writeBack p).dropProbes p).setRegBit .tmxStat (16 + p) false) d ps =
        { d with regs := x.1, cache := x.2 } := by
    intro ps
    induction ps with
    | nil => exact fun d _ => ⟨(d.regs, d.cache), rfl⟩
    | cons p ps ih =>
      intro d hps
      obtain ⟨rs, hrs⟩ := (d.writeBack p).dropProbes_eq p
      rw [foldDev, Device.closeVintage_of_closed (hps p (by simp)), hrs]
      exact ih _ fun q hq => hps q (by simp [hq])
  exact hfold partNumbers d fun p hp => hclosed p (mem_partNumbers.mp hp)

/-- A fold that stores registers changes registers. -/
theorem foldDev_regs {α : Type} {f : Device → α → Device} (hf : ∀ d x, ∃ rs, f d x = { d with regs := rs }) (d : Device) (xs : List α) :
    ∃ rs, foldDev f d xs = { d with regs := rs } :=
  foldDev_exists (set := fun d rs => { d with regs := rs }) (fun _ _ _ => rfl) (fun d => ⟨d.regs, rfl⟩) hf d xs

/-- What stands off in Cocoon is seen in registers and domains alone. -/
theorem Device.shutForCocoon_eq (d : Device) : ∃ x : _ × _, d.shutForCocoon = { d with regs := x.1, domains := x.2 } := by
  obtain ⟨r₁, h₁⟩ := foldDev_regs (f := fun d n => if d.wakeLane n then d else (d.setRegBit (.fldLstat n) 0 false).setRegBit (.fldLstat n) 4 false)
    (fun d n => by split_ifs; exacts [⟨d.regs, rfl⟩, ⟨_, rfl⟩]) d (List.range d.grade.fieldLanes)
  obtain ⟨r₂, h₂⟩ := foldDev_regs (f := fun d m => d.setReg (.lnkStat m) 0) (fun d m => ⟨_, rfl⟩) { d with regs := r₁ } (List.range 16)
  obtain ⟨r₃, h₃⟩ := foldDev_regs (f := fun d p => foldDev (fun d r => d.setReg (.ptrSubuse p r) 0) d [0, 1, 2, 3])
    (fun d p => foldDev_regs (fun d r => ⟨_, rfl⟩) d _) { d with regs := r₂ } partNumbers
  obtain ⟨r₄, h₄⟩ := foldDev_regs (f := fun d k => d.setReg (.stoPstat (k / 2) (k % 2)) 0) (fun _ _ => ⟨_, rfl⟩)
    { d with regs := r₃ } [0, 1, 2, 3]
  unfold Device.shutForCocoon
  rw [h₁]
  dsimp only
  rw [h₂]
  dsimp only
  rw [h₃, h₄]
  dsimp only
  obtain ⟨s₁, g₁⟩ := ({ d with regs := r₄ } : Device).moveDomains_eq 0 64 (fun _ => true) .retain
  rw [g₁]
  obtain ⟨s₂, g₂⟩ := ({ d with regs := r₄, domains := s₁ } : Device).moveDomains_eq 64 8 (fun _ => true) .off
  rw [g₂]
  generalize (fun n => !(List.range 8).any fun i => _) = asleep
  obtain ⟨s₃, g₃⟩ := ({ d with regs := r₄, domains := s₂ } : Device).moveDomains_eq 72 8 asleep .off
  rw [g₃]
  obtain ⟨s₄, g₄⟩ := ({ d with regs := r₄, domains := s₃ } : Device).moveDomains_eq 80 3 (fun _ => true) .off
  rw [g₄]
  exact ⟨(r₄, s₄), rfl⟩

/-- Settles O35: a refusal sets a bit, the drain closes the vintages, and the end of it loses what Cocoon does not retain. -/
theorem cocoonIsEntered : Obligations.CocoonIsEntered := by
  intro s d busy
  refine ⟨fun hphase hstage hbusy => ?_, fun hphase hstage hbusy => ?_, fun _ hphase hidle => ?_⟩
  · have hdev : d.cocoonRequest = d.setRegBit .pwrCstat 1 true := by
      rw [Device.cocoonRequest_of_running hphase hstage, if_pos (d.refusesCocoon_iff.mpr hbusy)]
    refine exec_leads rfl hdev ?_
    have hbits := fun j => bit_setBit (d.reg .pwrCstat) 1 j true (by omega)
    exact ⟨OnlyRegs.setReg s .pwrCstat _, by simp [hbits], by simp [hbits]⟩
  · have hdev := Device.cocoonRequest_of_running hphase hstage
    rw [if_neg (mt d.refusesCocoon_iff.mp hbusy)] at hdev
    have hsettles := d.closeReleased_settles partNumbers
    have hopen := fun (p : Nat) (hp : p < 16) => d.open_closeReleased (mem_partNumbers.mpr hp)
    refine exec_leads rfl hdev ?_
    generalize d.closeReleased partNumbers = d' at hsettles hopen
    have hbits := fun w => bit_setBit w 0 0 true (by omega)
    refine ⟨rfl, rfl, by simp [hbits], hopen, hsettles.mem, hsettles.points, hsettles.engines⟩
  · obtain ⟨x, hx⟩ := Device.tidyForCocoon_eq fun p hp => (hidle p hp).2
    obtain ⟨y, hy⟩ := Device.shutForCocoon_eq d.tidyForCocoon.loseEngines.loseForCocoon
    have hdev := Device.cocoonEnter_eq hphase fun p hp => (hidle p hp).1
    rw [hy, hx] at hdev
    refine exec_leads rfl hdev ?_
    have hbits := fun w => bit_setBit w 0 0 false (by omega)
    have hmem := fun a => Cells.read_filter physBlank (fun a => !lostInCocoon a) d.mem a
    refine ⟨rfl, rfl, by simp [hbits], fun p hp => ?_, rfl, rfl, rfl, fun a ha => ?_, fun a hscratch hdram hpoints => ?_⟩
    · have hpart := Assoc.get_map_rel (R := fun (x y : Part) => x.mode ≠ .held → y.mode = .held ∧ y.inCocoon = true) p
        (f := fun x => (x.1, x.2.stopped)) (a := {}) (b := {}) (fun _ => rfl) (fun x _ hx => by simp [Part.stopped, hx]) (by simp) d.parts
      exact hpart hp
    · obtain ⟨hlost, hblank⟩ := lostInCocoon_of_ram ha
      exact (hmem a).trans (by simp [hlost, hblank])
    · have hkept := lostInCocoon_of_kept hscratch hdram hpoints
      exact (hmem a).trans (by simp [hkept]; rfl)

end Sys2Proof.Machine
end

section
/-! SUPPORT and proofs: the admission epoch of a held partition; O32. -/

namespace Sys2Proof.Machine

/-! ### The watchdogs at an epoch (R408, R489) -/

/-- The second block differs from the first in what the watchdogs count and raise. -/
structure Device.Watched (d d' : Device) : Prop where
  rest : ∃ x : Nat × Bool × _ × _ × Assoc Nat Part,
    d' = { d with mwdCount := x.1, mwdPre := x.2.1, raises := x.2.2.1, heldRaises := x.2.2.2.1, parts := x.2.2.2.2 }
  parts : ∀ q, { d'.part q with wdCount := (d.part q).wdCount, wdPre := (d.part q).wdPre } = d.part q

namespace Device.Watched

theorem refl (d : Device) : d.Watched d := ⟨⟨(d.mwdCount, d.mwdPre, d.raises, d.heldRaises, d.parts), rfl⟩, fun _ => rfl⟩

theorem trans {a b c : Device} (h : a.Watched b) (h' : b.Watched c) : a.Watched c := by
  refine ⟨?_, fun q => ?_⟩
  · obtain ⟨x, hx⟩ := h.rest
    obtain ⟨y, hy⟩ := h'.rest
    exact ⟨y, by rw [hy, hx]⟩
  · have hq := h'.parts q
    rw [← h.parts q, ← hq]

theorem foldDev {α : Type} {f : Device → α → Device} (hf : ∀ (d : Device) x, d.Watched (f d x)) (d : Device) (xs : List α) :
    d.Watched (foldDev f d xs) := by
  induction xs generalizing d with
  | nil => exact refl d
  | cons x xs ih => exact (hf d x).trans (ih (f d x))

theorem ite {d a b : Device} {c : Prop} [Decidable c] (h : d.Watched a) (h' : d.Watched b) : d.Watched (if c then a else b) := by
  split_ifs
  · exact h
  · exact h'

theorem raise (d : Device) (n : Nat) : d.Watched (d.raise n) := by
  obtain ⟨rs, hs, h⟩ := d.raise_eq n
  rw [h]
  exact ⟨⟨(d.mwdCount, d.mwdPre, rs, hs, d.parts), rfl⟩, fun _ => rfl⟩

/-- The module's watchdog counts. -/
theorem moduleCounts (d : Device) (n : Nat) (b : Bool) : d.Watched { d with mwdCount := n, mwdPre := b } :=
  ⟨⟨(n, b, d.raises, d.heldRaises, d.parts), rfl⟩, fun _ => rfl⟩

/-- A partition's watchdog counts. -/
theorem onPart (d : Device) (p : Nat) {f : Part → Part} (hf : ∀ x : Part, { f x with wdCount := x.wdCount, wdPre := x.wdPre } = x) :
    d.Watched (d.onPart p f) := by
  refine ⟨⟨(d.mwdCount, d.mwdPre, d.raises, d.heldRaises, _), rfl⟩, fun q => ?_⟩
  by_cases hq : q = p
  · subst hq
    rw [Device.onPart_self]
    exact hf _
  · rw [Device.onPart_other _ _ _ _ hq]

theorem watchdogs (d : Device) : d.Watched d.watchdogs := by
  unfold Device.watchdogs
  refine Device.Watched.trans (ite (ite ?_ ?_) (refl d)) (foldDev (fun d p => ite (ite ?_ ?_) (refl d)) _ partNumbers)
  · exact (moduleCounts d _ _).trans (raise _ _)
  · exact moduleCounts d _ d.mwdPre
  · exact ((onPart d p (f := fun x => { x with wdCount := x.wdCount + 1 }) fun _ => rfl).trans
      (onPart _ p (f := fun x => { x with wdPre := true }) fun _ => rfl)).trans (raise _ _)
  · exact onPart d p (f := fun x => { x with wdCount := x.wdCount + 1 }) fun _ => rfl

section
variable {d d' : Device} (h : d.Watched d')
include h

theorem keeps : d'.pace = d.pace ∧ (∀ r, d'.reg r = d.reg r) ∧ (∀ e, d'.eng e = d.eng e) ∧ d'.points = d.points := by
  obtain ⟨x, hx⟩ := h.rest
  rw [hx]
  exact ⟨rfl, fun _ => rfl, fun _ => rfl, rfl⟩

theorem agrees : d.Agrees d' := by
  obtain ⟨x, hx⟩ := h.rest
  rw [hx]
  exact ⟨fun _ _ => rfl, rfl, rfl, rfl, rfl, rfl, rfl, rfl, rfl, rfl⟩

theorem part (q : Nat) : (d'.part q).holds = (d.part q).holds ∧ (d'.part q).mode = (d.part q).mode ∧ (d'.part q).reason = (d.part q).reason ∧
    (d'.part q).pending = (d.part q).pending ∧ (d'.part q).recorder = (d.part q).recorder := by
  rw [← h.parts q]
  exact ⟨rfl, rfl, rfl, rfl, rfl⟩

end

end Device.Watched

/-! ### A vintage opens within a grant window (R356, R357) -/

namespace Device.Records

/-- The grant window that runs goes on. -/
theorem running {d d' : Device} (h : d.Records d') (hrun : d.now < d.pace.windowNext * 64) : d'.now < d'.pace.windowNext * 64 := by
  unfold Device.now at *
  rw [h.pace]
  exact hrun

/-- A checkpoint within a grant window. -/
theorem checkpoint_of_running {d : Device} (h : d.now < d.pace.windowNext * 64) (p : Nat) (full : Bool) : d.Records (d.checkpoint p full) := by
  have hfresh : d.Records { d with fresh := d.fresh + 1 } := ⟨⟨(d.regs, d.parts, d.targets, d.fresh + 1, d.blocks), rfl⟩, fun _ _ => rfl, fun _ => rfl⟩
  unfold Device.checkpoint
  dsimp only
  cases (d.part p).recorder.open_ with
  | none => exact refl d
  | some v => exact ite (hfresh.trans (closeVintage_of_running (hfresh.running h) p 9)) (hfresh.trans (onRec _ p _))

/-- An opening within a grant window changes what recording does. -/
theorem openVintage_of_running {d : Device} (h : d.now < d.pace.windowNext * 64) (p : Nat) : d.Records (d.openVintage p) := by
  unfold Device.openVintage
  by_cases hmay : (!d.mayOpen p) = true
  · rw [if_pos hmay]
    exact refl d
  rw [if_neg hmay]
  obtain ⟨home, r⟩ := d.nextHome p
  have hfreed := freed d p r
  have hopened := fun f v => (hfreed.trans (onRec _ p f)).trans (writeIndex _ v)
  have hshown := fun f v w₁ w₂ => ((hopened f v).trans (setReg _ (r := .celVinl p) rfl w₁)).trans (setReg _ (r := .celVinh p) rfl w₂)
  have hstat := fun f v w₁ w₂ w₃ => (hshown f v w₁ w₂).trans (setReg _ (r := .celStat p) rfl w₃)
  have hrecord := fun f v w₁ w₂ w₃ payload => (hstat f v w₁ w₂ w₃).trans (append _ p recOPEN srcModule payload)
  exact ite hfreed ((hrecord _ _ _ _ _ _).trans (checkpoint_of_running ((hrecord _ _ _ _ _ _).running h) p true))

end Device.Records

/-! ### The epoch of one partition (R310) -/

/-- A held partition that stays held. -/
theorem Device.epochPart_of_held {d : Device} {q : Nat} (hheld : d.released q = false) (hstays : d.mayRelease q = false) : d.epochPart q = d := by
  simp [Device.epochPart, hheld, hstays]

/-- A release leads to Free mode, Paced or Recovery. -/
theorem Device.releaseMode_modes (d : Device) (p : Nat) : (d.releaseMode p).1 ≠ .held ∧ (d.releaseMode p).1 ≠ .decant := by
  unfold Device.releaseMode
  dsimp only
  split
  · simp
  · split
    · split <;> simp
    all_goals simp

/-- The mode that a release leads to, and whether PACE_LOSS decides it (R32, R33). -/
theorem Device.releaseMode_eq (d : Device) (p : Nat) :
    (d.releaseMode p).1 = (if (d.part p).escalated ∧ (d.part p).widest ≤ 3 then .recovery else
      match fld (d.reg (.parStart p)) 0 3 with | 2 => if 1 < d.pace.s then .free else .paced | 4 => .recovery | _ => .free) ∧
    ((d.releaseMode p).2 = true ↔ ((d.part p).escalated = false ∨ 3 < (d.part p).widest) ∧ fld (d.reg (.parStart p)) 0 3 = 2 ∧ 1 < d.pace.s) := by
  unfold Device.releaseMode Device.paceLoss
  generalize fld (d.reg (.parStart p)) 0 3 = start
  by_cases hwide : (d.part p).escalated = true ∧ (d.part p).widest ≤ 3
  · have hnot : ¬ ((d.part p).escalated = false ∨ 3 < (d.part p).widest) := by simp [hwide.1]; omega
    simp only [if_pos hwide, hnot, false_and]
    simp
  · have hyes : (d.part p).escalated = false ∨ 3 < (d.part p).widest := by
      by_cases hesc : (d.part p).escalated = true
      · exact .inr (by simp [hesc] at hwide; omega)
      · exact .inl (by simpa using hesc)
    simp only [if_neg hwide, hyes, true_and]
    split
    · by_cases hs : 1 < d.pace.s <;> simp [hs]
    · simp
    · simp_all

/-- The epoch releases a partition, and a vintage may open (R32, R357). -/
theorem Device.epochPart_of_mayRelease {d : Device} {p : Nat} (hmay : d.mayRelease p = true) (hgo : d.ejectStopped = false)
    (hpending : (d.part p).pending = none) (hclosed : (d.part p).recorder.open_ = none) (hpause : bit (d.reg (.celStat p)) 3 = false) :
    d.epochPart p = (d.release p).openVintage p := by
  have hvalid : d.valid p = true := by
    simp only [Device.mayRelease, Bool.and_eq_true] at hmay
    tauto
  obtain ⟨hmode, -, -, hpend, hopen⟩ := Device.release_part_self hclosed
  obtain ⟨hheld, hdecant⟩ := d.releaseMode_modes p
  have hreleased : (d.release p).released p = true := by simp [Device.released, hmode, hheld]
  have hjudge : (d.release p).judge p = d.release p := by simp [Device.judge, hpend, hpending]
  have hrun : (d.release p).runDecant p = d.release p := by simp [Device.runDecant, Device.decantOf, hmode, hdecant]
  have hrestart : (d.release p).restartEngines p = d.release p := by
    have hnone : ((d.release p).partEngines p).filter (fun e => (d.release p).enginesReset.any (fun x => decide (x.1 = e)) &&
        !(d.release p).engineCovered e) = [] := by
      rw [List.filter_eq_nil_iff, (Device.Agrees.release hclosed).partEngines p]
      intro e he
      have hreset := Device.release_enginesReset hclosed he
      simp only [Bool.and_eq_true, List.any_eq_true, decide_eq_true_eq, not_and]
      rintro ⟨x, hx, hxe⟩
      exact absurd hxe (hreset x hx)
    unfold Device.restartEngines
    rw [hnone]
    rfl
  have hpaused : (d.release p).pausedPart p = false := by
    unfold Device.pausedPart
    rw [Device.release_reg hclosed rfl (by simp)]
    exact hpause
  unfold Device.epochPart
  simp [hvalid, hgo, hmay, hreleased, hjudge, hrun, hrestart, hpaused, hopen]

/-- A fold without a step that acts. -/
theorem foldDev_idle {α : Type} {f : Device → α → Device} (d : Device) {xs : List α} (h : ∀ x ∈ xs, f d x = d) : foldDev f d xs = d := by
  induction xs with
  | nil => rfl
  | cons x xs ih =>
    rw [foldDev, h x (by simp)]
    exact ih fun y hy => h y (by simp [hy])

/-- A fold in which one step acts is that step. -/
theorem foldDev_single {α : Type} {f : Device → α → Device} {d : Device} {x : α} {xs : List α} (hx : x ∈ xs) (hnodup : xs.Nodup)
    (hbefore : ∀ y ∈ xs, y ≠ x → f d y = d) (hafter : ∀ y ∈ xs, y ≠ x → f (f d x) y = f d x) : foldDev f d xs = f d x := by
  induction xs with
  | nil => simp at hx
  | cons y ys ih =>
    obtain ⟨hy, hys⟩ := List.nodup_cons.mp hnodup
    rw [foldDev]
    by_cases hyx : y = x
    · subst hyx
      exact foldDev_idle _ fun z hz => hafter z (by simp [hz]) (by rintro rfl; exact hy hz)
    · rw [hbefore y (by simp) hyx]
      exact ih (by simpa [Ne.symm hyx] using hx) hys (fun z hz => hbefore z (by simp [hz])) fun z hz => hafter z (by simp [hz])

/-- The epoch that has come is counted. -/
def Device.countEpoch (d : Device) : Device := { d with pace := { d.pace with epochNext := d.now / 65536 + 1 } }

theorem Device.Agrees.countEpoch (d : Device) : d.Agrees d.countEpoch := ⟨fun _ _ => rfl, rfl, rfl, rfl, rfl, rfl, rfl, rfl, rfl, rfl⟩

/-- A partition that is not released loses nothing with a stack (R401). -/
theorem Device.stackLoss_of_held {d : Device} {q : Nat} (h : d.released q = false) : d.stackLoss q = d := by
  have hmode : (d.part q).mode = .held := by simpa [Device.released] using h
  simp [Device.stackLoss, Device.pacedPart, hmode]

/-- An epoch of a running module with every partition held and no unit on its way back: the watchdogs count, and each partition is looked at. -/
theorem Device.admissionEpoch_of_held {d : Device} (hdue : d.pace.epochNext * 65536 ≤ d.now) (hreturning : d.returning = [])
    (hphase : d.phase = .running) (hstage : d.stage = none) (hheld : ∀ q, q < 16 → d.released q = false) :
    d.admissionEpoch = foldDev (fun d p => d.epochPart p) d.countEpoch.watchdogs partNumbers := by
  have hadmit : d.countEpoch.admitUnits = d.countEpoch := by
    have hnone : d.countEpoch.returning = [] := hreturning
    unfold Device.admitUnits
    rw [hnone]
    simp only [List.filter_nil, foldDev]
    rw [← hnone]
  have hbegin : d.countEpoch.beginRelease = d.countEpoch := by
    have hnone : d.countEpoch.stage = none := hstage
    simp [Device.beginRelease, hnone]
  have heject : d.countEpoch.epochEject = d.countEpoch := by
    have hrunning : d.countEpoch.phase = .running := hphase
    simp [Device.epochEject, hrunning]
  have hstack : foldDev (fun d p => d.stackLoss p) d.countEpoch.watchdogs partNumbers = d.countEpoch.watchdogs :=
    foldDev_idle _ fun q hq => Device.stackLoss_of_held (by
      have hmode := ((Device.Watched.watchdogs d.countEpoch).part q).2.1
      have hq' := hheld q (mem_partNumbers.mp hq)
      unfold Device.released at *
      rwa [hmode])
  unfold Device.admissionEpoch
  rw [if_neg (by omega)]
  change foldDev (fun d p => d.epochPart p) (foldDev (fun d p => d.stackLoss p) d.countEpoch.admitUnits.beginRelease.epochEject.watchdogs partNumbers)
    partNumbers = _
  rw [hadmit, hbegin, heject, hstack]

section
variable {d : Device} {p : Nat} (hclosed : (d.part p).recorder.open_ = none)
include hclosed

/-- After a release a vintage opens within the grant window that runs, or none does (R356, R357). -/
theorem Device.Records.openVintage_of_release (hwindow : d.now < d.pace.windowNext * 64 ∨ bit (d.reg (.celCtl p)) 0 = false) :
    (d.release p).Records ((d.release p).openVintage p) := by
  obtain hrun | hoff := hwindow
  · refine Device.Records.openVintage_of_running ?_ p
    unfold Device.now
    rw [Device.release_pace hclosed]
    exact hrun
  · have hctl : bit ((d.release p).reg (.celCtl p)) 0 = false := by
      rw [Device.release_reg hclosed rfl (by simp)]
      exact hoff
    have hnone : (d.release p).openVintage p = d.release p := by simp [Device.openVintage, Device.mayOpen, hctl]
    rw [hnone]
    exact .refl _

end

/-- What the epoch of a released partition leads to and leaves (R32, R160, R421). -/
structure Device.EpochReleased (d : Device) (p : Nat) (d' : Device) : Prop where
  agrees : d.Agrees d'
  mode : (d'.part p).mode = (d.releaseMode p).1
  reason : (d'.part p).reason = if (d.releaseMode p).2 then 4 else (d.part p).reason
  started : ∀ e, e ∈ d.partEngines p → (d'.eng e).run = .running ∧ (d'.eng e).pc = d.entry p (d.releaseMode p).1 ∧
    (d'.eng e).st = { grd := true } ∧ (d'.eng e).step = 0 ∧ (d'.eng e).lines = []
  engines : ∀ e, e ∉ d.partEngines p → d'.eng e = d.eng e
  lanes : ∀ n, n ∈ d.partLanes p → bit (d'.reg (.fldLstat n)) 1 = true
  pace : d'.pace = d.pace
  points : (d.releaseMode p).1 ≠ .recovery → d'.points = d.points
  others : ∀ q, q ≠ p → (d'.part q).holds = (d.part q).holds

section
variable {d : Device} {p : Nat} (hmay : d.mayRelease p = true) (hgo : d.ejectStopped = false) (hpending : (d.part p).pending = none)
  (hclosed : (d.part p).recorder.open_ = none) (hpause : bit (d.reg (.celStat p)) 3 = false)
  (hwindow : d.now < d.pace.windowNext * 64 ∨ bit (d.reg (.celCtl p)) 0 = false)
include hmay hgo hpending hclosed hpause hwindow

theorem Device.EpochReleased.epochPart : d.EpochReleased p (d.epochPart p) := by
  have hrecords := Device.Records.openVintage_of_release hclosed hwindow
  rw [Device.epochPart_of_mayRelease hmay hgo hpending hclosed hpause]
  generalize (d.release p).openVintage p = d' at hrecords
  obtain ⟨hmode, hreason, -⟩ := Device.release_part_self hclosed
  obtain ⟨hmode', hreason', -⟩ := hrecords.part p
  refine ⟨(Device.Agrees.release hclosed).trans hrecords.agrees, hmode'.trans hmode, hreason'.trans hreason, fun e he => ?_,
    fun e he => (hrecords.eng e).trans (Device.release_eng_other hclosed he), fun n hn => ?_, hrecords.pace.trans (Device.release_pace hclosed),
    fun hm => hrecords.points.trans (Device.release_points hm), fun q hq => ?_⟩
  · rw [hrecords.eng e]
    exact Device.release_started hclosed he hgo
  · rw [hrecords.regs (.fldLstat n) rfl]
    exact Device.release_lanes hclosed hn
  · have hpart := hrecords.parts q
    rw [Device.release_part_other hclosed hq] at hpart
    rw [← hpart]
    rfl

/-- Where the other partitions stay held, the epoch is that of the one. -/
theorem Device.epochParts_single (hp : p < 16) (hothers : ∀ q, q < 16 → q ≠ p → d.released q = false ∧ d.mayRelease q = false) :
    foldDev (fun d p => d.epochPart p) d partNumbers = d.epochPart p := by
  have hone := Device.EpochReleased.epochPart hmay hgo hpending hclosed hpause hwindow
  refine foldDev_single (f := fun d p => d.epochPart p) (mem_partNumbers.mpr hp) (by decide) (fun q hq hqp => ?_) (fun q hq hqp => ?_)
  · obtain ⟨hheld, hstays⟩ := hothers q (mem_partNumbers.mp hq) hqp
    exact Device.epochPart_of_held hheld hstays
  · obtain ⟨hheld, hstays⟩ := hothers q (mem_partNumbers.mp hq) hqp
    have hholds := hone.others q hqp
    have hmode : ((d.epochPart p).part q).mode = (d.part q).mode := congrArg Prod.fst hholds
    refine Device.epochPart_of_held ?_ ((hone.agrees.mayRelease hholds (congrArg Pace.s hone.pace)).trans hstays)
    unfold Device.released at *
    rwa [hmode]

end

/-- Settles O32: the watchdogs count, the one partition that may be released is, and a vintage of it may open. -/
theorem epochReleasesPartition : Obligations.EpochReleasesPartition := by
  intro s p d x m
  refine ⟨fun hbefore => ?_, fun hdue hreturning hgo hmay hpending hclosed hpause hwindow hothers => ?_⟩
  · have hdev : d.admissionEpoch = d := if_pos hbefore
    exact exec_of_dev rfl hdev
  have hmay' := hmay
  simp only [Device.mayRelease, Bool.and_eq_true, decide_eq_true_eq, Option.isNone_iff_eq_none, Bool.not_eq_true', and_assoc] at hmay'
  obtain ⟨hvalid, hheld, -, hphase, hstage, -⟩ := hmay'
  have hp : p < 16 := by
    simp only [Device.valid, Bool.and_eq_true, decide_eq_true_eq] at hvalid
    exact hvalid.1
  have hdev := Device.admissionEpoch_of_held hdue hreturning hphase hstage fun q hq => by
    by_cases hqp : q = p
    · rw [hqp]; exact hheld
    · exact (hothers q hq hqp).1
  have hwatched := Device.Watched.watchdogs d.countEpoch
  generalize d.countEpoch.watchdogs = b at hdev hwatched
  obtain ⟨hpace, hreg, heng, hpoints⟩ := hwatched.keeps
  have hagrees : d.Agrees b := (Device.Agrees.countEpoch d).trans hwatched.agrees
  have hs : b.pace.s = d.pace.s := by rw [hpace]; rfl
  have hstays : ∀ q, b.mayRelease q = d.mayRelease q := fun q => hagrees.mayRelease (hwatched.part q).1 hs
  obtain ⟨hholds, -, hreason, hpending', hrecorder⟩ := hwatched.part p
  have hclosed' : (b.part p).recorder.open_ = none := by rw [hrecorder]; exact hclosed
  have hpause' : bit (b.reg (.celStat p)) 3 = false := by rw [hreg]; exact hpause
  have hwindow' : b.now < b.pace.windowNext * 64 ∨ bit (b.reg (.celCtl p)) 0 = false := by
    unfold Device.now
    rw [hpace, hreg]
    exact hwindow
  have hmay'' := (hstays p).trans hmay
  have hone := Device.EpochReleased.epochPart hmay'' (hagrees.ejectStopped.trans hgo) (hpending'.trans hpending) hclosed' hpause' hwindow'
  rw [Device.epochParts_single hmay'' (hagrees.ejectStopped.trans hgo) (hpending'.trans hpending) hclosed' hpause' hwindow' hp fun q hq hqp => by
    rw [hstays, Device.released, (hwatched.part q).2.1]
    exact hothers q hq hqp] at hdev
  generalize b.epochPart p = c at hdev hone
  obtain ⟨hmode, hlate⟩ := d.releaseMode_eq p
  have hrelease : b.releaseMode p = d.releaseMode p := hagrees.releaseMode hholds hs
  obtain ⟨hagrees', hmode', hreason', hstarted, hengines, hlanes, hpace', hpoints', -⟩ := hone
  rw [hrelease, hmode] at hmode' hpoints'
  rw [hrelease, hreason] at hreason'
  rw [hrelease, hagrees.entry, hagrees.partEngines, hmode] at hstarted
  rw [hagrees.partEngines] at hengines
  rw [hagrees.partLanes] at hlanes
  refine exec_leads rfl hdev ?_
  exact ⟨rfl, hmode', hreason'.trans (if_congr hlate rfl rfl), hstarted, fun e he => (hengines e he).trans (heng e), hlanes, hpace'.trans hpace,
    hagrees'.mem.trans hagrees.mem, fun hm => (hpoints' hm).trans hpoints⟩

end Sys2Proof.Machine
end

section
/-! SUPPORT and proofs: how received frames are checked and taken; O26. -/

namespace Sys2Proof.Machine

/-! ### Lists by key -/

theorem Assoc.has_put_self {κ α : Type} [DecidableEq κ] (t : Assoc κ α) (k : κ) (x : α) : (Assoc.put t k x).has k = true := by
  induction t with
  | nil => simp [Assoc.put, Assoc.has]
  | cons y t ih =>
    by_cases hy : y.1 = k
    · simp [Assoc.put, Assoc.has, hy]
    · simp only [Assoc.has] at ih
      simp [Assoc.put, Assoc.has, hy, ih]

theorem Assoc.has_erase_self {κ α : Type} [DecidableEq κ] (t : Assoc κ α) (k : κ) : (Assoc.erase t k).has k = false := by
  simp [Assoc.erase, Assoc.has]

/-! ### The counts of a lane (R429) -/

section
variable (d : Device) (n k : Nat)

theorem Device.count_eq : ∃ rs, d.count n k = { d with regs := rs } := d.bump_eq ..

theorem Device.count_other {r : Reg} (hr : r ≠ .fldCnt n k) : (d.count n k).reg r = d.reg r := d.bump_other _ r 0 32 hr

/-- A count goes up by one and stops at its greatest value. -/
theorem Device.toNat_count : ((d.count n k).reg (.fldCnt n k)).toNat = min (2 ^ 32 - 1) ((d.reg (.fldCnt n k)).toNat + 1) := by
  have hword : ∀ w : Word, fld w 0 32 = w.toNat := fun w => by simp [fld, Nat.mod_eq_of_lt w.isLt]
  have hcount := d.fld_bump (.fldCnt n k) 0 32 (by norm_num)
  rw [hword, hword] at hcount
  rw [Device.count, hcount]

end

/-- A command that counts changes that count alone. -/
theorem exec_count {i : Instr} {s : State} {f : Device → Device} (hi : exec i s = .next (s.onDev f)) {n k : Nat} (h : f s.dev = s.dev.count n k) :
    ∃ t, exec i s = .next t ∧ OnlyRegs s t [.fldCnt n k] ∧
      (t.dev.reg (.fldCnt n k)).toNat = min (2 ^ 32 - 1) ((s.dev.reg (.fldCnt n k)).toNat + 1) := by
  obtain ⟨rs, hrs⟩ := s.dev.count_eq n k
  refine exec_leads hi h ?_
  refine ⟨⟨rfl, ?_, fun r hr => s.dev.count_other n k (by simpa using hr)⟩, s.dev.toNat_count n k⟩
  rw [hrs]

/-! ### The checks of a frame (R413, R417) -/

section
variable {d : Device} {n p : Nat} {bytes : List Byte} (hup : d.laneUp n = true) (hlen : d.lengthOk n bytes.length = true)
  (howner : d.laneOwner n = some p) (hlive : d.modeNow p ≠ .decant)
include hup hlen howner hlive

/-- A frame of a lane that is up and in no Decant is judged by its FCS, its Ethertype and its header. -/
theorem Device.frameReceive_of_up (good : Bool) : d.frameReceive n bytes good =
    if !good then d.count n cntBADFCS else if !isKryene bytes then d.plainReceive n bytes else d.kryeneReceive n bytes := by
  have hmuted : d.laneMuted n = false := by simp [Device.laneMuted, howner, hlive]
  simp [Device.frameReceive, hup, hlen, hmuted]

theorem Device.frameReceive_of_kryene (hk : isKryene bytes = true) : d.frameReceive n bytes true = d.kryeneReceive n bytes := by
  rw [Device.frameReceive_of_up hup hlen howner hlive true, hk]
  rfl

end

section
variable {d : Device} {n : Nat} {bytes : List Byte}

/-- A bad header is counted. -/
theorem Device.kryeneReceive_of_bad (h : (kryeneOf bytes).ver ≠ 1 ∨ (kryeneOf bytes).type = 0 ∨ 4 < (kryeneOf bytes).type ∨
    (kryeneOf bytes).reserved = true) : d.kryeneReceive n bytes = d.count n cntBADHDR := by
  unfold Device.kryeneReceive
  exact if_pos h

variable {p : Nat} (hver : (kryeneOf bytes).ver = 1) (htype : (kryeneOf bytes).type = 1) (hres : (kryeneOf bytes).reserved = false)
  (howner : d.laneOwner n = some p) (hheld : d.heldNow p = false) (halive : bit (d.reg (.fldLstat n)) 1 = true)
include hver htype hres howner hheld halive

/-- A cyclic frame that does not fit the descriptor of its index is counted. -/
theorem Device.kryeneReceive_of_unfit (h : (d.descriptor n (kryeneOf bytes).frame).inbound = false ∨ d.pdlenOk n (kryeneOf bytes).pdlen = false ∨
    (kryeneOf bytes).station ≠ (d.descriptor n (kryeneOf bytes).frame).station.toNat ∨
    (kryeneOf bytes).pdlen ≠ (d.descriptor n (kryeneOf bytes).frame).pdin ∨ (kryeneOf bytes).data.length < (kryeneOf bytes).pdlen) :
    d.kryeneReceive n bytes = d.count n cntBADHDR := by
  have hunfit : (!(d.descriptor n (kryeneOf bytes).frame).inbound || !d.pdlenOk n (kryeneOf bytes).pdlen ||
      decide ((kryeneOf bytes).station ≠ (d.descriptor n (kryeneOf bytes).frame).station.toNat ∨
        (kryeneOf bytes).pdlen ≠ (d.descriptor n (kryeneOf bytes).frame).pdin ∨ (kryeneOf bytes).data.length < (kryeneOf bytes).pdlen)) = true := by
    simp only [Bool.or_eq_true, Bool.not_eq_true', decide_eq_true_eq, or_assoc]
    exact h
  unfold Device.kryeneReceive
  simp only [hver, htype, hres, howner, hheld, halive, hunfit]
  simp

/-- The first cyclic frame of its index that fits its descriptor is accepted, where no late take has passed it. -/
theorem Device.kryeneReceive_of_fit (hin : (d.descriptor n (kryeneOf bytes).frame).inbound = true)
    (hlen : d.pdlenOk n (kryeneOf bytes).pdlen = true) (hstation : (kryeneOf bytes).station = (d.descriptor n (kryeneOf bytes).frame).station.toNat)
    (hpdin : (kryeneOf bytes).pdlen = (d.descriptor n (kryeneOf bytes).frame).pdin) (hdata : (kryeneOf bytes).pdlen ≤ (kryeneOf bytes).data.length)
    (hfirst : (d.lane n).lastCycle.find? (fun x => decide (x.1 = (kryeneOf bytes).frame)) = none)
    (hontime : ∀ x ∈ (d.lane n).lateAt, x.1 ≠ (kryeneOf bytes).frame) :
    d.kryeneReceive n bytes = d.acceptFrame n p bytes (kryeneOf bytes) false := by
  have hfit : (!(d.descriptor n (kryeneOf bytes).frame).inbound || !d.pdlenOk n (kryeneOf bytes).pdlen ||
      decide ((kryeneOf bytes).station ≠ (d.descriptor n (kryeneOf bytes).frame).station.toNat ∨
        (kryeneOf bytes).pdlen ≠ (d.descriptor n (kryeneOf bytes).frame).pdin ∨ (kryeneOf bytes).data.length < (kryeneOf bytes).pdlen)) = false := by
    simp [hin, hlen, hstation, ← hpdin, hdata]
  have hlate : (d.lane n).lateAt.any (fun x => decide (x.1 = (kryeneOf bytes).frame ∧ (d.rxStamp n bytes.length).toNat < x.2)) = false := by
    rw [List.any_eq_false]
    intro x hx
    simp [hontime x hx]
  unfold Device.kryeneReceive
  simp only [hver, htype, hres, howner, hheld, halive, hfit, hfirst, hlate]
  simp [cycleCheck]

end

/-- A lane after it took note of an accepted cyclic frame without DEVFLT. -/
def Lane.noted (k : Kryene) (l : Lane) : Lane :=
  { l with lastCycle := Assoc.put l.lastCycle k.frame k.cycle, devflt := Assoc.put l.devflt k.frame false }

/-- A frame waits for its take step. -/
def Lane.waitsFor (f : Nat) (w : Frame) (l : Lane) : Lane := { l with waiting := Assoc.put l.waiting f w }

/-- In Paced an accepted frame, the first that waits, is counted and waits with its timestamp (R417, R419). -/
theorem Device.acceptFrame_of_paced {d : Device} {n p : Nat} {bytes : List Byte} {k : Kryene} (hpaced : d.inPaced p = true)
    (hwaiting : (d.lane n).waiting.has k.frame = false) (hfault : k.devflt = false)
    (hid : (d.descriptor n k.frame).idtag = 0 ∨ k.idtag = (d.descriptor n k.frame).idtag) :
    d.acceptFrame n p bytes k false = ((d.count n cntRXOK).onLane n (·.noted k)).onLane n
      (·.waitsFor k.frame { bytes := bytes, stamp := d.rxStamp n bytes.length }) := by
  have hmatch : ¬ ((d.descriptor n k.frame).idtag ≠ 0 ∧ k.idtag ≠ (d.descriptor n k.frame).idtag) := by tauto
  have hpaced' : ((d.count n cntRXOK).onLane n (·.noted k)).inPaced p = true := by
    obtain ⟨rs, hrs⟩ := d.count_eq n cntRXOK
    rw [hrs]
    exact hpaced
  have hstamp : ((d.count n cntRXOK).onLane n (·.noted k)).rxStamp n bytes.length = d.rxStamp n bytes.length := by
    have hctl : (d.count n cntRXOK).reg (.fldLctl n) = d.reg (.fldLctl n) := d.count_other n cntRXOK (by simp)
    obtain ⟨rs, hrs⟩ := d.count_eq n cntRXOK
    unfold Device.rxStamp Device.wireNs
    rw [(Device.onLane_reads (d.count n cntRXOK) n _).1, hctl, hrs]
    rfl
  unfold Device.acceptFrame
  simp only [hfault, Bool.false_and, Bool.false_eq_true, if_false, hwaiting, if_neg hmatch]
  rw [← hstamp]
  exact if_pos hpaced'

/-! ### A take (R19, R20, R260) -/

section
variable (n f p now : Nat) (stamp : BitVec 48) (first : Bool) (pd : List Byte)

theorem length_scatterUpdates (es : List MapEntry) (i : Nat) : (scatterUpdates n f p now true stamp first pd es i).length = es.length := by
  induction es generalizing i with
  | nil => rfl
  | cons e es ih => simp [scatterUpdates, ih]

/-- Each map entry posts one update, with the bytes of its slot, at successive arrivals. -/
theorem getElem?_scatterUpdates (es : List MapEntry) (j i : Nat) (m : MapEntry) (h : es[i]? = some m) :
    (scatterUpdates n f p now true stamp first pd es j)[i]? = some
      { point := m.point, aux := m.aux, value := slotValue m pd, part := p, origin := .scatter n f (j + i) stamp first, trig := now, posted := now
        arrive := some (now + (j + i)), coalesced := false } := by
  induction es generalizing i j with
  | nil => simp at h
  | cons e es ih =>
    cases i with
    | zero =>
      obtain rfl : e = m := by simpa using h
      rfl
    | succ i =>
      have hrest := ih (j + 1) i (by simpa using h)
      rw [show j + 1 + i = j + (i + 1) by omega] at hrest
      exact hrest

end

/-- A scatter of a received frame posts its updates; what else it changes are raises and the mark of the first frame. -/
theorem Device.scatterLive_eq (d : Device) (n f p : Nat) (bytes : List Byte) (stamp : BitVec 48) :
    ∃ rs hs, d.scatterLive n f p bytes stamp = { d.onLane n (fun l => { l with rxFirst := false }) with
      inFlight := d.inFlight ++ scatterUpdates n f p d.now (d.inPaced p) stamp (d.lane n).rxFirst (kryeneOf bytes).data (d.entriesIn n f) 0
      raises := rs, heldRaises := hs } := by
  unfold Device.scatterLive Device.scatter
  dsimp only
  split_ifs
  · obtain ⟨rs, hs, h⟩ := Device.raise_eq { d.onLane n (fun l => { l with rxFirst := false }) with
      inFlight := d.inFlight ++ scatterUpdates n f p d.now (d.inPaced p) stamp (d.lane n).rxFirst (kryeneOf bytes).data (d.entriesIn n f) 0 } (2 * n)
    exact ⟨rs, hs, h⟩
  · exact ⟨d.raises, d.heldRaises, rfl⟩

/-- A point gains STALE (R20). -/
def Point.markLate (x : Point) : Point := { x with squal := x.squal ||| 2 }

/-- The points of some map entries gain STALE. -/
def Device.markLate (d : Device) (es : List MapEntry) : Device := foldDev (fun d e => d.onPoint e.point (·.markLate)) d es

theorem Device.markLate_eq (d : Device) (es : List MapEntry) : ∃ ps, d.markLate es = { d with points := ps } :=
  foldDev_exists (set := fun d ps => { d with points := ps }) (fun _ _ _ => rfl) (fun d => ⟨d.points, rfl⟩) (fun _ _ => ⟨_, rfl⟩) d es

theorem Device.markLate_other (d : Device) {es : List MapEntry} {k : Nat} (h : ∀ e ∈ es, e.point ≠ k) : (d.markLate es).point k = d.point k := by
  induction es generalizing d with
  | nil => rfl
  | cons e es ih =>
    refine (ih (d.onPoint e.point (·.markLate)) fun x hx => h x (by simp [hx])).trans ?_
    exact Device.onPoint_other d _ _ _ (h e (by simp)).symm

theorem Device.markLate_onLane (d : Device) (n : Nat) (g : Lane → Lane) (es : List MapEntry) :
    (d.onLane n g).markLate es = (d.markLate es).onLane n g := by
  induction es generalizing d with
  | nil => rfl
  | cons e es ih => exact ih (d.onPoint e.point (·.markLate))

/-- A point that is named gains STALE and keeps its value. -/
theorem Device.markLate_marked (d : Device) {es : List MapEntry} {e : MapEntry} (he : e ∈ es) :
    ((d.markLate es).point e.point).squal.getLsbD 1 = true ∧ ((d.markLate es).point e.point).value = (d.point e.point).value := by
  have hvalue : ∀ (d : Device) (x : MapEntry), ((d.onPoint x.point (·.markLate)).point e.point).value = (d.point e.point).value ∧
      (((d.point e.point).squal.getLsbD 1 = true ∨ x.point = e.point) → ((d.onPoint x.point (·.markLate)).point e.point).squal.getLsbD 1 = true) := by
    intro d x
    by_cases hx : e.point = x.point
    · rw [hx]
      simp [Point.markLate]
    · rw [Device.onPoint_other _ _ _ _ hx]
      exact ⟨rfl, fun h => h.resolve_right fun h => hx h.symm⟩
  have hfold : ∀ (es : List MapEntry) (d : Device), ((d.markLate es).point e.point).value = (d.point e.point).value ∧
      (((d.point e.point).squal.getLsbD 1 = true ∨ e ∈ es) → ((d.markLate es).point e.point).squal.getLsbD 1 = true) := by
    intro es
    induction es with
    | nil => exact fun d => ⟨rfl, fun h => h.resolve_right (by simp)⟩
    | cons x es ih =>
      intro d
      obtain ⟨hval, hmark⟩ := ih (d.onPoint x.point (·.markLate))
      obtain ⟨hval', hmark'⟩ := hvalue d x
      refine ⟨hval.trans hval', fun h => hmark ?_⟩
      by_cases hin : e ∈ es
      · exact .inr hin
      · refine .inl (hmark' (h.imp_right fun h => ?_))
        simp only [List.mem_cons, hin, or_false] at h
        rw [h]
  exact ⟨(hfold es d).2 (.inr he), (hfold es d).1⟩

/-- A late take counts, marks its points and notes the time; it may raise. -/
theorem Device.lateTake_eq (d : Device) (n f : Nat) :
    ∃ rs hs ls, d.lateTake n f = { (d.markLate (d.entriesIn n f)).count n cntLATE with raises := rs, heldRaises := hs, lanes := ls } := by
  have hmark : foldDev (fun d (e : MapEntry) => d.onPoint e.point (fun x => { x with squal := x.squal ||| 2 })) d (d.entriesIn n f) =
    d.markLate (d.entriesIn n f) := rfl
  unfold Device.lateTake
  dsimp only
  rw [hmark]
  generalize (d.markLate (d.entriesIn n f)).stamp.toNat = ns
  generalize (d.markLate (d.entriesIn n f)).count n cntLATE = d'
  split_ifs
  · obtain ⟨rs, hs, h⟩ := Device.raise_eq (d'.onLane n (fun l => { l with lateAt := Assoc.put l.lateAt f ns })) (2 * n)
    exact ⟨rs, hs, _, h⟩
  · exact ⟨_, _, _, rfl⟩

/-- A lane notes its take of a frame index. -/
def Lane.took (f now : Nat) (l : Lane) : Lane := { l with lastTake := Assoc.put l.lastTake f now }

/-- No frame of an index waits any longer. -/
def Lane.emptied (f : Nat) (l : Lane) : Lane := { l with waiting := Assoc.erase l.waiting f }

section
variable {d : Device} {n f p : Nat} (howner : d.laneOwner n = some p) (hin : (d.descriptor n f).inbound = true) (hheld : d.heldNow p = false)
  (hpaced : d.inPaced p = true) (hlive : d.decantOf p = none) (hdue : d.atOffset p (d.descriptor n f).take = true)
  (honce : ∀ x ∈ (d.lane n).lastTake, x ≠ (f, d.now))
include howner hin hheld hpaced hlive hdue honce

/-- A take step in Paced scatters the frame that waits, or is late. -/
theorem Device.take_of_paced : d.take n f =
    match (d.lane n).waiting.find? (fun x => decide (x.1 = f)) with
    | some (_, w) =>
      (((d.onLane n (·.took f d.now)).onLane n (·.emptied f)).scatterLive n f p w.bytes w.stamp).record p recFRAME_IN (srcLane n)
          (frameRecord f w.stamp w.bytes)
    | none => ((d.onLane n (·.took f d.now)).lateTake n f).record p recFRAME_LATE (srcLane n)
        (wordsBytes [word f]) := by
  have hnot : (d.lane n).lastTake.any (fun x => decide (x = (f, d.now))) = false := by
    rw [List.any_eq_false]
    intro x hx
    simp [honce x hx]
  have hlane : ∀ g, (d.onLane n g).decantOf p = d.decantOf p ∧ (d.onLane n g).inPaced p = d.inPaced p := fun g => ⟨rfl, rfl⟩
  unfold Device.take
  rw [howner]
  simp only [hin, hheld, hdue, hnot, hlane, hlive, hpaced]
  simp
  rfl

/-- The waiting frame is scattered: its updates are posted, and it waits no longer. -/
theorem Device.take_of_waiting {w : Frame} (hw : (d.lane n).waiting.find? (fun x => decide (x.1 = f)) = some (f, w)) :
    (d.take n f).inFlight = d.inFlight ++
      scatterUpdates n f p d.now true w.stamp (d.lane n).rxFirst (kryeneOf w.bytes).data (d.entriesIn n f) 0 ∧
    ((d.take n f).lane n).waiting.has f = false ∧ (d.take n f).points = d.points ∧ (d.take n f).mem = d.mem ∧
    (d.take n f).engines = d.engines := by
  obtain ⟨rs, hs, hscatter⟩ := Device.scatterLive_eq ((d.onLane n (·.took f d.now)).onLane n (·.emptied f)) n f p w.bytes w.stamp
  have hpaced' : ((d.onLane n (·.took f d.now)).onLane n (·.emptied f)).inPaced p = true := hpaced
  have hlane : ((d.onLane n (·.took f d.now)).onLane n (·.emptied f)).lane n = ((d.lane n).took f d.now).emptied f := by
    rw [Device.onLane_self, Device.onLane_self]
  have hlast := Device.onLane_self ((d.onLane n (·.took f d.now)).onLane n (·.emptied f)) n (fun l => { l with rxFirst := false })
  have hempty := Assoc.has_erase_self (d.lane n).waiting f
  rw [hpaced', hlane] at hscatter
  rw [hlane] at hlast
  have hrecords := Device.Records.record (((d.onLane n (·.took f d.now)).onLane n (·.emptied f)).scatterLive n f p w.bytes w.stamp) p recFRAME_IN
    (srcLane n) (frameRecord f w.stamp w.bytes)
  rw [Device.take_of_paced howner hin hheld hpaced hlive hdue honce, hw]
  obtain ⟨x, hx⟩ := hrecords.rest
  dsimp only
  rw [hx, hscatter]
  exact ⟨rfl, (congrArg (fun l : Lane => l.waiting.has f) hlast).trans hempty, rfl, rfl, rfl⟩

/-- A late take posts nothing; it counts, and its points gain STALE. -/
theorem Device.take_of_late (hnone : (d.lane n).waiting.find? (fun x => decide (x.1 = f)) = none) :
    (d.take n f).inFlight = d.inFlight ∧ (∀ k, (d.take n f).point k = (d.markLate (d.entriesIn n f)).point k) ∧
    ((d.take n f).reg (.fldCnt n cntLATE)).toNat = min (2 ^ 32 - 1) ((d.reg (.fldCnt n cntLATE)).toNat + 1) ∧ (d.take n f).mem = d.mem ∧
    (d.take n f).engines = d.engines := by
  obtain ⟨rs, hs, ls, hlate⟩ := Device.lateTake_eq (d.onLane n (·.took f d.now)) n f
  obtain ⟨ps, hps⟩ := d.markLate_eq (d.entriesIn n f)
  have hmarked : (d.onLane n (·.took f d.now)).markLate ((d.onLane n (·.took f d.now)).entriesIn n f) =
    (d.markLate (d.entriesIn n f)).onLane n (·.took f d.now) := d.markLate_onLane ..
  have hrecords := Device.Records.record ((d.onLane n (·.took f d.now)).lateTake n f) p recFRAME_LATE (srcLane n) (wordsBytes [word f])
  obtain ⟨qs, hqs⟩ := ((d.markLate (d.entriesIn n f)).onLane n (·.took f d.now)).count_eq n cntLATE
  have hcount := ((d.markLate (d.entriesIn n f)).onLane n (·.took f d.now)).toNat_count n cntLATE
  rw [hqs] at hcount
  rw [hmarked, hqs] at hlate
  rw [Device.take_of_paced howner hin hheld hpaced hlive hdue honce, hnone]
  dsimp only
  have hreg := hrecords.regs (.fldCnt n cntLATE) rfl
  obtain ⟨x, hx⟩ := hrecords.rest
  rw [hx, hlate] at hreg
  rw [hps] at hlate hcount hreg ⊢
  rw [hx, hlate]
  exact ⟨rfl, fun _ => rfl, (congrArg BitVec.toNat hreg).trans hcount, rfl, rfl⟩

end

/-- Settles O26: the checks of a frame one by one, and a take step with and without a frame. -/
theorem receivedFrameIsCheckedAndTaken : Obligations.ReceivedFrameIsCheckedAndTaken := by
  refine ⟨fun s n p bytes => ?_, fun s n f p => ?_⟩
  · intro d k desc up hup hlen howner hlive
    have hkryene := Device.frameReceive_of_kryene hup hlen howner hlive
    refine ⟨?_, fun hk hbad => ?_, fun hk hver htype hres hheld halive hunfit => ?_,
      fun hk hver htype hres hheld halive hin hpd hstation hpdin hdata hpaced hfirst hontime hwaiting hfault hid => ?_⟩
    · have hdev : d.frameReceive n bytes false = d.count n cntBADFCS := Device.frameReceive_of_up hup hlen howner hlive false
      exact exec_count rfl hdev
    · have hdev := (hkryene hk).trans (Device.kryeneReceive_of_bad hbad)
      exact exec_count rfl hdev
    · have hdev := (hkryene hk).trans (Device.kryeneReceive_of_unfit hver htype hres howner hheld halive hunfit)
      exact exec_count rfl hdev
    · have hdev := ((hkryene hk).trans
        (Device.kryeneReceive_of_fit hver htype hres howner hheld halive hin hpd hstation hpdin hdata hfirst hontime)).trans
        (Device.acceptFrame_of_paced (bytes := bytes) hpaced hwaiting hfault hid)
      obtain ⟨rs, hrs⟩ := d.count_eq n cntRXOK
      have hother := fun r => d.count_other n cntRXOK (r := r)
      have hcount := d.toNat_count n cntRXOK
      rw [hrs] at hdev hother hcount
      have hlane := Device.onLane_self (({ d with regs := rs } : Device).onLane n (·.noted k)) n
        (·.waitsFor k.frame { bytes := bytes, stamp := d.rxStamp n bytes.length })
      have hnoted := Device.onLane_self ({ d with regs := rs } : Device) n (·.noted k)
      rw [hnoted] at hlane
      refine exec_leads rfl hdev ?_
      refine ⟨rfl, hcount, ?_, ?_, ?_, hother, fun j hj => ?_, rfl, rfl, rfl, rfl⟩
      · exact (congrArg (fun l : Lane => l.waiting.has k.frame) hlane).trans (Assoc.has_put_self ..)
      · exact (congrArg (fun l : Lane => Assoc.get _ l.waiting k.frame) hlane).trans (Assoc.get_put_self ..)
      · exact (congrArg (fun l : Lane => Assoc.get 0 l.lastCycle k.frame) hlane).trans (Assoc.get_put_self ..)
      · exact (Device.onLane_other _ n _ j hj).trans (Device.onLane_other _ n _ j hj)
  · intro d howner hin hheld hpaced hlive hdue honce
    refine ⟨fun w hw => ?_, fun hnone => ?_⟩
    · obtain ⟨hposted, hgone, hpoints, hmem, hengines⟩ := Device.take_of_waiting howner hin hheld hpaced hlive hdue honce hw
      refine ⟨{ s with dev := d.take n f }, _, rfl, rfl, hposted, length_scatterUpdates .., fun i m hi => ?_, hgone, hpoints, hmem, hengines⟩
      exact ⟨_, getElem?_scatterUpdates _ _ _ _ _ _ _ _ 0 i m hi, rfl, rfl, rfl, rfl, by rw [Nat.zero_add], by rw [Nat.zero_add]⟩
    · obtain ⟨hposted, hpoint, hcount, hmem, hengines⟩ := Device.take_of_late howner hin hheld hpaced hlive hdue honce hnone
      refine ⟨{ s with dev := d.take n f }, rfl, rfl, hposted, fun m hm => ?_, fun k hk => ?_, ?_, hmem, hengines⟩
      · have hmarked := d.markLate_marked hm
        rw [← hpoint] at hmarked
        exact hmarked
      · exact (hpoint k).trans (d.markLate_other hk)
      · exact hcount

end Sys2Proof.Machine
end

section
/-! SUPPORT and proofs: identity entries and rescans; O51. -/

namespace Sys2Proof.Machine

/-! ### Identity reads (R451 to R454) -/

theorem at_eq_getD (f : List Byte) (i : Nat) : at_ f i = (f.getD i 0).toNat := by
  unfold at_
  rw [List.getD_eq_getElem?_getD]
  cases f[i]? <;> rfl

/-- A number of two bytes; bytes beyond the end count as 0. -/
theorem le_two (f : List Byte) (i : Nat) : le f i 2 = at_ f i + 256 * at_ f (i + 1) := by
  have hhead : ∀ f : List Byte, fromBytes (f.take 2) = at_ f 0 + 256 * at_ f 1 := fun f => by
    match f with
    | [] => rfl
    | [x] => simp [fromBytes, at_]
    | x :: y :: _ => simp [fromBytes, at_]
  unfold le
  rw [hhead]
  simp [at_, List.getElem?_drop]

/-- Are MAGIC, FORMAT, NGRP and LENGTH of an identity record good, and is it whole (R452)? -/
def goodFormat (bs : List Byte) : Prop :=
  (bs.getD 0 0).toNat = 0x49 ∧ (bs.getD 1 0).toNat = 0x44 ∧ (bs.getD 2 0).toNat = 1 ∧ (bs.getD 11 0).toNat ≤ 26 ∧
    (bs.getD 3 0).toNat = (bs.getD 11 0).toNat + 5 ∧ 8 * (bs.getD 3 0).toNat ≤ bs.length

theorem goodFormat_iff (bs : List Byte) : goodFormat bs ↔
    ¬ (le bs 0 2 ≠ 0x4449 ∨ at_ bs 2 ≠ 1 ∨ 26 < at_ bs 11 ∨ at_ bs 3 ≠ (36 + 8 * at_ bs 11 + 7) / 8 ∨ bs.length < 8 * at_ bs 3) := by
  have hbound : ∀ i, (bs.getD i 0).toNat < 256 := fun i => (bs.getD i 0).isLt
  have h0 := hbound 0
  have h1 := hbound 1
  rw [le_two]
  simp only [at_eq_getD, goodFormat, Nat.zero_add]
  omega

/-- The CRC decides on a record of good format (R452, R453). -/
theorem identityState_of_good {bs : List Byte} (h : goodFormat bs) : identityState bs =
    if crc32 (bs.take (8 * (bs.getD 3 0).toNat - 4)) = word (fromBytes ((bs.drop (8 * (bs.getD 3 0).toNat - 4)).take 4)) then .ok else .badCrc := by
  unfold identityState
  rw [if_neg ((goodFormat_iff bs).mp h), at_eq_getD]
  rfl

theorem identityState_of_bad {bs : List Byte} (h : ¬ goodFormat bs) : identityState bs = .badFormat := by
  unfold identityState
  exact if_pos (not_not.mp (mt (goodFormat_iff bs).mpr h))

/-- A read replaces the entry of its address and ends its part of the scan. -/
structure Device.EntryRead (d d' : Device) (x : Nat × Nat) (e : IdEntry) : Prop where
  done : x ∉ d'.scanning
  others : ∀ y, y ≠ x → (y ∈ d'.scanning ↔ y ∈ d.scanning)
  entry : Assoc.get {} d'.ids (8 * x.1 + x.2) = e
  entries : ∀ k, k ≠ 8 * x.1 + x.2 → Assoc.get {} d'.ids k = Assoc.get {} d.ids k
  rest : { d' with ids := d.ids, scanning := d.scanning } = d

theorem Device.EntryRead.of_put (d : Device) (g a : Nat) (e : IdEntry) : d.EntryRead
    { d with scanning := d.scanning.filter (fun x => decide (x ≠ (g, a))), ids := Assoc.put d.ids (8 * g + a) e } (g, a) e :=
  ⟨by simp, fun y hy => by simp [hy], Assoc.get_put_self .., fun k hk => Assoc.get_put_of_ne _ _ _ _ _ hk, rfl⟩

section
variable {d : Device} {g a : Nat} (h : (g, a) ∈ d.scanning)
include h

theorem Device.identityRead_noAck : d.EntryRead (d.identityRead g a .noAck) (g, a) { state := .absent, record := [] } := by
  rw [Device.identityRead, if_neg (not_not.mpr h)]
  exact .of_put d g a _

theorem Device.identityRead_clockTimeout : d.EntryRead (d.identityRead g a .clockTimeout) (g, a) { state := .timeout, record := [] } := by
  rw [Device.identityRead, if_neg (not_not.mpr h)]
  exact .of_put d g a _

theorem Device.identityRead_data (bs : List Byte) : d.EntryRead (d.identityRead g a (.data bs)) (g, a)
    { state := identityState bs
      record := bs.take (if identityState bs = .badFormat then min 248 bs.length else 8 * (bs.getD 3 0).toNat) } := by
  rw [Device.identityRead, if_neg (not_not.mpr h), ← at_eq_getD]
  exact .of_put d g a _

end

/-! ### Identity requests (R422) -/

/-- An identity request reads back as a Kryene frame of type 2 without process data, to the station of its descriptor (R413 to R415). -/
theorem Device.kryeneOf_request {d : Device} {n f : Nat} (himage : d.image ≠ none) :
    isKryene (d.kryeneFrame n f 2 false 0 []) = true ∧ (kryeneOf (d.kryeneFrame n f 2 false 0 [])).type = 2 ∧
    (kryeneOf (d.kryeneFrame n f 2 false 0 [])).pdlen = 0 ∧
    (kryeneOf (d.kryeneFrame n f 2 false 0 [])).station = (d.descriptor n f).station.toNat := by
  obtain ⟨i, hi⟩ := Option.ne_none_iff_exists'.mp himage
  obtain ⟨a0, a1, a2, a3, a4, a5, hdst⟩ : ∃ a0 a1 a2 a3 a4 a5, (d.descriptor n f).dmac.take 6 = [a0, a1, a2, a3, a4, a5] := by
    simp [Device.descriptor, hi, Layout.descriptor, Descriptor.ofBytes, toBytes]
  obtain ⟨m0, m1, m2, m3, m4, m5, hsrc⟩ : ∃ m0 m1 m2 m3 m4 m5, d.laneMac n = [m0, m1, m2, m3, m4, m5] := by
    simp [Device.laneMac, toBytes]
  have hstation : ∀ w : BitVec 16, w.toNat % 256 + 256 * (w.toNat / 256 % 256) = w.toNat := fun w => by
    have := w.isLt
    omega
  unfold Device.kryeneFrame
  dsimp only
  rw [hdst, hsrc]
  by_cases htag : bit (d.reg (.fldLctl n)) 4 = true
  · rw [if_pos htag]
    simp [isKryene, tagLen, at_, kryeneOf, le, toBytes, fromBytes, hstation]
  · rw [if_neg htag]
    simp [isKryene, tagLen, at_, kryeneOf, le, toBytes, fromBytes, hstation]

/-- A block that differs from another in what rescans of other lanes than one change. -/
structure Device.SeenFrom (d d' : Device) (n : Nat) : Prop where
  rest : ∃ x : _ × _, d' = { d with regs := x.1, lanes := x.2 }
  regs : ∀ r : Reg, (∀ m, m ≠ n → r ≠ .fldCnt m 11) → d'.reg r = d.reg r
  lane : d'.lane n = d.lane n

/-- A block that differs from another in what frames that some lane sends change. -/
structure Device.SentOn (d d' : Device) (n : Nat) : Prop where
  rest : ∃ x : _ × _, d' = { d with regs := x.1, lanes := x.2 }
  regs : ∀ r : Reg, r ≠ .fldCnt n 11 → d'.reg r = d.reg r
  lanes : ∀ j, j ≠ n → d'.lane j = d.lane j

theorem Device.SentOn.refl (d : Device) (n : Nat) : d.SentOn d n := ⟨⟨(d.regs, d.lanes), rfl⟩, fun _ _ => rfl, fun _ _ => rfl⟩

theorem Device.SentOn.trans {a b c : Device} {n : Nat} (h : a.SentOn b n) (h' : b.SentOn c n) : a.SentOn c n := by
  refine ⟨?_, fun r hr => (h'.regs r hr).trans (h.regs r hr), fun j hj => (h'.lanes j hj).trans (h.lanes j hj)⟩
  obtain ⟨x, hx⟩ := h.rest
  obtain ⟨y, hy⟩ := h'.rest
  exact ⟨y, by rw [hy, hx]⟩

theorem Device.SentOn.onLane (d : Device) (n : Nat) (f : Lane → Lane) : d.SentOn (d.onLane n f) n :=
  ⟨⟨(d.regs, _), rfl⟩, fun _ _ => rfl, fun j hj => Device.onLane_other d n f j hj⟩

theorem Device.SentOn.transmit (d : Device) (n : Nat) (bytes : List Byte) : d.SentOn (d.transmit n bytes) n := by
  refine (Device.SentOn.onLane d n (fun l => { l with sent := bytes ++ toBytes 4 (crc32 bytes).toNat })).trans ?_
  obtain ⟨rs, hrs⟩ := (d.onLane n (fun l => { l with sent := bytes ++ toBytes 4 (crc32 bytes).toNat })).count_eq n cntTXOK
  exact ⟨⟨(rs, _), hrs⟩, fun r hr => Device.count_other _ n cntTXOK hr, fun j _ => by rw [Device.transmit, hrs]; rfl⟩

/-- The identity requests of a lane to some stations. -/
def Device.askStations (d : Device) (n : Nat) (ss : List Nat) : Device :=
  foldDev (fun d s => d.transmit n (d.kryeneFrame n (d.stationFrame n s) 2 false 0 [])) d ss

/-- A sent frame stands in the lane with its FCS. -/
theorem Device.lane_transmit (d : Device) (n : Nat) (bytes : List Byte) :
    (d.transmit n bytes).lane n = { d.lane n with sent := bytes ++ toBytes 4 (crc32 bytes).toNat } := by
  obtain ⟨rs, hrs⟩ := (d.onLane n (fun l => { l with sent := bytes ++ toBytes 4 (crc32 bytes).toNat })).count_eq n cntTXOK
  rw [Device.transmit, hrs]
  exact Device.onLane_self d n (fun l => { l with sent := bytes ++ toBytes 4 (crc32 bytes).toNat })

/-- The requests of a lane: they change what was sent and its count, and the last of them goes to the last station. -/
theorem Device.askStations_spec (d : Device) (n : Nat) (ss : List Nat) :
    d.SentOn (d.askStations n ss) n ∧ { (d.askStations n ss).lane n with sent := (d.lane n).sent } = d.lane n ∧
    ((d.askStations n ss).reg (.fldCnt n 11)).toNat = min (2 ^ 32 - 1) ((d.reg (.fldCnt n 11)).toNat + ss.length) ∧
    ∀ st, ss.getLast? = some st → ∃ d' : Device, d'.image = d.image ∧
      ((d.askStations n ss).lane n).sent = d'.kryeneFrame n (d'.stationFrame n st) 2 false 0 [] ++
        toBytes 4 (crc32 (d'.kryeneFrame n (d'.stationFrame n st) 2 false 0 [])).toNat := by
  induction ss generalizing d with
  | nil =>
    have hlt := (d.reg (.fldCnt n 11)).isLt
    exact ⟨.refl d n, rfl, by simp only [Device.askStations, foldDev, List.length_nil]; omega, by simp⟩
  | cons s ss ih =>
    have hsent := Device.SentOn.transmit d n (d.kryeneFrame n (d.stationFrame n s) 2 false 0 [])
    have hlane := d.lane_transmit n (d.kryeneFrame n (d.stationFrame n s) 2 false 0 [])
    have hcount : ((d.transmit n (d.kryeneFrame n (d.stationFrame n s) 2 false 0 [])).reg (.fldCnt n 11)).toNat =
        min (2 ^ 32 - 1) ((d.reg (.fldCnt n 11)).toNat + 1) := Device.toNat_count (d.onLane n _) n cntTXOK
    obtain ⟨hsent', hlane', hcount', hlast'⟩ := ih (d.transmit n (d.kryeneFrame n (d.stationFrame n s) 2 false 0 []))
    refine ⟨hsent.trans hsent', ?_, ?_, fun st hst => ?_⟩
    · have hkept : ∀ l : Lane, { l with sent := ((d.transmit n (d.kryeneFrame n (d.stationFrame n s) 2 false 0 [])).lane n).sent } =
          (d.transmit n (d.kryeneFrame n (d.stationFrame n s) 2 false 0 [])).lane n → { l with sent := (d.lane n).sent } = d.lane n := by
        intro l hl
        rw [hlane] at hl
        exact congrArg (fun x : Lane => { x with sent := (d.lane n).sent }) hl
      exact hkept _ hlane'
    · have htotal := hcount'
      rw [hcount] at htotal
      simp only [List.length_cons]
      exact htotal.trans (by omega)
    · cases ss with
      | nil =>
        obtain rfl : s = st := by simpa using hst
        exact ⟨d, rfl, congrArg Lane.sent hlane⟩
      | cons x xs =>
        obtain ⟨d', himage, hd'⟩ := hlast' st (by simpa using hst)
        obtain ⟨y, hy⟩ := hsent.rest
        exact ⟨d', himage.trans (by rw [hy]), hd'⟩

/-- Is a lane silent in a rescan: it cannot send, or must not (R35, R380, R422)? -/
def Device.silentLane (d : Device) (n : Nat) : Bool :=
  !d.laneUp n || d.laneMuted n || (match d.laneOwner n with | some p => d.heldNow p | none => false)

theorem Device.silentLane_iff (d : Device) (n : Nat) :
    d.silentLane n = true ↔ d.laneUp n = false ∨ d.laneMuted n = true ∨ ∃ p, d.laneOwner n = some p ∧ d.heldNow p = true := by
  unfold Device.silentLane
  cases d.laneOwner n <;> simp [or_assoc]

/-- A lane waits for its stations. -/
def Lane.waitsForStations (count : Nat) (up : Bool) (l : Lane) : Lane :=
  { l with identPending := List.range count, identDue := l.identDue && !up }

theorem Device.identRequest_eq (d : Device) (n : Nat) : d.identRequest n false =
    (if d.silentLane n then d else d.askStations n (d.stations n)).onLane n (·.waitsForStations (d.stations n).length (d.laneUp n)) := by
  have hdue : ∀ b : Bool, (b || false) = b := Bool.or_false
  unfold Device.identRequest
  simp only [hdue, Bool.not_false, Bool.true_and]
  rfl

/-- What a rescan does to a lane that it asks (R422). -/
structure Device.LaneAsked (d : Device) (n : Nat) (d' : Device) : Prop where
  waits : { d'.lane n with sent := (d.lane n).sent } = (d.lane n).waitsForStations (d.stations n).length (d.laneUp n)
  loud : d.silentLane n = false →
    (d'.reg (.fldCnt n 11)).toNat = min (2 ^ 32 - 1) ((d.reg (.fldCnt n 11)).toNat + (d.stations n).length) ∧
    ∀ st, (d.stations n).getLast? = some st → ∃ c : Device, c.image = d.image ∧
      (d'.lane n).sent = c.kryeneFrame n (c.stationFrame n st) 2 false 0 [] ++
        toBytes 4 (crc32 (c.kryeneFrame n (c.stationFrame n st) 2 false 0 [])).toNat
  silent : d.silentLane n = true → (d'.lane n).sent = (d.lane n).sent ∧ ∀ k, d'.reg (.fldCnt n k) = d.reg (.fldCnt n k)

theorem Device.identRequest_asks (d : Device) (n : Nat) : d.SentOn (d.identRequest n false) n ∧ d.LaneAsked n (d.identRequest n false) := by
  rw [Device.identRequest_eq]
  by_cases hsilent : d.silentLane n = true
  · rw [if_pos hsilent]
    have hlane := Device.onLane_self d n (·.waitsForStations (d.stations n).length (d.laneUp n))
    exact ⟨.onLane d n _, by rw [hlane]; rfl, fun h => by simp [hsilent] at h, fun _ => ⟨by rw [hlane]; rfl, fun _ => rfl⟩⟩
  · rw [if_neg hsilent]
    obtain ⟨hsent, hkept, hcount, hlast⟩ := d.askStations_spec n (d.stations n)
    have hlane := Device.onLane_self (d.askStations n (d.stations n)) n (·.waitsForStations (d.stations n).length (d.laneUp n))
    refine ⟨hsent.trans (.onLane _ n _), ?_, fun _ => ⟨hcount, fun st hst => ?_⟩, fun h => absurd h hsilent⟩
    · rw [hlane]
      exact congrArg (fun l : Lane => l.waitsForStations (d.stations n).length (d.laneUp n)) hkept
    · obtain ⟨c, himage, hc⟩ := hlast st hst
      exact ⟨c, himage, by rw [hlane]; exact hc⟩

/-! ### A rescan (R455, R456) -/

/-- The stations of a lane depend on the image alone. -/
theorem Device.stations_congr {d d' : Device} (h : d'.image = d.image) (n : Nat) : d'.stations n = d.stations n := by
  have hdescriptor : ∀ f, d'.descriptor n f = d.descriptor n f := fun f => by
    unfold Device.descriptor
    rw [h]
  simp only [Device.stations, hdescriptor]

section
variable {d d' : Device} {n : Nat}

theorem Device.SentOn.seenFrom {m : Nat} (h : d.SentOn d' m) (hn : n ≠ m) : d.SeenFrom d' n :=
  ⟨h.rest, fun r hr => h.regs r (hr m hn.symm), h.lanes n hn⟩

theorem Device.SeenFrom.refl (d : Device) (n : Nat) : d.SeenFrom d n := ⟨⟨(d.regs, d.lanes), rfl⟩, fun _ _ => rfl, rfl⟩

theorem Device.SeenFrom.trans {c : Device} (h : d.SeenFrom d' n) (h' : d'.SeenFrom c n) : d.SeenFrom c n := by
  refine ⟨?_, fun r hr => (h'.regs r hr).trans (h.regs r hr), h'.lane.trans h.lane⟩
  obtain ⟨x, hx⟩ := h.rest
  obtain ⟨y, hy⟩ := h'.rest
  exact ⟨y, by rw [hy, hx]⟩

section
variable (h : d.SeenFrom d' n)
include h

theorem Device.SeenFrom.agrees : d.Agrees d' := by
  have htables : d.SameTables d' := fun r hr => h.regs r fun m _ => by rintro rfl; simp [Reg.isTable] at hr
  obtain ⟨x, hx⟩ := h.rest
  rw [hx] at htables ⊢
  exact ⟨htables, rfl, rfl, rfl, rfl, rfl, rfl, rfl, rfl, rfl⟩

/-- What decides a rescan of a lane. -/
theorem Device.SeenFrom.decides : d'.laneUp n = d.laneUp n ∧ d'.stations n = d.stations n ∧ d'.silentLane n = d.silentLane n := by
  have hparts : d'.parts = d.parts := by
    obtain ⟨x, hx⟩ := h.rest
    rw [hx]
  have hup : d'.laneUp n = d.laneUp n := by
    simp only [Device.laneUp, Device.isOffline, h.agrees.grade, h.lane, h.regs (.fldLstat n) (by simp), h.regs .trlOfffl (by simp),
      h.regs .trlOfffh (by simp)]
  refine ⟨hup, Device.stations_congr h.agrees.image n, ?_⟩
  have hpart : ∀ p, d'.part p = d.part p := fun p => congrArg (Assoc.get _ · p) hparts
  have hheld : ∀ p, d'.heldNow p = d.heldNow p := fun p => by simp only [Device.heldNow, Device.released, hpart, h.agrees.partCovered]
  unfold Device.silentLane Device.laneMuted Device.modeNow
  rw [hup, h.agrees.tables.laneOwner]
  cases d.laneOwner n with
  | none => rfl
  | some p => simp only [hpart, hheld]

/-- A rescan of a lane after rescans of others. -/
theorem Device.LaneAsked.of_seen {c : Device} (hasked : d'.LaneAsked n c) : d.LaneAsked n c := by
  obtain ⟨hup, hstations, hsilent⟩ := h.decides
  have hcnt : ∀ k, d'.reg (.fldCnt n k) = d.reg (.fldCnt n k) := fun k => h.regs _ fun m hm => by simp [hm.symm]
  obtain ⟨hwaits, hloud, hquiet⟩ := hasked
  rw [h.lane, hup, hstations] at hwaits
  rw [hsilent, hstations, hcnt, h.agrees.image] at hloud
  rw [hsilent, h.lane] at hquiet
  exact ⟨hwaits, hloud, fun hs => ⟨(hquiet hs).1, fun k => ((hquiet hs).2 k).trans (hcnt k)⟩⟩

/-- Rescans of others after that of a lane. -/
theorem Device.LaneAsked.then_seen {c : Device} (hasked : c.LaneAsked n d) : c.LaneAsked n d' := by
  have hcnt : ∀ k, d'.reg (.fldCnt n k) = d.reg (.fldCnt n k) := fun k => h.regs _ fun m hm => by simp [hm.symm]
  obtain ⟨hwaits, hloud, hquiet⟩ := hasked
  rw [← h.lane] at hwaits hloud hquiet
  rw [← hcnt] at hloud
  exact ⟨hwaits, hloud, fun hs => ⟨(hquiet hs).1, fun k => (hcnt k).trans ((hquiet hs).2 k)⟩⟩

end
end

/-- The lanes of a list that the writer asks for. -/
def Device.askLanes (d : Device) (mine : Option Nat → Bool) (ns : List Nat) : Device :=
  foldDev (fun d n => if mine (d.laneOwner n) then d.identRequest n false else d) d ns

/-- Each asked lane of the list is asked once, and the others are left. -/
theorem Device.askLanes_spec (mine : Option Nat → Bool) {ns : List Nat} (hnodup : ns.Nodup) (d : Device) :
    (∃ x : _ × _, d.askLanes mine ns = { d with regs := x.1, lanes := x.2 }) ∧
    (∀ r : Reg, (∀ n, r ≠ .fldCnt n 11) → (d.askLanes mine ns).reg r = d.reg r) ∧
    (∀ n, n ∉ ns ∨ mine (d.laneOwner n) = false → d.SeenFrom (d.askLanes mine ns) n) ∧
    (∀ n ∈ ns, mine (d.laneOwner n) = true → d.LaneAsked n (d.askLanes mine ns)) := by
  induction ns generalizing d with
  | nil => exact ⟨⟨(d.regs, d.lanes), rfl⟩, fun _ _ => rfl, fun n _ => .refl d n, by simp⟩
  | cons m ns ih =>
    obtain ⟨hm, hns⟩ := List.nodup_cons.mp hnodup
    have hstep : ∀ n, n ≠ m ∨ mine (d.laneOwner n) = false → d.SeenFrom (if mine (d.laneOwner m) then d.identRequest m false else d) n := by
      intro n hn
      by_cases hmine : mine (d.laneOwner m) = true
      · rw [if_pos hmine]
        refine (d.identRequest_asks m).1.seenFrom ?_
        rintro rfl
        simp [hmine] at hn
      · rw [if_neg hmine]
        exact .refl d n
    obtain ⟨hrest, hregs, hseen, hasked⟩ := ih hns (if mine (d.laneOwner m) then d.identRequest m false else d)
    have hsent : d.SentOn (if mine (d.laneOwner m) then d.identRequest m false else d) m := by
      by_cases hmine : mine (d.laneOwner m) = true
      · rw [if_pos hmine]
        exact (d.identRequest_asks m).1
      · rw [if_neg hmine]
        exact .refl d m
    have howner : ∀ n, Device.laneOwner (if mine (d.laneOwner m) then d.identRequest m false else d) n = d.laneOwner n := fun n => by
      refine Device.SameTables.laneOwner (fun r hr => hsent.regs r ?_) n
      rintro rfl
      simp [Reg.isTable] at hr
    refine ⟨?_, fun r hr => (hregs r hr).trans (hsent.regs r (hr m)), fun n hn => ?_, fun n hn hmine => ?_⟩
    · obtain ⟨x, hx⟩ := hsent.rest
      obtain ⟨y, hy⟩ := hrest
      exact ⟨y, hy.trans (by rw [hx])⟩
    · have hfirst : n ≠ m ∨ mine (d.laneOwner n) = false := hn.imp_left fun h => by rintro rfl; simp at h
      have hlater : n ∉ ns ∨ mine (Device.laneOwner (if mine (d.laneOwner m) then d.identRequest m false else d) n) = false := by
        rw [howner]
        exact hn.imp_left fun h => by simp only [List.mem_cons, not_or] at h; exact h.2
      exact (hstep n hfirst).trans (hseen n hlater)
    · by_cases hnm : n = m
      · subst hnm
        have hone := (d.identRequest_asks n).2
        rw [← if_pos hmine (t := d.identRequest n false) (e := d)] at hone
        exact Device.LaneAsked.then_seen (hseen n (.inl hm)) hone
      · have hin : n ∈ ns := by simpa [hnm] using hn
        exact Device.LaneAsked.of_seen (hstep n (.inl hnm)) (hasked n hin (by rw [howner]; exact hmine))

/-- A station of a lane is that of the descriptor at which it first appears (R453). -/
theorem Device.station_stationFrame {d : Device} {n st : Nat} (h : st ∈ d.stations n) :
    d.image ≠ none ∧ (d.descriptor n (d.stationFrame n st)).station.toNat = st := by
  have hfold : ∀ (fs acc : List Nat), st ∈ fs.foldl
      (fun acc f => let s := (d.descriptor n f).station.toNat; if acc.contains s then acc else acc ++ [s]) acc →
        st ∈ acc ∨ ∃ f ∈ fs, (d.descriptor n f).station.toNat = st := by
    intro fs
    induction fs with
    | nil => exact fun _ h => .inl h
    | cons f fs ih =>
      intro acc h
      obtain hin | ⟨k, hk, hst⟩ := ih _ h
      · dsimp only at hin
        split_ifs at hin
        · exact .inl hin
        · obtain hin | hin := List.mem_append.mp hin
          · exact .inl hin
          · exact .inr ⟨f, by simp, (List.mem_singleton.mp hin).symm⟩
      · exact .inr ⟨k, by simp [hk], hst⟩
  obtain hnil | ⟨f, hf, hst⟩ := hfold _ [] h
  · simp at hnil
  · obtain ⟨hrange, hused⟩ := List.mem_filter.mp hf
    have hfound : ((List.range 256).find? (fun f => (d.descriptor n f).used && decide ((d.descriptor n f).station.toNat = st))).isSome := by
      rw [List.find?_isSome]
      exact ⟨f, hrange, by simp [hused, hst]⟩
    obtain ⟨k, hk⟩ := Option.isSome_iff_exists.mp hfound
    have hkey := List.find?_some hk
    simp only [Bool.and_eq_true, decide_eq_true_eq] at hkey
    refine ⟨fun hnone => ?_, ?_⟩
    · simp [Device.descriptor, hnone] at hused
    · rw [Device.stationFrame, hk]
      exact hkey.2

/-- Does a rescan of a writer take in what a partition owns (R455)? -/
def rescans (w p : Option Nat) : Bool := match w with | none => true | some q => decide (p = some q)

theorem rescans_iff (w p : Option Nat) : rescans w p = true ↔ ∀ q, w = some q → p = some q := by
  cases w <;> simp [rescans]

/-- The reads of a rescan: eight addresses of each enabled segment. -/
def Device.rescanReads (d : Device) (w : Option Nat) : List (Nat × Nat) :=
  (((List.range 8).filter (fun s => bit (d.reg (.idnSeg s)) 1 && rescans w (some (fld (d.reg (.idnSeg s)) 4 4)))).map
    (fun s => (List.range 8).map (fun a => (s, a)))).flatten

theorem Device.mem_rescanReads (d : Device) (w : Option Nat) (x y : Nat) :
    (x, y) ∈ d.rescanReads w ↔ x < 8 ∧ y < 8 ∧ bit (d.reg (.idnSeg x)) 1 = true ∧ rescans w (some (fld (d.reg (.idnSeg x)) 4 4)) = true := by
  simp only [Device.rescanReads, List.mem_flatten, List.mem_map, List.mem_filter, List.mem_range, Bool.and_eq_true]
  constructor
  · rintro ⟨_, ⟨k, ⟨hk, hseg, hmine⟩, rfl⟩, hin⟩
    obtain ⟨y', hy', heq⟩ := List.mem_map.mp hin
    obtain ⟨rfl, rfl⟩ := Prod.mk.injEq .. ▸ heq
    exact ⟨hk, List.mem_range.mp hy', hseg, hmine⟩
  · rintro ⟨hx, hy, hseg, hmine⟩
    exact ⟨_, ⟨x, ⟨hx, hseg, hmine⟩, rfl⟩, List.mem_map.mpr ⟨y, List.mem_range.mpr hy, rfl⟩⟩

theorem Device.rescan_eq {d : Device} (hidle : d.scanning = []) (w : Option Nat) :
    d.rescan w = ({ d with scanning := d.rescanReads w } : Device).askLanes (rescans w) (List.range d.grade.fieldLanes) := by
  have hnot : (!d.scanning.isEmpty) = false := by simp [hidle]
  unfold Device.rescan
  rw [hnot]
  rfl

/-- Settles O51: a rescan lane by lane, and the reads of the segments by their outcome. -/
theorem identityIsScanned : Obligations.IdentityIsScanned := by
  intro s g a bs w d b good crc whose read
  have hread : ∀ {d' : Device} {e : IdEntry}, d.EntryRead d' (g, a) e → read { s with dev := d' } e :=
    fun h => ⟨rfl, h.done, h.others, h.entry, h.entries, h.rest⟩
  refine ⟨fun hbusy => ?_, fun hidle => ?_, fun hin => ?_, fun hout => ?_⟩
  · have hdev : d.rescan w = d := by simp [Device.rescan, hbusy]
    exact exec_of_dev rfl hdev
  · obtain ⟨hrest, hregs, hseen, hasked⟩ :=
      Device.askLanes_spec (rescans w) List.nodup_range ({ d with scanning := d.rescanReads w } : Device) (ns := List.range d.grade.fieldLanes)
    refine exec_leads rfl (Device.rescan_eq hidle w) ?_
    generalize Device.askLanes _ _ _ = d' at hrest hregs hseen hasked ⊢
    refine ⟨rfl, ?_, fun n hn hmine => ?_, fun n hn => ?_, hregs, ?_⟩
    · have hscan : d'.scanning = d.rescanReads w := by
        obtain ⟨x, hx⟩ := hrest
        rw [hx]
      intro x y
      have hmem := d.mem_rescanReads w x y
      rw [← hscan, rescans_iff] at hmem
      exact hmem
    · obtain ⟨hwaits, hloud, hsilent⟩ := hasked n (List.mem_range.mpr hn) ((rescans_iff ..).mpr hmine)
      refine ⟨hwaits, fun hup hmuted hlive => ?_, fun h => hsilent ((d.silentLane_iff n).mpr h)⟩
      have hspeaks : d.silentLane n = false := by
        rw [Bool.eq_false_iff, ne_eq, d.silentLane_iff]
        rintro (h | h | ⟨p, hp, h⟩)
        · simp [hup] at h
        · simp [hmuted] at h
        · simp [hlive p hp] at h
      obtain ⟨hcount, hlast⟩ := hloud hspeaks
      refine ⟨hcount, fun st hst => ?_⟩
      obtain ⟨c, himage, hc⟩ := hlast st hst
      have hstations : c.stations n = d.stations n := Device.stations_congr himage n
      have hin : st ∈ c.stations n := hstations ▸ List.mem_of_getLast? hst
      obtain ⟨himage', hstation⟩ := Device.station_stationFrame hin
      obtain ⟨hkryene, htype, hpdlen, hst'⟩ := c.kryeneOf_request himage' (n := n) (f := c.stationFrame n st)
      exact ⟨_, hc, hkryene, htype, hpdlen, hst'.trans hstation⟩
    · refine (hseen n (hn.imp (fun h => ?_) fun h => ?_)).lane
      · simpa using h
      · exact Bool.eq_false_iff.mpr (mt (rescans_iff ..).mp h)
    · obtain ⟨x, hx⟩ := hrest
      rw [hx]
  · have hdata := Device.identityRead_data hin bs
    refine ⟨⟨_, rfl, hread (Device.identityRead_noAck hin)⟩, ⟨_, rfl, hread (Device.identityRead_clockTimeout hin)⟩, fun hgood hcrc => ?_,
      fun hgood hcrc => ?_, fun hbad => ?_⟩
    · have hstate : identityState bs = .ok := (identityState_of_good hgood).trans (if_pos hcrc)
      rw [hstate] at hdata
      exact ⟨_, rfl, hread hdata⟩
    · have hstate : identityState bs = .badCrc := (identityState_of_good hgood).trans (if_neg hcrc)
      rw [hstate] at hdata
      exact ⟨_, rfl, hread hdata⟩
    · rw [identityState_of_bad hbad] at hdata
      exact ⟨_, _, rfl, hread hdata, List.take_prefix ..⟩
  · have hdev : d.identityRead g a (.data bs) = d := if_pos hout
    exact exec_of_dev rfl hdev

end Sys2Proof.Machine
end

section
/-! SUPPORT and proofs: short operations and divisions from trigger to retirement; O6. -/

namespace Sys2Proof.Machine

/-! ### What a change of one engine leaves -/

/-- A stored engine is the only difference. -/
theorem OnlyEngine.setEng (s : State) (e : Nat) (x : Engine) : OnlyEngine s { s with dev := s.dev.setEng e x } e :=
  ⟨rfl, rfl, fun k hk => Device.setEng_other s.dev e k x hk⟩

theorem OnlyEngine.trans {s t u : State} {e : Nat} (h : OnlyEngine s t e) (h' : OnlyEngine t u e) : OnlyEngine s u e := by
  obtain ⟨hpending, hrest, hothers⟩ := h
  obtain ⟨hpending', hrest', hothers'⟩ := h'
  refine ⟨hpending'.trans hpending, ?_, fun k hk => (hothers' k hk).trans (hothers k hk)⟩
  rw [← hrest, ← hrest']

/-- A change of engine e that leaves its step and its period leaves the step that begins. -/
theorem Device.nowStep_setEng (d : Device) (e : Nat) (x : Engine) (hstep : x.step = (d.eng e).step) (hperiod : x.period = (d.eng e).period) :
    (d.setEng e x).nowStep e = d.nowStep e := by
  have hpaused : (d.setEng e x).pausedEngine e = d.pausedEngine e := rfl
  have hpaced : (d.setEng e x).paced e = d.paced e := rfl
  have hnow : (d.setEng e x).now = d.now := rfl
  simp only [Device.nowStep, hpaused, hpaced, hnow, Device.setEng_self, hstep, hperiod]

/-! ### Short operations (R55, R105) -/

/-- The engine after its only short operation has completed. -/
def Engine.afterShort (x : Engine) (o : ShortOp) : Engine := { ((x.commit o.ctx o.writes).setFlags o.due o.flags) with short := [] }

/-- SHORT_OP_COMPLETE on a block whose engine e has one short operation, which is due. -/
theorem exec_shortOpComplete_of_single {s : State} {e : Nat} {y : Engine} {o : ShortOp} (hshort : y.short = [o])
    (hstep : y.step = (s.dev.eng e).step) (hperiod : y.period = (s.dev.eng e).period) (hdue : o.due ≤ s.dev.nowStep e) :
    ∃ t, exec (.shortOpComplete e) { s with dev := s.dev.setEng e y } = .next t ∧ OnlyEngine s t e ∧ t.dev.eng e = y.afterShort o := by
  have hdone : (s.dev.setEng e y).shortOpComplete e = (s.dev.setEng e y).setEng e (y.afterShort o) := by
    simp only [Device.shortOpComplete, Device.onEng, Device.nowStep_setEng _ _ _ hstep hperiod, Device.setEng_self, hshort]
    simp [hdue, Engine.finishShort, Engine.afterShort]
  refine ⟨{ s with dev := (s.dev.setEng e y).setEng e (y.afterShort o) }, ?_, (OnlyEngine.setEng s e y).trans (.setEng _ e _), ?_⟩
  · exact exec_of_dev rfl hdone
  · simp

section
variable (x : Engine) (p : ResPort) (v : Word)

/-- A result of the running context stands readable in its port. -/
theorem Engine.result_commit_self : (x.commit x.ctx [(p, v)]).result p = { value := v, readable := true } := by
  simp [Engine.commit, putResults, Engine.result]

theorem Engine.result_commit_other {q : ResPort} (h : q ≠ p) : (x.commit x.ctx [(p, v)]).result q = x.result q := by
  simp [Engine.commit, putResults, Engine.result, Assoc.get_put_of_ne _ _ _ _ _ h]

end

/-- A short operation without flags that the running context triggers with nothing else under way: where its result stands, and what it leaves. -/
theorem Engine.afterShort_plain (x : Engine) (due : Nat) (p : ResPort) (v : Word) :
    let y := x.afterShort { due := due, writes := [(p, v)], flags := 0, ctx := x.ctx, drains := true }
    y.result p = { value := v, readable := true } ∧ (∀ q, q ≠ p → y.result q = x.result q) ∧ y.acst = x.acst ∧ y.short = [] ∧
      y.g = x.g := by
  refine ⟨x.result_commit_self p v, fun q hq => x.result_commit_other p v hq, ?_, rfl, ?_⟩ <;>
    simp [Engine.afterShort, Engine.setFlags, Engine.commit]

/-! ### Comparisons (R82, R116) -/

/-- Words share a set bit where their conjunction is not 0. -/
theorem and_ne_zero_iff (a t : Word) : a &&& t ≠ 0 ↔ ∃ i < 32, a.getLsbD i = true ∧ t.getLsbD i = true := by
  constructor
  · intro h
    by_contra hnone
    push Not at hnone
    exact h (BitVec.eq_of_getLsbD_eq fun i hi => by simpa [hi] using hnone i hi)
  · rintro ⟨i, -, ha, ht⟩ h
    simpa [ha, ht] using congrArg (·.getLsbD i) h

/-- Guards after one is set: g0 takes nothing (R44). -/
theorem Engine.guard_setGuard (x : Engine) (k j : BitVec 3) (b : Bool) :
    (x.setGuard k b).guard j = if j = k ∧ k ≠ 0 then b else x.guard j := by
  unfold Engine.setGuard
  split_ifs with hk hjk hjk
  · exact absurd hk hjk.2
  · rfl
  · simp [Engine.guard, hjk.1, show k ≠ 0#3 from hk]
  · have hj : j ≠ k := fun h => hjk ⟨h, hk⟩
    simp [Engine.guard, Assoc.get_put_of_ne _ _ _ _ _ hj]

/-! ### Divisions (R120 to R122, R151 to R153) -/

/-- A number of n bits has a bit length of n at most. -/
theorem bitLen_le {n k : Nat} (h : n < 2 ^ k) : bitLen n ≤ k := by
  unfold bitLen
  split_ifs with hn
  · omega
  · exact (Nat.log2_lt hn).mpr h

/-- A quotient has 32 bits at most. -/
theorem quotientBits_le (op : DivOp) (a t : Word) : quotientBits op a t ≤ 32 := by
  unfold quotientBits
  split_ifs
  · omega
  · cases op with
    | divs =>
      refine bitLen_le ?_
      rw [Int.natAbs_tdiv]
      have ha : a.toInt.natAbs ≤ 2 ^ 31 := by have := a.le_toInt; have := a.toInt_lt; omega
      exact lt_of_le_of_lt (Nat.div_le_self _ _) (by omega)
    | divu => exact bitLen_le (lt_of_le_of_lt (Nat.div_le_self _ _) a.isLt)

/-- A division takes 34 steps at most, which is its Paced count (R55, R121). -/
theorem divSteps_le (paced : Bool) (op : DivOp) (a t : Word) : divSteps paced op a t ≤ 34 := by
  have := quotientBits_le op a t
  unfold divSteps
  split <;> omega

/-- The flags of a division show DZ for a zero divisor alone. -/
theorem divExec_dz (op : DivOp) (a t : Word) : (divExec op a t).2.2 &&& flagDZ ≠ 0 ↔ t = 0 := by
  cases op <;> unfold divExec <;> split_ifs <;> simp_all [flagDZ, flagV]

/-- Signed quotient and remainder fit their words unless the smallest number is divided by -1. -/
theorem divs_fits {a t : Word} (h : ¬ (a = 0x80000000 ∧ t = 0xFFFFFFFF)) :
    (wrap32 (a.toInt.tdiv t.toInt)).toInt = a.toInt.tdiv t.toInt ∧
      (wrap32 (a.toInt - a.toInt.tdiv t.toInt * t.toInt)).toInt = a.toInt - a.toInt.tdiv t.toInt * t.toInt := by
  have hq : (a.sdiv t).toInt = a.toInt.tdiv t.toInt := BitVec.toInt_sdiv_of_ne_or_ne a t (not_and_or.mp h)
  have hr : (a.srem t).toInt = a.toInt - a.toInt.tdiv t.toInt * t.toInt := by
    rw [BitVec.toInt_srem, Int.tmod_def, mul_comm]
  unfold wrap32
  rw [← hr, ← hq, BitVec.ofInt_toInt, BitVec.ofInt_toInt]
  exact ⟨rfl, rfl⟩

/-- A number below 2^32 as a word. -/
theorem toNat_word {n : Nat} (h : n < 2 ^ 32) : (word n).toNat = n := (BitVec.toNat_ofNat n 32).trans (Nat.mod_eq_of_lt h)

/-- Unsigned quotient and remainder fit their words. -/
theorem divu_fits (a t : Word) : (word (a.toNat / t.toNat)).toNat = a.toNat / t.toNat ∧ (word (a.toNat % t.toNat)).toNat = a.toNat % t.toNat :=
  ⟨toNat_word (lt_of_le_of_lt (Nat.div_le_self _ _) a.isLt), toNat_word (lt_of_le_of_lt (Nat.mod_le _ _) a.isLt)⟩

/-- DIV_RETIRE on a block whose engine e has a division, which is due. -/
theorem exec_divRetire_of_due {s : State} {e : Nat} {y : Engine} {o : LongOp} (hdiv : y.div = some o)
    (hstep : y.step = (s.dev.eng e).step) (hperiod : y.period = (s.dev.eng e).period) (hdue : o.due ≤ s.dev.nowStep e) :
    ∃ t, exec (.divRetire e) { s with dev := s.dev.setEng e y } = .next t ∧ OnlyEngine s t e ∧
      t.dev.eng e = { (y.retireLong o) with div := none } := by
  have hdone : (s.dev.setEng e y).divRetire e = (s.dev.setEng e y).setEng e { (y.retireLong o) with div := none } := by
    simp only [Device.divRetire, Device.onEng, Device.nowStep_setEng _ _ _ hstep hperiod, Device.setEng_self, hdiv]
    simp [hdue]
  refine ⟨{ s with dev := (s.dev.setEng e y).setEng e { (y.retireLong o) with div := none } }, ?_,
    (OnlyEngine.setEng s e y).trans (.setEng _ e _), ?_⟩
  · exact exec_of_dev rfl hdone
  · simp

/-- The division that a div trigger starts (R55, R120). -/
def Device.division (d : Device) (e k issue : Nat) (op : DivOp) (t : Word) : LongOp :=
  let x := d.eng e
  let a := x.opndVal .divA
  let r := divExec op a t
  { due := k + divSteps (d.paced e) op a t, trig := k, writes := [(.divQ, r.1), (.divM, r.2.1)], flags := r.2.2
    dzFault := decide (r.2.2 &&& flagDZ ≠ 0) && x.actl.getLsbD 2, issue := word issue, ctx := x.ctx }

/-- The retirement of a division of the running context: its results, its flags and what it leaves. -/
theorem Engine.retireLong_division (d : Device) (e k issue : Nat) (op : DivOp) (t : Word) :
    let x := d.eng e
    let o := d.division e k issue op t
    let r := divExec op (x.opndVal .divA) t
    let y := { ({ ((x.close .divQ).close .divM) with div := some o }.retireLong o) with div := none }
    y.result .divQ = { value := r.1, readable := true } ∧ y.result .divM = { value := r.2.1, readable := true } ∧
      (∀ p, p ≠ .divQ → p ≠ .divM → y.result p = x.result p) ∧ y.acst = x.acst ||| r.2.2 ∧
      y.pendingFaults = if o.dzFault then insertFault
        { at_ := o.due, trig := k, code := 0x0C, detail := 0, sfa := word issue, ctx := x.ctx, completion := false } x.pendingFaults
        else x.pendingFaults := by
  intro x o r y
  have hctx : o.ctx = x.ctx := rfl
  have hwrites : o.writes = [(.divQ, r.1), (.divM, r.2.1)] := rfl
  have hy : y.res = putResults ((x.close .divQ).close .divM).res o.writes ∧ y.acst = x.acst ||| o.flags ∧
      y.pendingFaults = if o.dzFault then insertFault
        { at_ := o.due, trig := o.trig, code := 0x0C, detail := 0, sfa := o.issue, ctx := x.ctx, completion := false } x.pendingFaults
        else x.pendingFaults := by
    simp only [y, Engine.retireLong, Engine.commit, Engine.close, hctx, if_true, Engine.setFlags, Engine.deferFault, true_or]
    split <;> exact ⟨rfl, rfl, rfl⟩
  obtain ⟨hres, hacst, hfaults⟩ := hy
  refine ⟨?_, ?_, fun p hq hm => ?_, hacst, hfaults⟩
  all_goals simp only [Engine.result, hres, hwrites, putResults, Engine.close]
  · simp [Assoc.get_put_of_ne]
  · simp
  · simp [Assoc.get_put_of_ne, hq, hm]

/-- A cmp trigger and its completion (R44, R82, R116). -/
theorem comparison_completes (s : State) (e k issue : Nat) (m : Move) (cc : Cc) (g : BitVec 3) (t : Word)
    (hshort : (s.dev.eng e).short = []) (hdue : k + 1 ≤ s.dev.nowStep e) :
    let x := s.dev.eng e
    let c := ccHolds cc (x.opndVal .cmpA) t
    ∃ u, exec (.shortOpComplete e) (s.onDev (fun d => d.fire e k issue m (.cmp cc g) t)) = .next u ∧ OnlyEngine s u e ∧
      (u.dev.eng e).acst = x.acst ∧ (u.dev.eng e).short = [] ∧ (∀ p, p ≠ .cmpR → (u.dev.eng e).result p = x.result p) ∧
      (u.dev.eng e).result .cmpR = { value := boolWord c, readable := true } ∧
      ∀ j, (u.dev.eng e).guard j = if j = g ∧ g ≠ 0 then c else x.guard j := by
  intro x c
  let o : ShortOp := { due := k + 1, writes := [(.cmpR, boolWord c)], flags := 0, ctx := x.ctx, drains := true }
  let y := (x.pushShort (k + 1) [(.cmpR, boolWord c)] 0).setGuard g c
  have hy : y = { x with short := [o], g := (x.setGuard g c).g } := by
    have hpush : x.pushShort (k + 1) [(.cmpR, boolWord c)] 0 = { x with short := [o] } := by
      simp [Engine.pushShort, x, hshort, o]
    simp only [y, hpush, Engine.setGuard]
    split <;> rfl
  obtain ⟨u, hu, honly, heng⟩ := exec_shortOpComplete_of_single (s := s) (e := e) (y := y) (o := o) (by rw [hy]) (by rw [hy]) (by rw [hy]) hdue
  obtain ⟨hself, hother, hacst, hnone, hg⟩ := y.afterShort_plain (k + 1) .cmpR (boolWord c)
  have ho : o = { due := k + 1, writes := [(.cmpR, boolWord c)], flags := 0, ctx := y.ctx, drains := true } := by rw [hy]
  rw [ho] at heng
  refine ⟨u, hu, honly, ?_, ?_, fun p hp => ?_, ?_, fun j => ?_⟩
  · rw [heng, hacst, hy]
  · rw [heng, hnone]
  · rw [heng, hother p hp, hy]; rfl
  · rw [heng, hself]
  · rw [← Engine.guard_setGuard x g j c]
    have hguards : (u.dev.eng e).g = (x.setGuard g c).g := by rw [heng, hg, hy]
    simp only [Engine.guard, hguards]

/-- The results of `divs` in the table of R120. -/
theorem divExec_divs (a t : Word) :
    let r := divExec .divs a t
    (t = 0 → r = (if 0 ≤ a.toInt then 0x7FFFFFFF else 0x80000000, a, flagDZ)) ∧
      (t ≠ 0 → a = 0x80000000 → t = 0xFFFFFFFF → r = (0x80000000, 0, flagV)) ∧
      (t ≠ 0 → ¬ (a = 0x80000000 ∧ t = 0xFFFFFFFF) →
        r.1.toInt = a.toInt.tdiv t.toInt ∧ r.2.1.toInt = a.toInt - r.1.toInt * t.toInt ∧ r.2.2 = 0) := by
  intro r
  refine ⟨fun ht => if_pos ht, fun ht ha hm => (if_neg ht).trans (if_pos ⟨ha, hm⟩), fun ht h => ?_⟩
  obtain ⟨hq, hm⟩ := divs_fits h
  have hr : r = (wrap32 (a.toInt.tdiv t.toInt), wrap32 (a.toInt - a.toInt.tdiv t.toInt * t.toInt), 0) := (if_neg ht).trans (if_neg h)
  rw [hr, hq]
  exact ⟨rfl, hm, rfl⟩

/-- The results of `divu` in the table of R120. -/
theorem divExec_divu (a t : Word) :
    let r := divExec .divu a t
    (t = 0 → r = (0xFFFFFFFF, a, flagDZ)) ∧
      (t ≠ 0 → r.1.toNat = a.toNat / t.toNat ∧ r.2.1.toNat = a.toNat % t.toNat ∧ r.2.2 = 0) := by
  intro r
  refine ⟨fun ht => if_pos ht, fun ht => ?_⟩
  obtain ⟨hq, hm⟩ := divu_fits a t
  have hr : r = (word (a.toNat / t.toNat), word (a.toNat % t.toNat), 0) := if_neg ht
  rw [hr]
  exact ⟨hq, hm, rfl⟩

/-- Settles O6: `divExec` gives the table of R120 by `divs_fits` and `divu_fits`, and `ccHolds` is the condition of R82. -/
theorem divisionAndComparison : Obligations.DivisionAndComparison := by
  refine ⟨fun s e k issue m op datum => ?_, fun s e k issue m cc g datum => ?_⟩
  · intro x a hfaults hdue
    let o := s.dev.division e k issue op datum
    have hsteps : o.due ≤ k + 34 := Nat.add_le_add_left (divSteps_le _ _ _ _) k
    obtain ⟨t, ht, honly, heng⟩ := exec_divRetire_of_due (s := s) (e := e)
      (y := { ((x.close .divQ).close .divM) with div := some o }) (o := o) rfl rfl rfl (hsteps.trans hdue)
    obtain ⟨hq, hm, hothers, hacst, hpend⟩ := Engine.retireLong_division s.dev e k issue op datum
    have hdz : o.dzFault = true ↔ datum = 0 ∧ x.actl.getLsbD 2 = true := by
      rw [← divExec_dz op a datum]
      simp [o, Device.division, x, a]
    rw [← heng] at hq hm hothers hacst hpend
    refine ⟨t, ht, honly, by rw [heng], fun h => ?_, fun hz htrap => ?_, hothers, _, _, hq, hm, ?_⟩
    · rw [hpend, if_neg (mt hdz.mp h), hfaults]
    · rw [hpend, if_pos (hdz.mpr ⟨hz, htrap⟩), hfaults]
      exact ⟨_, rfl, rfl, rfl, rfl, rfl, rfl, Nat.le_add_right _ _, hsteps⟩
    · have hnoflag : x.acst ||| 0 = x.acst := by simp
      rw [hacst]
      cases op with
      | divs =>
        obtain ⟨hzero, hover, hfits⟩ := divExec_divs a datum
        dsimp only
        by_cases hz : datum = 0
        · rw [if_pos hz, show divExec .divs ((s.dev.eng e).opndVal .divA) datum = _ from hzero hz]
          exact ⟨rfl, rfl, rfl⟩
        · rw [if_neg hz]
          by_cases ho : a = 0x80000000 ∧ datum = 0xFFFFFFFF
          · rw [if_pos ho, show divExec .divs ((s.dev.eng e).opndVal .divA) datum = _ from hover hz ho.1 ho.2]
            exact ⟨rfl, rfl, rfl⟩
          · obtain ⟨hquot, hrem, hflags⟩ := hfits hz ho
            rw [if_neg ho]
            exact ⟨hquot, hrem, (congrArg (x.acst ||| ·) hflags).trans hnoflag⟩
      | divu =>
        obtain ⟨hzero, hfits⟩ := divExec_divu a datum
        dsimp only
        by_cases hz : datum = 0
        · rw [if_pos hz, show divExec .divu ((s.dev.eng e).opndVal .divA) datum = _ from hzero hz]
          exact ⟨rfl, rfl, rfl⟩
        · obtain ⟨hquot, hrem, hflags⟩ := hfits hz
          rw [if_neg hz]
          exact ⟨hquot, hrem, (congrArg (x.acst ||| ·) hflags).trans hnoflag⟩
  · intro x a c hshort hdue
    obtain ⟨t, ht, honly, hacst, hnone, hothers, hresult, hguards⟩ := comparison_completes s e k issue m cc g datum hshort hdue
    have hc : ccHolds cc a datum = true ↔ c := by
      cases cc
      case bs => simpa [ccHolds] using and_ne_zero_iff a datum
      case bc => simpa [ccHolds, c] using not_iff_not.mpr (and_ne_zero_iff a datum)
      all_goals simp [ccHolds, c]
    refine ⟨t, ht, honly, hacst, hnone, hothers, fun j hj => ?_, ?_, fun hg => ?_, fun h => ?_, fun h => ?_⟩
    · rw [hguards, if_neg fun h => hj h.1]
    · rfl
    · rw [hguards, if_pos ⟨rfl, hg⟩, hc]
    · rw [hresult, hc.mpr h]; rfl
    · rw [hresult, Bool.eq_false_iff.mpr (mt hc.mp h)]; rfl

end Sys2Proof.Machine
end

section
/-! SUPPORT and proofs: the queue and the service of the shared units; O15. -/

namespace Sys2Proof.Machine

/-! ### A unit of a cluster -/

section
variable (d : Device) (c : Nat) (u : SharedUnit) (x : Unit3)

/-- A stored unit reads back; the other units of its cluster and the other clusters stay. -/
@[simp] theorem Device.unit3_setUnit3_self : (d.setUnit3 c u x).unit3 c u = x := by
  cases u <;> simp [Device.setUnit3, Device.unit3]

theorem Device.unit3_setUnit3_other {w : SharedUnit} (h : w ≠ u) : (d.setUnit3 c u x).unit3 c w = d.unit3 c w := by
  cases u <;> cases w <;> simp_all [Device.setUnit3, Device.unit3]

theorem Device.cluster_setUnit3_other {k : Nat} (h : k ≠ c) : (d.setUnit3 c u x).cluster k = d.cluster k :=
  Device.onCluster_other d c _ k h

/-- A stored unit changes the clusters alone. -/
theorem Device.setUnit3_eq : ∃ cs, d.setUnit3 c u x = { d with clusters := cs } := ⟨_, rfl⟩

end

/-! ### What a request that starts asks and reads (R52, R128, R386) -/

/-- Where no check word is struck a read corrects nothing. -/
theorem Device.readOver_of_sound {d : Device} (hm : d.marks = []) (a n : Nat) : d.readOver a n = d := by
  rw [Device.readOver, Device.correct_of_sound hm]

/-- Where no check word is struck a request reads its words and changes nothing. -/
theorem Device.sharedInputs_of_sound {d : Device} (hm : d.marks = []) (r : Request) : ∃ ws, d.sharedInputs r = ((ws, false), d) := by
  have hread : foldDev (fun d a => d.readOver a 4) d (inputAddrs r) = d := foldDev_eq_self d (fun a => Device.readOver_of_sound hm a 4) _
  have hnone : (inputAddrs r).find? (fun a => d.uncorrectable a 4) = none :=
    List.find?_eq_none.mpr fun a _ => by simp [Device.uncorrectable_of_sound hm]
  unfold Device.sharedInputs
  simp only [hread, hnone]
  exact ⟨_, rfl⟩

/-- An access that asks its target port changes the ports alone. -/
theorem Device.askTarget_eq (d : Device) (e a : Nat) (owner : ReqOwner) : ∃ ts, d.askTarget e a owner = { d with targets := ts } := by
  unfold Device.askTarget
  split
  · exact ⟨d.targets, rfl⟩
  · exact ⟨_, rfl⟩

/-- A request of bmv asks the target ports of its ends, one of kin or ipl asks none. -/
theorem Device.askBlocks_eq (d : Device) (r : Request) :
    ∃ ts, d.askBlocks r = { d with targets := ts } ∧ ((∀ op, r.op ≠ .bmv op) → ts = d.targets) := by
  unfold Device.askBlocks
  split
  · rename_i op hop
    obtain ⟨ts, hsrc⟩ : ∃ ts, (if op = .copy then d.askTarget r.engine (d.place r.engine r.src) (.bmv r.engine) else d) =
        { d with targets := ts } := by
      split
      · exact d.askTarget_eq _ _ _
      · exact ⟨d.targets, rfl⟩
    obtain ⟨ts', hdst⟩ := ({ d with targets := ts } : Device).askTarget_eq r.engine (d.place r.engine r.dst) (.bmv r.engine)
    refine ⟨ts', ?_, fun h => absurd hop (h op)⟩
    simp only [hsrc]
    exact hdst
  · exact ⟨d.targets, rfl, fun _ => rfl⟩

/-- The service that a request gets which starts now with its inputs. -/
def Device.serviceFor (d : Device) (r : Request) (start : Nat) (ins : List Word) : Service :=
  { req := r, start := start, due := start + (d.serviceOf r).2, per := (d.serviceOf r).1, inputs := ins, bad := false, suspendAt := none, stopAt := 0 }

/-- The oldest request that may be served starts. -/
theorem Device.sharedStart_of_free {d : Device} {c : Nat} {u : SharedUnit} {r : Request} (hm : d.marks = []) (hpause : d.pausedCluster c = false)
    (hfree : (d.unit3 c u).service = none) (hfind : (d.unit3 c u).queue.find? (d.servable u) = some r)
    (hstart : max (max r.trig r.earliest) (d.unit3 c u).lastDone < d.now) :
    ∃ ts ins, d.sharedStart c u = ({ d with targets := ts } : Device).setUnit3 c u
        { d.unit3 c u with
          queue := (d.unit3 c u).queue.erase r
          service := some (d.serviceFor r (max (max r.trig r.earliest) (d.unit3 c u).lastDone) ins) } ∧
      ((∀ op, r.op ≠ .bmv op) → ts = d.targets) := by
  obtain ⟨ws, hws⟩ := Device.sharedInputs_of_sound hm r
  obtain ⟨ts, hask, hkept⟩ := d.askBlocks_eq r
  unfold Device.sharedStart
  simp only [hpause, Bool.false_eq_true, if_false, hfree, hfind, hstart, if_true]
  by_cases hdead : r.dead = true
  · simp only [hdead, if_true]
    exact ⟨d.targets, [], rfl, fun _ => rfl⟩
  · simp only [hdead, Bool.false_eq_true, if_false, hws, hask]
    exact ⟨ts, ws, rfl, hkept⟩

/-- Settles O15: the service that `sharedStart_of_free` gives, with the counts of `serviceOf`. -/
theorem sharedRequestStarts : Obligations.SharedRequestStarts := by
  intro s c u r x start hm hpause hfree hfind hstart
  obtain ⟨ts, ins, hdev, htargets⟩ := Device.sharedStart_of_free hm hpause hfree hfind hstart
  have hexec := exec_of_dev (i := .sharedRequestStart c u) rfl hdev
  have hunit := ({ s.dev with targets := ts } : Device).unit3_setUnit3_self c u
    { x with queue := x.queue.erase r, service := some (s.dev.serviceFor r start ins) }
  refine ⟨_, s.dev.serviceFor r start ins, hexec, rfl, rfl, fun k hk => ?_, htargets, (congrArg Unit3.service hunit :), rfl, rfl, rfl,
    (congrArg Unit3.queue hunit :), (congrArg Unit3.lastDone hunit :), fun w hw => ?_, ?_⟩
  · exact Device.cluster_setUnit3_other _ _ _ _ hk
  · exact Device.unit3_setUnit3_other _ _ _ _ hw
  · have hdue : ∀ n, (s.dev.serviceOf r).2 = n → (s.dev.serviceFor r start ins).due = start + n := fun n hn => hn ▸ rfl
    rcases hop : r.op with op | op | op
    · cases op <;> exact hdue _ (by simp only [Device.serviceOf, hop]; rfl)
    · cases op <;> exact hdue _ (by simp only [Device.serviceOf, hop]; rfl)
    · dsimp only
      rw [Nat.add_assoc]
      exact hdue _ (by simp only [Device.serviceOf, hop])

end Sys2Proof.Machine
end

section
/-! SUPPORT and proofs: zero-fills and self-tests; O41. -/

namespace Sys2Proof.Machine

/-! ### Zero-filled ranges (R188, R189) -/

/-- Bytes after a zero-fill: blank in the range, as they stood beside it. -/
theorem Device.byte_zeroFill (d : Device) (lo len a : Nat) :
    (d.zeroFill lo len).byte a = if lo ≤ a ∧ a < lo + len then physBlank a else d.byte a :=
  Cells.read_blankRange physBlank d.mem lo len a

/-- Beyond code flash an unlisted byte reads 0. -/
theorem physBlank_eq_zero {a : Nat} (h : a < 0x300000000 ∨ 0x320000000 ≤ a) : physBlank a = 0 := if_neg (by omega)

/-- The three ranges of a cluster's memories. -/
def inClusterRams (u a : Nat) : Prop :=
  (0x100000000 + u * 0x100000 ≤ a ∧ a < 0x100000000 + (u + 1) * 0x100000) ∨
  (0x200000000 + u * 0x400000 ≤ a ∧ a < 0x200000000 + (u + 1) * 0x400000) ∨
  (0x280000000 + u * 0x10000 ≤ a ∧ a < 0x280000000 + (u + 1) * 0x10000)

/-- The fill of a cluster clears its memories and no other byte. -/
theorem Device.byte_fillCluster (d : Device) {u : Nat} (hu : u < 64) (a : Nat) :
    (inClusterRams u a → (d.fillCluster u).byte a = 0) ∧ (¬ inClusterRams u a → (d.fillCluster u).byte a = d.byte a) := by
  unfold Device.fillCluster inClusterRams
  simp only [Device.byte_zeroFill]
  constructor <;> intro h
  · have hblank : physBlank a = 0 := physBlank_eq_zero (by omega)
    rw [hblank]
    split_ifs
    · rfl
    · rfl
    · rfl
    · omega
  · rw [if_neg (by omega), if_neg (by omega), if_neg (by omega)]

/-! ### A returning unit moves on (R402) -/

/-- The state of the last command's unit is shown in TRL.SVCST alone. -/
theorem Device.svcState_eq (d : Device) (cls : UnitClass) (u n : Nat) :
    ∃ rs, d.svcState cls u n = { d with regs := rs } ∧ ∀ r, r ≠ .trlSvcst → (d.svcState cls u n).reg r = d.reg r := by
  unfold Device.svcState
  dsimp only
  split_ifs
  · exact ⟨_, rfl, fun r hr => Device.setRegFld_other d .trlSvcst r 8 3 n hr⟩
  · exact ⟨d.regs, rfl, fun _ _ => rfl⟩

/-- A unit that moves to a state changes the returning units and what TRL.SVCST shows. -/
theorem Device.moveUnit_eq (d : Device) (cls : UnitClass) (u : Nat) (st : SvcState) (n : Nat) :
    ∃ x : _ × _, d.moveUnit cls u st n = { d with returning := x.1, regs := x.2 } := by
  obtain ⟨rs, hrs, -⟩ := ({ d with returning := _ } : Device).svcState_eq cls u n
  exact ⟨(_, rs), hrs⟩

theorem Device.inReturn_iff (d : Device) (cls : UnitClass) (u : Nat) (st : SvcState) :
    d.inReturn cls u st = true ↔ ({ cls := cls, unit := u, state := st } : Returning) ∈ d.returning := by
  simp [Device.inReturn]

/-- A returning unit that moves to a state is in it. -/
theorem Device.inReturn_moveUnit {d : Device} {cls : UnitClass} {u : Nat} {st : SvcState} (h : d.inReturn cls u st = true)
    (new : SvcState) (n : Nat) : (d.moveUnit cls u new n).inReturn cls u new = true := by
  obtain ⟨rs, hrs, -⟩ := Device.svcState_eq
    { d with returning := d.returning.map (fun (r : Returning) => if r.cls = cls ∧ r.unit = u then { r with state := new } else r) } cls u n
  rw [Device.moveUnit, hrs, Device.inReturn_iff]
  exact List.mem_map.mpr ⟨_, (d.inReturn_iff cls u st).mp h, by simp⟩

/-- The unit that a self-test refuses is no longer returning, and stays out of service. -/
theorem Device.abandonReturn (d : Device) (cls : UnitClass) (u n : Nat) :
    let t := ({ d with returning := d.returning.filter (fun (r : Returning) => decide (r.cls ≠ cls ∨ r.unit ≠ u)) } : Device).svcState cls u n
    (∀ r ∈ t.returning, ¬ (r.cls = cls ∧ r.unit = u)) ∧ ∀ r, r ≠ .trlSvcst → t.reg r = d.reg r := by
  intro t
  obtain ⟨rs, hrs, hregs⟩ := Device.svcState_eq
    { d with returning := d.returning.filter (fun (r : Returning) => decide (r.cls ≠ cls ∨ r.unit ≠ u)) } cls u n
  refine ⟨fun r hr => ?_, hregs⟩
  rw [show t = _ from hrs] at hr
  have hkept := (List.mem_filter.mp hr).2
  simp only [decide_eq_true_eq] at hkept
  exact fun h => hkept.elim (· h.1) (· h.2)

/-- Units are out of service by registers other than TRL.SVCST and CFG.SPARE. -/
theorem Device.isOffline_congr {d d' : Device} (h : ∀ r, r ∈ [Reg.trlOffcl, .trlOffch, .trlOfffl, .trlOfffh, .trlOffx] → d'.reg r = d.reg r)
    (cls : UnitClass) (u : Nat) : d'.isOffline cls u = d.isOffline cls u := by
  cases cls <;> simp [Device.isOffline, h]

/-! ### Code that is placed (R188, R394) -/

/-- What a log of a failed access leaves: all but registers. -/
theorem Device.logStatus_eq (d : Device) (part : Option Nat) (master status a : Nat) :
    ∃ rs, d.logStatus part master status a = { d with regs := rs } := by
  unfold Device.logStatus
  dsimp only
  split <;> split_ifs <;> exact ⟨_, rfl⟩

/-- What decides about returns, spares and points. -/
def Device.service (d : Device) : List Returning × Assoc Nat Point × List (Nat × Nat) × Assoc Nat (BitVec 4) :=
  (d.returning, d.points, d.failedSlots, d.fusedSpares)

/-- Code placed into a cluster's SRAM leaves returns, spares and points. -/
theorem Device.placeCode_service (d : Device) (c : Nat) : (d.placeCode c).service = d.service := by
  refine foldDev_keeps Device.service _ (fun d k => ?_) d _
  dsimp only
  split_ifs
  · obtain ⟨rs, hs, hecc⟩ := d.eccError_eq (0x300000000 + c * 0x800000 + k.fromOff)
    obtain ⟨regs, hbump⟩ := d.bump_eq .cfgEcccnt 16 16
    obtain ⟨regs', hlog⟩ := (d.eccError (0x300000000 + c * 0x800000 + k.fromOff)).logStatus_eq none 152 9 (0x300000000 + c * 0x800000 + k.fromOff)
    rw [Device.logError, if_pos rfl, hlog, hecc, hbump]
    rfl
  · rfl

/-! ### Self-tests (R72, R75, R402) -/

/-- A self-test that finds no failed slot is covered and maps no spare. -/
theorem Device.spareMap_nil (d : Device) (c : Nat) : d.spareMap c [] = (true, d) := by
  simp [Device.spareMap]

/-- A spare that serves nobody covers the one engine that fails. -/
theorem Device.spareMap_one {d : Device} {c i : Nat} (hfree : d.spareServes c = none) (hi : i < 16) :
    d.spareMap c [i] = (true, { d with failedSlots := d.failedSlots ++ [(c, i)] }) := by
  have hgood : 16 ∉ [i] := by simp; omega
  simp [Device.spareMap, hfree, hi, show (16 : Nat) ≠ i by omega]

/-- Two engines that fail are not covered, and CLFAIL shows it. -/
theorem Device.spareMap_two {d : Device} {c i j : Nat} (hfree : d.spareServes c = none) (hi : i < 16) (hj : j < 16) (hij : i ≠ j) :
    d.spareMap c [i, j] = (false, d.setRegBit (.cfgSpare c) 11 true) := by
  simp [Device.spareMap, hfree, hi, hj, hij]

/-- The spare serves the engine it has just been mapped to. -/
theorem Device.spareServes_mapped {d : Device} {c : Nat} (hfree : d.spareServes c = none) (i : Nat) :
    ({ d with failedSlots := d.failedSlots ++ [(c, i)] } : Device).spareServes c = some i := by
  unfold Device.spareServes at hfree ⊢
  split at hfree
  · exact absurd hfree (by simp)
  · rename_i hfused
    simp only [hfused, Option.map_eq_none_iff] at hfree ⊢
    simp [List.find?_append, hfree]

theorem Device.spareServes_of_service {d d' : Device} (h : d'.service = d.service) (c : Nat) : d'.spareServes c = d.spareServes c := by
  simp only [Device.service, Prod.mk.injEq] at h
  obtain ⟨-, -, hfailed, hfused⟩ := h
  simp [Device.spareServes, hfailed, hfused]

/-- What the self-test of a unit finds: only a cluster has a spare. -/
def Device.testCovers (d : Device) (cls : UnitClass) (u : Nat) (failed : List Nat) : Bool × Device :=
  match cls with | .cluster => d.spareMap u failed | _ => (true, d)

/-- A unit that passes its self-test gets its code and waits for its epoch; another is abandoned. -/
theorem Device.selfTestComplete_of_test {d : Device} {cls : UnitClass} {u : Nat} (h : d.inReturn cls u .test = true) (pass : Bool)
    (failed : List Nat) :
    d.selfTestComplete cls u pass failed =
      if pass && (d.testCovers cls u failed).1 then
        (if cls = .cluster then (d.testCovers cls u failed).2.placeCode u else (d.testCovers cls u failed).2).moveUnit cls u .waitEpoch 4
      else ({ (d.testCovers cls u failed).2 with
        returning := (d.testCovers cls u failed).2.returning.filter (fun (r : Returning) => decide (r.cls ≠ cls ∨ r.unit ≠ u)) } : Device).svcState
          cls u 6 := by
  unfold Device.selfTestComplete
  rw [h]
  cases cls <;> rfl

section
variable {s : State} {cls : UnitClass} {u : Nat} (h : s.dev.inReturn cls u .test = true) {failed : List Nat} {d : Device}
include h

/-- A self-test that passes and is covered: the unit waits for an admission epoch. -/
theorem exec_selfTestComplete_passes (hmap : s.dev.testCovers cls u failed = (true, d)) (hreturning : d.returning = s.dev.returning) :
    ∃ t, exec (.selfTestComplete cls u true failed) s = .next t ∧ t.pending = s.pending ∧ t.dev.inReturn cls u .waitEpoch = true ∧
      t.dev.points = d.points ∧ t.dev.spareServes u = d.spareServes u := by
  obtain ⟨c, hc, hservice⟩ : ∃ c, (if cls = .cluster then d.placeCode u else d) = c ∧ c.service = d.service := by
    split_ifs
    · exact ⟨_, rfl, d.placeCode_service u⟩
    · exact ⟨d, rfl, rfl⟩
  have hdev : s.dev.selfTestComplete cls u true failed = c.moveUnit cls u .waitEpoch 4 := by
    rw [Device.selfTestComplete_of_test h, hmap, ← hc]
    rfl
  obtain ⟨x, hx⟩ := c.moveUnit_eq cls u .waitEpoch 4
  have hin : c.inReturn cls u .test = true := by
    rw [Device.inReturn_iff, show c.returning = d.returning from congrArg Prod.fst hservice, hreturning, ← Device.inReturn_iff, h]
  refine exec_leads (i := .selfTestComplete cls u true failed) rfl hdev ⟨rfl, Device.inReturn_moveUnit hin _ _, ?_, ?_⟩
  · show (c.moveUnit cls u .waitEpoch 4).points = d.points
    rw [hx]
    exact congrArg (·.2.1) hservice
  · show (c.moveUnit cls u .waitEpoch 4).spareServes u = d.spareServes u
    rw [hx]
    exact Device.spareServes_of_service hservice u

/-- A self-test that fails, or is not covered: the unit is no longer returning. -/
theorem exec_selfTestComplete_fails {pass covered : Bool} (hmap : s.dev.testCovers cls u failed = (covered, d))
    (hfails : (pass && covered) = false) :
    ∃ t, exec (.selfTestComplete cls u pass failed) s = .next t ∧ t.pending = s.pending ∧
      (∀ r ∈ t.dev.returning, ¬ (r.cls = cls ∧ r.unit = u)) ∧ ∀ r, r ≠ .trlSvcst → t.dev.reg r = d.reg r := by
  have hdev : s.dev.selfTestComplete cls u pass failed =
      ({ d with returning := d.returning.filter (fun (r : Returning) => decide (r.cls ≠ cls ∨ r.unit ≠ u)) } : Device).svcState cls u 6 := by
    rw [Device.selfTestComplete_of_test h, hmap, if_neg (by simp [hfails])]
  obtain ⟨hgone, hregs⟩ := d.abandonReturn cls u 6
  exact exec_leads (i := .selfTestComplete cls u pass failed) rfl hdev ⟨rfl, hgone, hregs⟩

end

/-! ### Page fills (R189) -/

/-- The fill of the point store moves no memory. -/
theorem Device.fillPointStore_keeps (d : Device) : d.fillPointStore.mem = d.mem ∧ d.fillPointStore.unfilled = d.unfilled := by
  obtain ⟨rs, hrs⟩ := foldDev_regs (f := fun d p => foldDev (fun d r => d.setReg (.ptrSubuse p r) 0) d [0, 1, 2, 3])
    (fun d p => foldDev_regs (f := fun d r => d.setReg (.ptrSubuse p r) 0) (fun _ _ => ⟨_, rfl⟩) d _)
    { (d.dropMarks (pointAddr 0) 0x40000000) with points := [], staleRanges := [], subs := [] } partNumbers
  rw [show d.fillPointStore = _ from hrs]
  exact ⟨rfl, rfl⟩

/-- A stack whose every page is clear goes on to its self-test, which moves no memory. -/
theorem Device.stackFilled_keeps (d : Device) (u : Nat) : (d.stackFilled u).mem = d.mem ∧ (d.stackFilled u).unfilled = d.unfilled := by
  obtain ⟨x, hx⟩ := d.moveUnit_eq .dramStack u .test 3
  obtain ⟨hmem, hunfilled⟩ := (d.moveUnit .dramStack u .test 3).fillPointStore_keeps
  unfold Device.stackFilled
  dsimp only
  split_ifs
  · exact ⟨hmem.trans (by rw [hx]), hunfilled.trans (by rw [hx])⟩
  · rw [hx]; exact ⟨rfl, rfl⟩
  · exact ⟨rfl, rfl⟩

/-- Settles O41: the ranges of the fills by `byte_zeroFill`, and the self-tests by what `spareMap` answers. -/
theorem fillsClearAndTestsDecide : Obligations.FillsClearAndTestsDecide := by
  intro s c u page d ours
  refine ⟨fun hu hfill => ?_, fun hpage hmem => ?_, fun htest => ?_, fun i j htest hfree hi hj hij => ?_⟩
  · have hdev : s.dev.zeroFillComplete .cluster u = (s.dev.fillCluster u).moveUnit .cluster u .test 3 := by
      unfold Device.zeroFillComplete
      rw [hfill]
      rfl
    have hin : (s.dev.fillCluster u).inReturn .cluster u .fill = true := hfill
    obtain ⟨x, hx⟩ := (s.dev.fillCluster u).moveUnit_eq .cluster u .test 3
    refine exec_leads (i := .zeroFillComplete .cluster u) rfl (hdev.trans hx) ⟨rfl, ?_, fun a ha => ?_, fun a ha => ?_, rfl, rfl⟩
    · show Device.inReturn { s.dev.fillCluster u with returning := x.1, regs := x.2 } .cluster u .test = true
      rw [← hx]
      exact Device.inReturn_moveUnit hin _ _
    · exact (s.dev.byte_fillCluster hu a).1 ha
    · exact (s.dev.byte_fillCluster hu a).2 ha
  · let d₁ : Device := { s.dev.zeroFill (0x1000000000 + page * 0x1000000) 0x1000000 with
      unfilled := s.dev.unfilled.filter (· ≠ page) }
    have hdev : s.dev.pageFillComplete page = d₁.stackFilled (page / 1024) := if_neg (not_not.mpr hmem)
    obtain ⟨hkept, hunfilled⟩ := d₁.stackFilled_keeps (page / 1024)
    have hbyte : ∀ a, (d₁.stackFilled (page / 1024)).byte a = (s.dev.zeroFill (0x1000000000 + page * 0x1000000) 0x1000000).byte a := fun a => by
      simp only [Device.byte, hkept]; rfl
    refine exec_leads (i := .pageFillComplete page) rfl hdev ⟨rfl, ?_, fun g hg => ?_, fun a hlo hhi => ?_, fun a ha => ?_⟩
    · rw [hunfilled]; simp [d₁]
    · rw [hunfilled]; simp [d₁, hg, d]
    · rw [hbyte, Device.byte_zeroFill, if_pos (by omega), physBlank_eq_zero (by omega)]
    · rw [hbyte, Device.byte_zeroFill, if_neg (by omega)]
  · have hmap : s.dev.testCovers c u [] = (true, s.dev) := by cases c <;> simp [Device.testCovers, Device.spareMap_nil]
    obtain ⟨t, ht, hpending, hin, hpoints, -⟩ := exec_selfTestComplete_passes htest hmap rfl
    obtain ⟨v, hv, hpending', hgone, hregs⟩ := exec_selfTestComplete_fails (pass := false) htest hmap rfl
    refine ⟨t, v, ht, hv, hpending, hpending', hin, hgone, Device.isOffline_congr (fun r hr => hregs r ?_) c u, hpoints⟩
    rintro rfl
    simp at hr
  · have hmap : s.dev.testCovers .cluster u [i] = (true, { s.dev with failedSlots := s.dev.failedSlots ++ [(u, i)] }) :=
      Device.spareMap_one hfree hi
    have hmap' : s.dev.testCovers .cluster u [i, j] = (false, s.dev.setRegBit (.cfgSpare u) 11 true) := Device.spareMap_two hfree hi hj hij
    obtain ⟨t, ht, -, hin, -, hserves⟩ := exec_selfTestComplete_passes htest hmap rfl
    obtain ⟨v, hv, -, hgone, hregs⟩ := exec_selfTestComplete_fails (pass := true) htest hmap' rfl
    refine ⟨t, v, ht, hv, hin, hserves.trans (Device.spareServes_mapped hfree i), ?_, hgone⟩
    rw [hregs _ (by simp), Device.setRegBit_self, bit_setBit _ _ _ _ (by norm_num), if_pos rfl]

end Sys2Proof.Machine
end

section
/-! SUPPORT. What an issue fetches, when it forms, and how a plain issue comes to execution or to its fault (R97 to R99, R135 to R144). -/

namespace Sys2Proof.Machine

/-! ### Fetching (R138 to R143) -/

theorem Assoc.put_put {κ α : Type} [DecidableEq κ] (t : Assoc κ α) (k : κ) (x y : α) : Assoc.put (Assoc.put t k x) k y = Assoc.put t k y := by
  induction t with
  | nil => simp [Assoc.put]
  | cons h rest ih =>
    obtain ⟨q, v⟩ := h
    by_cases hq : q = k <;> simp [Assoc.put, hq, ih]

/-- Of two stores of an engine the later stands. -/
@[simp] theorem Device.setEng_setEng (d : Device) (e : Nat) (x y : Engine) : (d.setEng e x).setEng e y = d.setEng e y := by
  simp [Device.setEng, Assoc.put_put]

/-- What fetching for engine e may change: the lines it holds, the marks of corrected code words and their count, the queues of the target ports and
the free choices. -/
structure Device.Fetches (d d' : Device) (e : Nat) : Prop where
  rest : ∃ x : Assoc Nat Engine × Assoc Reg Word × Assoc Nat Upset × Assoc Nat Target × Nat,
    d' = { d with engines := x.1, regs := x.2.1, marks := x.2.2.1, targets := x.2.2.2.1, fresh := x.2.2.2.2 }
  eng : ∃ ls, d'.eng e = { d.eng e with lines := ls }
  others : ∀ k, k ≠ e → d'.eng k = d.eng k
  regs : ∀ r, r ≠ .cfgEcccnt → d'.reg r = d.reg r
  struck : ∀ a n, d'.uncorrectable a n = d.uncorrectable a n
  sound : d.marks = [] → d'.marks = []

namespace Device.Fetches

theorem refl (d : Device) (e : Nat) : d.Fetches d e :=
  ⟨⟨(d.engines, d.regs, d.marks, d.targets, d.fresh), rfl⟩, ⟨(d.eng e).lines, rfl⟩, fun _ _ => rfl, fun _ _ => rfl, fun _ _ => rfl, id⟩

theorem trans {a b c : Device} {e : Nat} (h : a.Fetches b e) (h' : b.Fetches c e) : a.Fetches c e := by
  obtain ⟨⟨x, rfl⟩, ⟨ls, heng⟩, hothers, hregs, hstruck, hsound⟩ := h
  obtain ⟨⟨y, rfl⟩, ⟨ls', heng'⟩, hothers', hregs', hstruck', hsound'⟩ := h'
  exact ⟨⟨y, rfl⟩, ⟨ls', by rw [heng', heng]⟩, fun k hk => (hothers' k hk).trans (hothers k hk), fun r hr => (hregs' r hr).trans (hregs r hr),
    fun a n => (hstruck' a n).trans (hstruck a n), fun hm => hsound' (hsound hm)⟩

section
variable (d : Device) (e : Nat)

theorem lines (ls : List CodeLine) : d.Fetches (d.setEng e { d.eng e with lines := ls }) e :=
  ⟨⟨(_, d.regs, d.marks, d.targets, d.fresh), rfl⟩, ⟨ls, by simp⟩, fun k hk => Device.setEng_other d e k _ hk, fun _ _ => rfl, fun _ _ => rfl, id⟩

theorem targets (ts : Assoc Nat Target) : d.Fetches { d with targets := ts } e :=
  ⟨⟨(d.engines, d.regs, d.marks, ts, d.fresh), rfl⟩, ⟨(d.eng e).lines, rfl⟩, fun _ _ => rfl, fun _ _ => rfl, fun _ _ => rfl, id⟩

theorem fresh (n : Nat) : d.Fetches { d with fresh := n } e :=
  ⟨⟨(d.engines, d.regs, d.marks, d.targets, n), rfl⟩, ⟨(d.eng e).lines, rfl⟩, fun _ _ => rfl, fun _ _ => rfl, fun _ _ => rfl, id⟩

/-- Marks of single-bit errors go. -/
theorem marks (f : Nat × Upset → Bool) (hf : ∀ m, m.2 = .uncorrectable → f m = true) :
    d.Fetches { d with marks := d.marks.filter f } e := by
  refine ⟨⟨(d.engines, d.regs, _, d.targets, d.fresh), rfl⟩, ⟨(d.eng e).lines, rfl⟩, fun _ _ => rfl, fun _ _ => rfl, fun a n => ?_, fun hm => ?_⟩
  · simp only [Device.uncorrectable, List.any_filter]
    congr 1
    funext m
    by_cases hm : m.2 = .uncorrectable <;> simp [hm, hf]
  · simp [hm]

theorem bump : d.Fetches (d.bump .cfgEcccnt 0 16) e := by
  obtain ⟨rs, hrs⟩ := d.bump_eq .cfgEcccnt 0 16
  have hothers := fun r hr => d.bump_other .cfgEcccnt r 0 16 hr
  rw [hrs] at hothers ⊢
  exact ⟨⟨(d.engines, rs, d.marks, d.targets, d.fresh), rfl⟩, ⟨(d.eng e).lines, rfl⟩, fun _ _ => rfl, hothers, fun _ _ => rfl, id⟩

end

theorem foldDev {α : Type} {e : Nat} {f : Device → α → Device} (hf : ∀ (d : Device) x, d.Fetches (f d x) e) (d : Device) (xs : List α) :
    d.Fetches (Machine.foldDev f d xs) e := by
  induction xs generalizing d with
  | nil => exact .refl d e
  | cons x xs ih => exact (hf d x).trans (ih _)

/-- A change of what the lines of engine e show. -/
theorem onLines (d : Device) (e : Nat) (f : Engine → List CodeLine) : d.Fetches (d.onEng e (fun x => { x with lines := f x })) e :=
  .lines d e (f (d.eng e))

theorem requestLine (d : Device) (e step : Nat) (needed : List Nat) (l : Nat) : d.Fetches (d.requestLine e step needed l) e := by
  have hmissed : ∀ (pa : Nat), d.Fetches (({ d with marks := d.marks.filter (fun m => !decide (m.2 = Upset.single ∧ pa ≤ m.1 ∧ m.1 < pa + 32)) } :
      Device).askTarget e pa (.fetch e l)) e := fun pa => by
    obtain ⟨ts, hts⟩ := Device.askTarget_eq
      { d with marks := d.marks.filter (fun m => !decide (m.2 = Upset.single ∧ pa ≤ m.1 ∧ m.1 < pa + 32)) } e pa (.fetch e l)
    rw [hts]
    exact (Fetches.marks d e _ (fun m hm => by simp [hm])).trans (.targets _ e ts)
  have hstored : ∀ (c : Device) (ls : List CodeLine), d.Fetches c e → d.Fetches (c.setEng e { d.eng e with lines := ls }) e := fun c ls h => by
    obtain ⟨ls', hls⟩ := h.eng
    have := h.trans (.lines c e ls)
    rwa [hls] at this
  unfold Device.requestLine
  dsimp only
  split
  · exact .refl d e
  split
  · exact .refl d e
  split
  · exact .refl d e
  split
  · exact hstored _ _ (hmissed _)
  split
  · split
    · exact hstored _ _ (hmissed _)
    · exact hmissed _
  · split
    · exact hstored _ _ ((hmissed _).trans (.fresh _ e _))
    · exact (hmissed _).trans (.fresh _ e _)

theorem requestLines (d : Device) (e step : Nat) (needed ls : List Nat) : d.Fetches (d.requestLines e step needed ls) e :=
  .foldDev (fun d l => .requestLine d e step needed l) d ls

theorem meet (d : Device) (e s a : Nat) (needed : List Nat) : d.Fetches (d.meet e s a needed) e := by
  unfold Device.meet
  split_ifs
  · exact .refl d e
  split
  · exact .requestLine d e s needed _
  · exact .refl d e

theorem countCorrected (d : Device) (e : Nat) (i : Slot) : d.Fetches (d.countCorrected e i) e := by
  unfold Device.countCorrected
  exact (Fetches.foldDev (fun d _ => .bump d e) d _).trans (.onLines _ e _)

/-- A read corrects what it meets (R184). -/
theorem readOver (d : Device) (e a n : Nat) : d.Fetches (d.readOver a n) e := by
  unfold Device.readOver Device.correct
  refine (Fetches.marks d e _ (fun m hm => ?_)).trans (.foldDev (fun d _ => .bump d e) _ _)
  simp [hm]

theorem prefetch (d : Device) (e s : Nat) (used : List Nat) : d.Fetches (d.prefetch e s used) e := by
  unfold Device.prefetch
  split_ifs
  · split
    · exact .requestLine d e s used _
    · exact .refl d e
  · exact (Fetches.requestLines d e s used _).trans (.onLines _ e _)

section
variable {d d' : Device} {e : Nat} (h : d.Fetches d' e)
include h

/-- What fetching leaves of the block. -/
theorem keeps : d'.grade = d.grade ∧ d'.pace = d.pace ∧ d'.mem = d.mem ∧ d'.image = d.image ∧ d'.parts = d.parts ∧ d'.nor = d.nor ∧
    d'.points = d.points ∧ d'.subs = d.subs ∧ d'.staleRanges = d.staleRanges ∧ d'.clusters = d.clusters := by
  obtain ⟨x, rfl⟩ := h.rest
  exact ⟨rfl, rfl, rfl, rfl, rfl, rfl, rfl, rfl, rfl, rfl⟩

theorem tables : d.SameTables d' := fun r hr => h.regs r (by rintro rfl; simp [Reg.isTable] at hr)

end

end Device.Fetches

/-! ### What an issue is formed from (R99) -/

section
variable {d d' : Device} {e : Nat} (hl : (d'.eng e).lines = (d.eng e).lines) (hi : d'.image = d.image)

include hl in
theorem Engine.codeBytes_congr (n a : Nat) : (d'.eng e).codeBytes n a = (d.eng e).codeBytes n a := by
  induction n generalizing a with
  | zero => rfl
  | succ n ih => simp only [Engine.codeBytes, Engine.codeByte, hl, ih]

include hl in
theorem Engine.codeBad_congr (a : Nat) : (d'.eng e).codeBad a = (d.eng e).codeBad a := by rw [Engine.codeBad, hl, Engine.codeBad]

include hi in
theorem Device.codeAddr_congr (c : Nat) (a : Word) : d'.codeAddr c a = d.codeAddr c a := by rw [Device.codeAddr, hi, Device.codeAddr]

include hl hi

/-- An issue is formed from the lines the engine holds and from the image's layout. -/
theorem Device.readSlot_congr (a : Nat) : d'.readSlot e a = d.readSlot e a := by
  simp only [Device.readSlot, Engine.codeBytes_congr hl, Engine.codeBad_congr hl, Device.codeAddr_congr hi]

theorem Device.form_congr (a : Nat) : d'.form e a = d.form e a := by
  simp only [Device.form, Device.readSlot_congr hl hi]

end

/-! ### An engine that may issue (R9, R99) -/

/-- Engine e may step, waits for nothing, and nothing is taken instead of its next issue. -/
structure Device.MayIssue (d : Device) (e : Nat) : Prop where
  steps : d.mayStep e = true
  issues : d.draining e = false
  unrepeated : (d.eng e).rep = none
  awake : (d.eng e).wait = none
  settled : (d.eng e).redirect = none
  open_ : (d.eng e).bar = false
  faultless : (d.eng e).pendingFaults = []
  unexpired : (d.eng e).waitFault = none
  fresh : (d.eng e).resumeRep = 0
  ready : (d.eng e).readyAt ≤ d.nowStep e
  fetchable : (d.paced e && inFlash (d.eng e).pc) = false
  quiet : d.eventLine e = none

/-- The block at the begin of the engine's step. -/
def Device.stepped (d : Device) (e : Nat) : Device := d.setEng e { d.eng e with step := d.nowStep e, period := d.now }

/-- Engine e at the begin of its step. -/
theorem Device.eng_stepped (d : Device) (e : Nat) : (d.stepped e).eng e = { d.eng e with step := d.nowStep e, period := d.now } :=
  Device.setEng_self d e _

/-- An engine that may issue issues what is formed at its issue point. -/
theorem Device.MayIssue.issuePair {d : Device} {e : Nat} (h : d.MayIssue e) {m0 : Slot} {m1 : Option Slot} {m : Move}
    (hform : d.form e (d.eng e).pc.toNat = .go m0 m1) (hgot : m0.got = .move m) (hrep : m.pre.rep = none) :
    d.issuePair e = (d.stepped e).issueFormed e (d.nowStep e) m0 m1 false 0 0 true := by
  have hbegin : d.beginStep e (d.nowStep e) = d.stepped e := by
    simp only [Device.beginStep, h.settled, Device.stepped]
  have hform' : (d.stepped e).form e (d.eng e).pc.toNat = .go m0 m1 := by
    rw [Device.form_congr (d' := d.stepped e) (d := d) (by rw [Device.eng_stepped]) rfl, hform]
  have hdrain : (d.stepped e).draining e = false := h.issues
  have hpaced : (d.stepped e).paced e = d.paced e := rfl
  unfold Device.issuePair
  simp only [h.steps, h.unrepeated, Option.isSome_none, Bool.not_true, Bool.or_self, Bool.false_eq_true, if_false, hbegin, hdrain,
    Device.completionFault, Engine.lateCompletion, Device.eng_stepped, h.awake, h.faultless, List.find?_nil, not_lt.mpr h.ready, decide_false,
    h.open_, hpaced, h.fetchable, hform', hgot, hrep]

/-! ### A plain issue: instructions whose bytes are sound and whose moves wait for nothing (R97) -/

/-- A slot that holds a move in sound bytes. -/
structure Slot.Holds (i : Slot) (m : Move) : Prop where
  got : i.got = .move m
  sound : i.bad = false

theorem Slot.Holds.flaws {i : Slot} {m : Move} (h : i.Holds m) (k : Nat) : i.flaws k = [] := by
  simp [Slot.flaws, h.got, h.sound]

theorem Slot.Holds.barred {i : Slot} {m : Move} (h : i.Holds m) : i.barred = false := by
  simp [Slot.barred, h.got]

/-- The slots of an issue that execute. -/
def liveSlots (x : Engine) (m0 : Slot) (m1 : Option Slot) : List Live := (x.live 0 m0).toList ++ (m1.bind (x.live 1)).toList

/-- A live slot is one of a move whose guard holds. -/
theorem Engine.live_of_holds (x : Engine) {i : Slot} {m : Move} (h : i.Holds m) (k : Nat) :
    x.live k i = if x.guardHolds m then some { slot := k, addr := i.addr, len := i.len, move := m, datum := x.operand m } else none := by
  simp [Engine.live, h.got]

/-- Where no late fault is pending and no event is enabled nothing is taken at the issue point. -/
theorem Device.interrupt_of_quiet {d : Device} {e : Nat} (hfaults : (d.eng e).pendingFaults = []) (hquiet : d.eventLine e = none)
    (s rep : Nat) (may : Bool) : d.interrupt e s rep may = none := by
  simp [Device.interrupt, Engine.lateCompletion, Engine.lateDeferred, hfaults, hquiet]

/-- The event that is taken depends on the engine's status and lines, and on the registers that enable them. -/
theorem Device.Fetches.eventLine {d d' : Device} {e : Nat} (h : d.Fetches d' e) : d'.eventLine e = d.eventLine e := by
  obtain ⟨ls, heng⟩ := h.eng
  obtain ⟨-, hpace, -⟩ := h.keeps
  have henabled : ∀ n, d'.lineEnabled e n = d.lineEnabled e n := fun n => by rw [Device.lineEnabled, h.regs _ (by simp)]; rfl
  have hlatched : ∀ n, d'.lineLatched e n = d.lineLatched e n := fun n => by
    simp only [Device.lineLatched, Device.now, hpace, heng]
    rfl
  simp only [Device.eventLine, heng, henabled, hlatched]

/-- A plain issue past its stalls: what its live slots meet, then its execution (R97). -/
def Device.issueJudged (d : Device) (e s : Nat) (m0 : Slot) (m1 : Option Slot) : Device :=
  let ls := liveSlots (d.eng e) m0 m1
  let d' := d.meet e s ((m1.getD m0).addr) (issueLines m0 m1)
  match (match firstFlaw ((ls.map (fun l => d'.liveFlaws e ls l)).flatten) with | some f => some f | none => d'.grantFlaw e (d.eng e).tokens ls) with
  | some f =>
    let i := if f.slot = 0 then m0 else m1.getD m0
    let d' := if f.code = 0x0A then
        d'.onEng e (fun x => if f.detail = 2 then x.dropWaitFault
          else { x with recvFaults := x.recvFaults.filter (· ≠ x.ctx), res := putResults x.res [(.chR, 0)] })
      else if f.code = 0x0D then
        match d'.codeAddr (e / 16) (word i.addr) with | some pa => d'.eccError pa | none => d'
      else d'
    (d'.onEng e (fun x => { x with rep := none })).takeCause e
      (faultCause f.code f.detail (if f.code = 0x0A ∧ f.detail = 2 then i.addr else f.fa.getD i.addr) f.fa.isSome)
      { pc := word i.addr, slot1 := decide (f.slot = 1), m0len := if f.slot = 1 then m0.len else 0, rep := 0 } s
  | none =>
    let d' := d'.countCorrected e m0
    let d' := match m1 with | some m1 => d'.countCorrected e m1 | none => d'
    (d'.prefetch e s (issueLines m0 m1)).execute e s m0 m1 ls 0

section
variable {d : Device} {e s : Nat} {m0 : Slot} {m1 : Option Slot} {a : Move}

/-- What a plain issue asks of its engine and its slots. -/
structure Device.PlainIssue (d : Device) (e : Nat) (m0 : Slot) (m1 : Option Slot) (a : Move) : Prop where
  faultless : (d.eng e).pendingFaults = []
  unexpired : (d.eng e).waitFault = none
  quiet : d.eventLine e = none
  first : m0.Holds a
  second : ∀ i, m1 = some i → ∃ b, i.Holds b ∧ pairDetail a b = 0
  unwaiting : ∀ l ∈ liveSlots (d.eng e) m0 m1, l.move.waits = none
  room : ∀ l ∈ liveSlots (d.eng e) m0 m1, ∀ t, l.move.body.dst = .trig t → d.mustWait e t = false

variable (h : d.PlainIssue e m0 m1 a)
include h

/-- A plain issue is judged by what its live slots meet: it executes, or its first flaw is taken as a precise fault. -/
theorem Device.PlainIssue.issueFormed :
    ∃ d', d.Fetches d' e ∧
      let ls := liveSlots (d.eng e) m0 m1
      let all := (ls.map (fun l => d'.liveFlaws e ls l)).flatten
      (firstFlaw all = none → d'.grantFlaw e (d.eng e).tokens ls = none →
        ∃ D, d.Fetches D e ∧ d.issueFormed e s m0 m1 false 0 0 true = D.execute e s m0 m1 ls 0) ∧
      ∀ f, firstFlaw all = some f → f.slot = 0 → f.code ≠ 0x0A → f.code ≠ 0x0D →
        d.issueFormed e s m0 m1 false 0 0 true = (d'.onEng e (fun x => { x with rep := none })).takeCause e
          (faultCause f.code f.detail (f.fa.getD m0.addr) f.fa.isSome) { pc := word m0.addr, slot1 := false, m0len := 0, rep := 0 } s := by
  have hmet := Device.Fetches.meet d e s ((m1.getD m0).addr) (issueLines m0 m1)
  refine ⟨_, hmet, ?_⟩
  intro ls all
  have hbytes : m0.flaws 0 ++ ((m1.map (fun i => i.flaws 1)).getD []) = [] := by
    cases hm1 : m1 with
    | none => simp [h.first.flaws]
    | some i =>
      obtain ⟨b, hb, -⟩ := h.second i hm1
      simp [h.first.flaws, hb.flaws]
  have hstalls : ls.any (fun l => match l.move.waits with | some w => !d.paced e && (d.eng e).outstanding w | none => false) = false :=
    List.any_eq_false.mpr fun l hl => by simp [h.unwaiting l hl]
  have hfull : ls.any (fun l => match l.move.body.dst with | .trig t => d.mustWait e t | _ => false) = false :=
    List.any_eq_false.mpr fun l hl => by
      split
      · rename_i t ht
        simp [h.room l hl t ht]
      · simp
  have hquiet : (d.meet e s ((m1.getD m0).addr) (issueLines m0 m1)).interrupt e s 0 true = none := by
    obtain ⟨xs, heng⟩ := hmet.eng
    exact Device.interrupt_of_quiet (by rw [heng]; exact h.faultless) (hmet.eventLine.trans h.quiet) s 0 true
  have hbarred : (m0.barred || m1.any Slot.barred) = false := by
    cases hm1 : m1 with
    | none => simp [h.first.barred]
    | some i =>
      obtain ⟨b, hb, -⟩ := h.second i hm1
      simp [h.first.barred, hb.barred]
  have hpair : m1.map (·.got) = none ∨ ∃ b, m1.map (·.got) = some (.move b) ∧ pairDetail a b = 0 := by
    cases hm1 : m1 with
    | none => exact .inl rfl
    | some i =>
      obtain ⟨b, hb, hok⟩ := h.second i hm1
      exact .inr ⟨b, by simp [hb.got], hok⟩
  have hformed : d.issueFormed e s m0 m1 false 0 0 true = d.issueJudged e s m0 m1 := by
    unfold Device.issueFormed
    simp only [Bool.false_and, Bool.false_eq_true, if_false, hbarred, Bool.not_false, Bool.true_and]
    rw [if_neg, if_neg, hbytes, h.unexpired, hquiet, h.first.got]
    · rcases hpair with h2 | ⟨b, h2, hok⟩
      · simp only [h2]
        rfl
      · simp only [h2, hok, if_true]
        rfl
    · exact Bool.eq_false_iff.mp hfull
    · exact Bool.eq_false_iff.mp hstalls
  refine ⟨fun hnone hgrant => ?_, fun f hf hslot ha hd => ?_⟩
  · rw [hformed, Device.issueJudged]
    simp only [all, ls] at hnone hgrant
    rw [hnone, hgrant]
    refine ⟨_, hmet.trans (.trans (.countCorrected _ e m0) (.trans ?_ (.prefetch _ e s _))), rfl⟩
    cases m1 with
    | none => exact .refl _ e
    | some i => exact .countCorrected _ e i
  · rw [hformed, Device.issueJudged]
    simp only [all, ls] at hf
    simp only [hf, hslot, if_true, ha, hd, false_and, if_false]
    rfl

end

/-! ### What a live slot meets, and its execution (R40 to R46, R97, R145) -/

/-- A slot whose source can be read, of ports that its grade has. -/
structure Live.Reads (l : Live) (g : Grade) (v : Word) : Prop where
  unwaiting : l.move.waits = none
  datum : l.datum = some v
  source : ∀ p, l.move.body.operand = .port p → p.absent g = false
  present : l.move.body.dst.absent g = false

section
variable {d : Device} {e : Nat} {ls : List Live} {l : Live} {v : Word} (h : l.Reads d.grade v)
include h

/-- A slot that starts nothing meets nothing. -/
theorem Live.Reads.liveFlaws_of_register (hdst : ∀ t, l.move.body.dst ≠ .trig t) : d.liveFlaws e ls l = [] := by
  have hsource : (match l.move.body.operand with | .port p => p.absent d.grade | .value _ => false) = false := by
    split
    · exact h.source _ ‹_›
    · rfl
  unfold Device.liveFlaws
  rw [h.unwaiting, h.datum, h.present]
  cases ho : l.move.body.operand <;> cases hd : l.move.body.dst <;> simp_all

/-- The conditions of a slot that triggers are those of its trigger. -/
theorem Live.Reads.liveFlaws_of_trig {t : Trig} (hdst : l.move.body.dst = .trig t) :
    d.liveFlaws e ls l = d.triggerFlaws e l.slot l.move t (operandsAfter (d.eng e) ls) (some v) := by
  have hpresent : t.unit.absent d.grade = false := by
    have := h.present
    rw [hdst] at this
    exact this
  unfold Device.liveFlaws
  rw [h.unwaiting, h.datum, h.present, hdst]
  cases ho : l.move.body.operand with
  | value w => simp [hpresent]
  | port p => simp [hpresent, h.source p ho]

end

/-- A cu trigger or a write of a system register: what acts at the end of the pair. -/
def Trig.acts : Trig → Prop
  | .cu _ => True
  | .sys op => op = .wr
  | _ => False

/-- A destination of a move that starts nothing before the end of the pair. -/
def Dst.plain : Dst → Prop
  | .opnd _ => False
  | .trig t => t.acts
  | _ => True

section
variable {ls : List Live} (h : ∀ l ∈ ls, l.move.body.dst.plain)
include h

theorem applyOperands_of_plain (x : Engine) : applyOperands x ls = x := by
  induction ls generalizing x with
  | nil => rfl
  | cons l ls ih =>
    have hl := h l List.mem_cons_self
    have ih := ih (fun k hk => h k (List.mem_cons_of_mem l hk))
    unfold applyOperands
    split
    · simp_all [Dst.plain]
    · exact ih x

theorem Device.fireAll_of_plain (d : Device) (e s : Nat) : d.fireAll e s ls = d := by
  induction ls generalizing d with
  | nil => rfl
  | cons l ls ih =>
    have hl := h l List.mem_cons_self
    have ih := ih (fun k hk => h k (List.mem_cons_of_mem l hk))
    unfold Device.fireAll
    split
    next t ht =>
      rw [ht] at hl
      have hfire : d.fire e s l.addr l.move t (l.datum.getD 0) = d := by
        cases t <;> simp_all [Dst.plain, Trig.acts, Device.fire]
      rw [hfire, ih]
    · exact ih d

theorem issueTokens_of_plain : issueTokens ls = 0 := by
  refine List.sum_eq_zero fun n hn => ?_
  obtain ⟨l, hl, rfl⟩ := List.mem_map.mp hn
  have hl := h l hl
  split
  next t ht =>
    rw [ht] at hl
    cases t <;> simp_all [Dst.plain, Trig.acts, Trig.tokens]
  · rfl

theorem grantFlaw_of_plain (d : Device) (e n : Nat) : d.grantFlaw e n ls = none := by
  induction ls generalizing n with
  | nil => rfl
  | cons l ls ih =>
    have hl := h l List.mem_cons_self
    have ih := ih (fun k hk => h k (List.mem_cons_of_mem l hk))
    unfold Device.grantFlaw
    split
    next t ht => simp_all [Dst.plain, Trig.acts]
    next t hx ht =>
      rw [ht] at hl
      have : t.tokens = 0 := by cases t <;> simp_all [Dst.plain, Trig.acts, Trig.tokens]
      simp [this, ih]
    · exact ih n

/-- What waits at no queue. -/
theorem mustWait_of_plain (d : Device) (e : Nat) : ∀ l ∈ ls, ∀ t, l.move.body.dst = .trig t → d.mustWait e t = false := by
  intro l hl t ht
  have hl := h l hl
  rw [ht] at hl
  cases t <;> simp_all [Dst.plain, Trig.acts, Device.mustWait]

end

/-- The end of a pair: its cu trigger, then its system register writes. -/
def Device.endPair (d : Device) (e s ring : Nat) (sel : Word) (last : Slot) (ls : List Live) : Device :=
  let d := d.issueCu e s last (ls.find? (fun l => decide (l.addr = last.addr)))
  match (d.eng e).run with | .running => d.applySys e ring sel ls | _ => d

/-- A pair whose moves start nothing before its end. -/
theorem Device.execute_of_plain (d : Device) (e s : Nat) (m0 : Slot) (m1 : Option Slot) {ls : List Live}
    (h : ∀ l ∈ ls, l.move.body.dst.plain) :
    d.execute e s m0 m1 ls 0 = (d.setEng e { applyMoves (d.eng e) ls with
      resumeRep := 0, readyAt := s + 1, pc := word ((m1.getD m0).addr + (m1.getD m0).len), rep := none }).endPair e s (d.eng e).ring
      ((d.eng e).opndVal .sysSel) (m1.getD m0) ls := by
  have hrecv : ls.any (fun l => decide (l.move.body.dst = .trig (.ch .recv))) = false :=
    List.any_eq_false.mpr fun l hl => by
      have hl := h l hl
      simp only [decide_eq_true_eq]
      rintro he
      rw [he] at hl
      exact hl
  unfold Device.execute Device.endPair
  simp only [Device.onEng, applyOperands_of_plain h, Device.fireAll_of_plain h, issueTokens_of_plain h, hrecv, Device.setEng_self,
    Device.setEng_setEng, if_true, Nat.add_zero, Bool.false_eq_true, if_false] <;> rfl

/-- What fetching leaves of the memories. -/
theorem Device.Fetches.byte {d d' : Device} {e : Nat} (h : d.Fetches d' e) (k : Nat) : d'.byte k = d.byte k := by
  obtain ⟨x, rfl⟩ := h.rest
  rfl

section
variable {d : Device} {e s : Nat} {m0 : Slot} {m1 : Option Slot} {a : Move}

/-- A plain issue whose slots meet nothing executes up to its end. -/
theorem Device.PlainIssue.executes (h : d.PlainIssue e m0 m1 a) (hplain : ∀ l ∈ liveSlots (d.eng e) m0 m1, l.move.body.dst.plain)
    (hclear : ∀ d', d.Fetches d' e → ∀ l ∈ liveSlots (d.eng e) m0 m1, d'.liveFlaws e (liveSlots (d.eng e) m0 m1) l = []) :
    ∃ D, d.Fetches D e ∧ d.issueFormed e s m0 m1 false 0 0 true =
      (D.setEng e { applyMoves (D.eng e) (liveSlots (d.eng e) m0 m1) with
        resumeRep := 0, readyAt := s + 1, pc := word ((m1.getD m0).addr + (m1.getD m0).len), rep := none }).endPair e s (D.eng e).ring
        ((D.eng e).opndVal .sysSel) (m1.getD m0) (liveSlots (d.eng e) m0 m1) := by
  obtain ⟨d', hd', hexec, -⟩ := h.issueFormed (s := s)
  have hflaws : firstFlaw ((liveSlots (d.eng e) m0 m1).map (fun l => d'.liveFlaws e (liveSlots (d.eng e) m0 m1) l)).flatten = none := by
    rw [List.flatten_eq_nil_iff.mpr]
    · rfl
    · intro fs hfs
      obtain ⟨l, hl, rfl⟩ := List.mem_map.mp hfs
      exact hclear d' hd' l hl
  obtain ⟨D, hD, heq⟩ := hexec hflaws (grantFlaw_of_plain hplain d' e _)
  exact ⟨D, hD, by rw [heq, Device.execute_of_plain D e s m0 m1 hplain]⟩

end

/-- At the begin of its step an engine that may issue meets nothing but its slots. -/
theorem Device.MayIssue.plainIssue {d : Device} {e : Nat} (h : d.MayIssue e) {m0 : Slot} {m1 : Option Slot} {a : Move} (h0 : m0.Holds a)
    (h1 : ∀ i, m1 = some i → ∃ b, i.Holds b ∧ pairDetail a b = 0)
    (hunwaiting : ∀ l ∈ liveSlots ((d.stepped e).eng e) m0 m1, l.move.waits = none)
    (hroom : ∀ l ∈ liveSlots ((d.stepped e).eng e) m0 m1, ∀ t, l.move.body.dst = .trig t → (d.stepped e).mustWait e t = false) :
    (d.stepped e).PlainIssue e m0 m1 a where
  faultless := by rw [d.eng_stepped]; exact h.faultless
  unexpired := by rw [d.eng_stepped]; exact h.unexpired
  quiet := by
    rw [← h.quiet]
    simp only [Device.eventLine, Device.lineLatched, Device.lineEnabled, d.eng_stepped]
    rfl
  first := h0
  second := h1
  unwaiting := hunwaiting
  room := hroom

/-- A pair that writes no system register. -/
theorem Device.applySys_of_none (d : Device) (e ring : Nat) (sel : Word) {ls : List Live} (h : ∀ l ∈ ls, l.move.body.dst ≠ .trig (.sys .wr)) :
    d.applySys e ring sel ls = d := by
  induction ls generalizing d with
  | nil => rfl
  | cons l ls ih =>
    unfold Device.applySys
    split
    · exact absurd ‹_› (h l List.mem_cons_self)
    · exact ih d (fun k hk => h k (List.mem_cons_of_mem l hk))

/-- A slot that is no cu trigger leaves the issue point behind it. -/
theorem Device.issueCu_of_other (d : Device) (e s : Nat) {i : Slot} {m : Move} (hi : i.Holds m) (hm : ∀ op, m.body.dst ≠ .trig (.cu op))
    (l : Option Live) : d.issueCu e s i l = d := by
  unfold Device.issueCu
  rw [hi.got]
  dsimp only
  split
  · exact absurd ‹_› (hm _)
  · rfl

/-- A pair that writes no system register ends at its cu trigger. -/
theorem Device.endPair_of_unwritten (d : Device) (e s ring : Nat) (sel : Word) (last : Slot) {ls : List Live}
    (hls : ∀ l ∈ ls, l.move.body.dst ≠ .trig (.sys .wr)) :
    d.endPair e s ring sel last ls = d.issueCu e s last (ls.find? (fun l => decide (l.addr = last.addr))) := by
  simp only [Device.endPair]
  split
  · exact Device.applySys_of_none _ e ring sel hls
  · rfl

end Sys2Proof.Machine
end

section
/-! SUPPORT and proofs: issues of one step. Two moves between registers (R40 to R44, R99), and an instruction that issues alone (R46). -/

namespace Sys2Proof.Machine

/-! ### Two moves between registers -/

/-- Settles O7: fetching changes no other part of the engine, and the moves write one after the other. -/
theorem pairOfRegisterMovesIssues : Obligations.PairOfRegisterMovesIssues := by
  intro s e m0 m1 a b i j va vb d x hsteps hissues hrep hwait hredirect hbar hfaults hexpired hresume hready hflash hevent hform ha hb hbad0
    hbad1 hnorep hga hgb hwa hwb hda hdb hij hpa hpb hva hvb
  have hmay : d.MayIssue e := ⟨hsteps, hissues, hrep, hwait, hredirect, hbar, hfaults, hexpired, hresume, hready, hflash, hevent⟩
  have h0 : m0.Holds a := ⟨ha, hbad0⟩
  have h1 : m1.Holds b := ⟨hb, hbad1⟩
  have hx : (d.stepped e).eng e = { x with step := d.nowStep e, period := d.now } := d.eng_stepped e
  have hlive : liveSlots ((d.stepped e).eng e) m0 (some m1) =
      [{ slot := 0, addr := m0.addr, len := m0.len, move := a, datum := some va },
       { slot := 1, addr := m1.addr, len := m1.len, move := b, datum := some vb }] := by
    rw [hx, liveSlots, Engine.live_of_holds _ h0, Option.bind_some, Engine.live_of_holds _ h1]
    have hga' : Engine.guardHolds { x with step := d.nowStep e, period := d.now } a = true := hga
    have hgb' : Engine.guardHolds { x with step := d.nowStep e, period := d.now } b = true := hgb
    have hva' : Engine.operand { x with step := d.nowStep e, period := d.now } a = some va := hva
    have hvb' : Engine.operand { x with step := d.nowStep e, period := d.now } b = some vb := hvb
    rw [hga', hgb', hva', hvb']
    rfl
  have hunwaiting : ∀ l ∈ liveSlots ((d.stepped e).eng e) m0 (some m1), l.move.waits = none := by simp [hlive, hwa, hwb]
  have hplain : ∀ l ∈ liveSlots ((d.stepped e).eng e) m0 (some m1), l.move.body.dst.plain := by simp [hlive, hda, hdb, Dst.plain]
  have hpair : pairDetail a b = 0 := by simp [pairDetail, hda, hdb, hij]
  have hissue := hmay.plainIssue h0 (m1 := some m1) (by rintro i ⟨⟩; exact ⟨b, h1, hpair⟩) hunwaiting
    (mustWait_of_plain hplain _ e)
  obtain ⟨D, hD, heq⟩ := hissue.executes (s := d.nowStep e) hplain (fun d' hd' l hl => by
    have hg : d'.grade = d.grade := hd'.keeps.1
    rw [hlive] at hl
    obtain rfl | rfl := List.mem_pair.mp hl
    · exact Live.Reads.liveFlaws_of_register (v := va) ⟨hwa, rfl, by rwa [hg], by rw [hda]; rfl⟩ (by simp [hda])
    · exact Live.Reads.liveFlaws_of_register (v := vb) ⟨hwb, rfl, by rwa [hg], by rw [hdb]; rfl⟩ (by simp [hdb]))
  obtain ⟨ls, heng⟩ := hD.eng
  rw [hlive, Device.endPair_of_unwritten _ _ _ _ _ _ (by simp [hda, hdb]), Option.getD_some,
    Device.issueCu_of_other _ _ _ h1 (by simp [hdb])] at heq
  refine exec_leads (i := .issuePair e) rfl ((hmay.issuePair hform ha hnorep).trans heq) ?_
  simp only [Device.setEng_self, heng, hx, applyMoves, hda, hdb, Engine.writePort, Option.getD_some, true_and]
  exact ⟨fun k hk => (Device.setEng_other D e k _ hk).trans ((hD.others k hk).trans (Device.setEng_other d e k _ hk)),
    fun k => hD.byte k⟩

end Sys2Proof.Machine
end

section
/-! SUPPORT. What fetching leaves of the tables an engine reads, and what a taken transfer does (R139, R145 to R149, R199, R208). -/

namespace Sys2Proof.Machine

/-- What is read of memory depends on its bytes. -/
theorem Device.bytes_congr {d d' : Device} (h : ∀ k, d'.byte k = d.byte k) (a n : Nat) : d'.bytes a n = d.bytes a n := by
  induction n generalizing a with
  | zero => rfl
  | succ n ih => simp only [Device.bytes, h, ih]

/-! ### An engine that moves on, with what it fetches -/

/-- Block d' is block d, but engine e is y, and what fetching changes may have changed. -/
structure Device.Reaches (d d' : Device) (e : Nat) (y : Engine) : Prop where
  rest : ∃ x : Assoc Nat Engine × Assoc Reg Word × Assoc Nat Upset × Assoc Nat Target × Nat,
    d' = { d with engines := x.1, regs := x.2.1, marks := x.2.2.1, targets := x.2.2.2.1, fresh := x.2.2.2.2 }
  eng : d'.eng e = y
  others : ∀ k, k ≠ e → d'.eng k = d.eng k
  regs : ∀ r, r ≠ .cfgEcccnt → d'.reg r = d.reg r
  struck : ∀ a n, d'.uncorrectable a n = d.uncorrectable a n
  sound : d.marks = [] → d'.marks = []

/-- Engine x behind a transfer: its lines, branch targets and redirection as they are found, the rest as it stood. -/
def Engine.turned (x : Engine) (ls : List CodeLine) (bt : List (Nat × Word)) (t : Word) (r : Nat) (rd : Option (Nat × Word)) : Engine :=
  { x with lines := ls, btb := bt, pc := t, readyAt := r, redirect := rd, rep := none, bar := false }

/-- What a transfer leaves of its engine. -/
@[simp] theorem Engine.turned_fields (x : Engine) (ls : List CodeLine) (bt : List (Nat × Word)) (t : Word) (r : Nat) (rd : Option (Nat × Word)) :
    (x.turned ls bt t r rd).d = x.d ∧ (x.turned ls bt t r rd).g = x.g ∧ (x.turned ls bt t r rd).bnk = x.bnk ∧
    (x.turned ls bt t r rd).rc = x.rc ∧ (x.turned ls bt t r rd).opnd = x.opnd ∧ (x.turned ls bt t r rd).acc = x.acc ∧
    (x.turned ls bt t r rd).res = x.res ∧ (x.turned ls bt t r rd).short = x.short ∧ (x.turned ls bt t r rd).st = x.st ∧
    (x.turned ls bt t r rd).acst = x.acst ∧ (x.turned ls bt t r rd).lsu = x.lsu ∧ (x.turned ls bt t r rd).sep = x.sep ∧
    (x.turned ls bt t r rd).srp = x.srp ∧ (x.turned ls bt t r rd).srs = x.srs ∧ (x.turned ls bt t r rd).gsp = x.gsp ∧
    (x.turned ls bt t r rd).save = x.save ∧ (x.turned ls bt t r rd).wait = x.wait ∧ (x.turned ls bt t r rd).gtb = x.gtb ∧
    (x.turned ls bt t r rd).htb = x.htb ∧ (x.turned ls bt t r rd).run = x.run ∧ (x.turned ls bt t r rd).ch = x.ch ∧
    (x.turned ls bt t r rd).tokens = x.tokens ∧ (x.turned ls bt t r rd).pwa = x.pwa ∧ (x.turned ls bt t r rd).pwc = x.pwc ∧
    (x.turned ls bt t r rd).actl = x.actl ∧ (x.turned ls bt t r rd).flagsAt = x.flagsAt ∧ (x.turned ls bt t r rd).ctx = x.ctx ∧
    (x.turned ls bt t r rd).nextCtx = x.nextCtx ∧ (x.turned ls bt t r rd).pendingFaults = x.pendingFaults ∧
    (x.turned ls bt t r rd).step = x.step ∧ (x.turned ls bt t r rd).pc = t ∧ (x.turned ls bt t r rd).readyAt = r ∧
    (x.turned ls bt t r rd).resumeRep = x.resumeRep ∧ (x.turned ls bt t r rd).bar = false ∧ (x.turned ls bt t r rd).ring = x.ring ∧
    (∀ q, (x.turned ls bt t r rd).saveSet q = x.saveSet q) ∧ (∀ q, (x.turned ls bt t r rd).gspOff q = x.gspOff q) ∧
    (∀ q, (x.turned ls bt t r rd).result q = x.result q) ∧ (∀ q, (x.turned ls bt t r rd).guard q = x.guard q) ∧
    (∀ q, (x.turned ls bt t r rd).opndVal q = x.opndVal q) :=
  ⟨rfl, rfl, rfl, rfl, rfl, rfl, rfl, rfl, rfl, rfl, rfl, rfl, rfl, rfl, rfl, rfl, rfl, rfl, rfl, rfl, rfl, rfl, rfl, rfl, rfl, rfl, rfl,
  rfl, rfl, rfl, rfl, rfl, rfl, rfl, rfl, fun _ => rfl, fun _ => rfl, fun _ => rfl, fun _ => rfl, fun _ => rfl⟩

namespace Device.Reaches

theorem refl (d : Device) (e : Nat) : d.Reaches d e (d.eng e) :=
  ⟨⟨(d.engines, d.regs, d.marks, d.targets, d.fresh), rfl⟩, rfl, fun _ _ => rfl, fun _ _ => rfl, fun _ _ => rfl, id⟩

section
variable {d d' : Device} {e : Nat} {y : Engine} (h : d.Reaches d' e y)
include h

theorem setEng (z : Engine) : d.Reaches (d'.setEng e z) e z := by
  obtain ⟨⟨x, rfl⟩, -, hothers, hregs, hstruck, hsound⟩ := h
  exact ⟨⟨(Assoc.put x.1 e z, x.2), rfl⟩, Device.setEng_self _ _ _, fun k hk => (Device.setEng_other _ _ _ _ hk).trans (hothers k hk), hregs,
    hstruck, hsound⟩

theorem onEng (f : Engine → Engine) : d.Reaches (d'.onEng e f) e (f y) := by
  rw [Device.onEng, h.eng]
  exact h.setEng _

theorem fetches {d'' : Device} (hf : d'.Fetches d'' e) : ∃ ls, d.Reaches d'' e { y with lines := ls } := by
  obtain ⟨⟨x, rfl⟩, heng, hothers, hregs, hstruck, hsound⟩ := h
  obtain ⟨⟨x', rfl⟩, ⟨ls, heng'⟩, hothers', hregs', hstruck', hsound'⟩ := hf
  exact ⟨ls, ⟨x', rfl⟩, by rw [heng', heng], fun k hk => (hothers' k hk).trans (hothers k hk), fun r hr => (hregs' r hr).trans (hregs r hr),
    fun a n => (hstruck' a n).trans (hstruck a n), fun hm => hsound' (hsound hm)⟩

theorem byte (k : Nat) : d'.byte k = d.byte k := by
  obtain ⟨x, rfl⟩ := h.rest
  rfl

end

end Device.Reaches

/-! ### What an engine that moves on leaves of the tables -/

section
variable {d d' : Device} {e : Nat} {y : Engine} (h : d.Reaches d' e y)
include h

theorem Device.Reaches.grade : d'.grade = d.grade := by
  obtain ⟨x, rfl⟩ := h.rest
  rfl

theorem Device.Reaches.tables : d.SameTables d' := fun r hr => h.regs r (by rintro rfl; simp [Reg.isTable] at hr)

theorem Device.Reaches.engPart (k : Nat) : d'.engPart k = d.engPart k := h.tables.engPart k

theorem Device.Reaches.part (p : Nat) : d'.part p = d.part p := by
  obtain ⟨x, rfl⟩ := h.rest
  rfl

theorem Device.Reaches.paced (k : Nat) : d'.paced k = d.paced k := by
  simp only [Device.paced, Device.pacedPart, h.engPart, h.part]

theorem Device.Reaches.recorded (p : Nat) : d'.recorded p = d.recorded p := by
  simp only [Device.recorded, Device.decantOf, h.part]

theorem Device.Reaches.mapAddr (p q a : Nat) : d'.mapAddr p q a = d.mapAddr p q a := by
  have hcl (p : Nat) : d'.partClusters p = d.partClusters p := by simp only [Device.partClusters, h.tables.ownsCluster, h.grade]
  have hln (p : Nat) : d'.partLanes p = d.partLanes p := by simp only [Device.partLanes, h.tables.laneOwner, h.grade]
  have hpg (p : Nat) : d'.pageList p = d.pageList p := by
    simp only [Device.pageList, h.tables (.parDrl _ _) rfl, h.tables (.parDrb _ _) rfl]
  have hbl (p : Nat) : d'.blockList p = d.blockList p := by
    simp only [Device.blockList, h.regs (.ptrRl _) (by simp), h.regs (.ptrRb _) (by simp)]
  have htm (n : Nat) : d'.timerOwner n = d.timerOwner n := by simp only [Device.timerOwner, h.regs (.evrTctl _) (by simp)]
  have hsc (n : Nat) : d'.sourceOwner n = d.sourceOwner n := by simp only [Device.sourceOwner, h.regs (.evrRoute _) (by simp)]
  simp only [Device.mapAddr, Device.mapPoint, Device.mapEngine, Device.ownedTimers, Device.ownedSources, hcl, hln, hpg, hbl, htm, hsc]

/-- An address names what it named. -/
theorem Device.Reaches.place (k a : Nat) : d'.place k a = d.place k a := by
  simp only [Device.place, h.engPart, h.recorded, h.mapAddr]

/-- Memory and the point store window read as they read. -/
theorem Device.Reaches.windowBytes (a n : Nat) : d'.windowBytes a n = d.windowBytes a n := by
  have hword (pt off : Nat) : d'.pointWord pt off = d.pointWord pt off := by
    obtain ⟨x, rfl⟩ := h.rest
    rfl
  simp only [Device.windowBytes, Device.bytes_congr h.byte, hword]

/-- A table entry reads as it read. -/
theorem Device.Reaches.tableRead (k a n : Nat) : d'.tableRead k a n = d.tableRead k a n := by
  have hpt (pt : Nat) : d'.pointRange pt = d.pointRange pt := by
    simp only [Device.pointRange, h.regs (.ptrRl _) (by simp), h.regs (.ptrRb _) (by simp)]
  have hoff (a : Nat) : d'.offline a = d.offline a := by
    simp only [Device.offline, h.grade, h.regs .trlOffcl (by simp), h.regs .trlOffch (by simp), h.regs .trlOffx (by simp), h.regs (.cfgSpare _) (by simp)]
  simp only [Device.tableRead, h.engPart, h.tables.clusterOwner, h.tables.ownsPage, h.tables.hostOwner, hpt, h.grade, hoff, h.struck, h.windowBytes]

end

/-! ### Transfers (R139, R147, R149) -/

namespace Device.Reaches

section
variable {d d' : Device} {e : Nat} {y : Engine} (h : d.Reaches d' e y)
include h

/-- A transfer leaves the target in the issue point, and a later issue (R147, R149). -/
theorem transfer (s extra : Nat) (t : Word) : ∃ r rd, d.Reaches (d'.transfer e s extra t) e (y.turned y.lines y.btb t r rd) ∧ s + 1 + extra ≤ r ∧
    (d.paced e = true → r = s + extra + if t.toNat % 16 = 0 then 4 else 5) := by
  unfold Device.transfer
  rw [h.eng, h.paced]
  refine ⟨_, _, h.setEng _, ?_, fun hp => by rw [if_pos hp]⟩
  simp only [freeTransfer]
  split_ifs <;> omega

/-- A transfer of the cu trigger at address a. -/
theorem taken (s extra a : Nat) (t : Word) : ∃ ls bt r rd, d.Reaches (d'.taken e s extra a t) e (y.turned ls bt t r rd) ∧ s + 1 + extra ≤ r ∧
    (d.paced e = true → r = s + extra + if t.toNat % 16 = 0 then 4 else 5) := by
  obtain ⟨r, rd, hturn, hleast, hpaced⟩ := h.transfer s extra t
  unfold Device.taken
  rw [h.paced]
  split
  · exact ⟨_, _, r, rd, hturn, hleast, hpaced⟩
  next hfree =>
    split
    · obtain ⟨ls, hmet⟩ := h.fetches (.meet d' e s a [])
      exact ⟨ls, y.btb, s + 1 + extra, none, hmet.onEng _, le_rfl, fun hp => absurd hp hfree⟩
    · exact ⟨_, _, r, rd, hturn.onEng _, hleast, hpaced⟩

end

end Device.Reaches

end Sys2Proof.Machine
end

section
/-! SUPPORT. An instruction that issues alone (R46, R97, R145, R195). -/

namespace Sys2Proof.Machine

/-- The live slot of an instruction that issues alone and reads v. -/
def Slot.alone (i : Slot) (m : Move) (v : Word) : Live := { slot := 0, addr := i.addr, len := i.len, move := m, datum := some v }

/-- The PRIVILEGE detail of a trigger with datum v; 0 for none. -/
def Engine.privDetail (x : Engine) (v : Word) : Trig → Nat
  | .sys op => x.sysDetail (decide (op = .wr)) (x.opndVal .sysSel)
  | .cu op => x.cuDetail op (some v)
  | _ => 0

/-- Engine x at its issue of step s in pace period p, with lines ls. -/
def Engine.issuing (x : Engine) (s p : Nat) (ls : List CodeLine) : Engine := { x with step := s, period := p, lines := ls }

/-- Engine x behind the issue of step s: its issue point is at next. -/
def Engine.issued (x : Engine) (s : Nat) (next : Word) : Engine := { x with resumeRep := 0, readyAt := s + 1, pc := next, rep := none }

/-- What an issue begins with. -/
@[simp] theorem Engine.issuing_fields (x : Engine) (s p : Nat) (ls : List CodeLine) :
    (x.issuing s p ls).d = x.d ∧ (x.issuing s p ls).g = x.g ∧ (x.issuing s p ls).bnk = x.bnk ∧ (x.issuing s p ls).rc = x.rc ∧
    (x.issuing s p ls).opnd = x.opnd ∧ (x.issuing s p ls).acc = x.acc ∧ (x.issuing s p ls).res = x.res ∧
    (x.issuing s p ls).short = x.short ∧ (x.issuing s p ls).st = x.st ∧ (x.issuing s p ls).acst = x.acst ∧ (x.issuing s p ls).lsu = x.lsu ∧
    (x.issuing s p ls).sep = x.sep ∧ (x.issuing s p ls).srp = x.srp ∧ (x.issuing s p ls).srs = x.srs ∧ (x.issuing s p ls).gsp = x.gsp ∧
    (x.issuing s p ls).save = x.save ∧ (x.issuing s p ls).wait = x.wait ∧ (x.issuing s p ls).gtb = x.gtb ∧ (x.issuing s p ls).htb = x.htb ∧
    (x.issuing s p ls).run = x.run ∧ (x.issuing s p ls).ch = x.ch ∧ (x.issuing s p ls).tokens = x.tokens ∧ (x.issuing s p ls).pwa = x.pwa ∧
    (x.issuing s p ls).pwc = x.pwc ∧ (x.issuing s p ls).actl = x.actl ∧ (x.issuing s p ls).flagsAt = x.flagsAt ∧
    (x.issuing s p ls).ctx = x.ctx ∧ (x.issuing s p ls).nextCtx = x.nextCtx ∧ (x.issuing s p ls).pendingFaults = x.pendingFaults ∧
    (x.issuing s p ls).step = s ∧ (x.issuing s p ls).pc = x.pc ∧ (x.issuing s p ls).readyAt = x.readyAt ∧
    (x.issuing s p ls).resumeRep = x.resumeRep ∧ (x.issuing s p ls).bar = x.bar ∧ (x.issuing s p ls).ring = x.ring ∧
    (∀ q, (x.issuing s p ls).saveSet q = x.saveSet q) ∧ (∀ q, (x.issuing s p ls).gspOff q = x.gspOff q) ∧
    (∀ q, (x.issuing s p ls).result q = x.result q) ∧ (∀ q, (x.issuing s p ls).guard q = x.guard q) ∧
    (∀ q, (x.issuing s p ls).opndVal q = x.opndVal q) :=
  ⟨rfl, rfl, rfl, rfl, rfl, rfl, rfl, rfl, rfl, rfl, rfl, rfl, rfl, rfl, rfl, rfl, rfl, rfl, rfl, rfl, rfl, rfl, rfl, rfl, rfl, rfl, rfl,
  rfl, rfl, rfl, rfl, rfl, rfl, rfl, rfl, fun _ => rfl, fun _ => rfl, fun _ => rfl, fun _ => rfl, fun _ => rfl⟩
/-- What an issue leaves of its engine. -/
@[simp] theorem Engine.issued_fields (x : Engine) (s : Nat) (next : Word) :
    (x.issued s next).d = x.d ∧ (x.issued s next).g = x.g ∧ (x.issued s next).bnk = x.bnk ∧ (x.issued s next).rc = x.rc ∧
    (x.issued s next).opnd = x.opnd ∧ (x.issued s next).acc = x.acc ∧ (x.issued s next).res = x.res ∧ (x.issued s next).short = x.short ∧
    (x.issued s next).st = x.st ∧ (x.issued s next).acst = x.acst ∧ (x.issued s next).lsu = x.lsu ∧ (x.issued s next).sep = x.sep ∧
    (x.issued s next).srp = x.srp ∧ (x.issued s next).srs = x.srs ∧ (x.issued s next).gsp = x.gsp ∧ (x.issued s next).save = x.save ∧
    (x.issued s next).wait = x.wait ∧ (x.issued s next).gtb = x.gtb ∧ (x.issued s next).htb = x.htb ∧ (x.issued s next).run = x.run ∧
    (x.issued s next).ch = x.ch ∧ (x.issued s next).tokens = x.tokens ∧ (x.issued s next).pwa = x.pwa ∧ (x.issued s next).pwc = x.pwc ∧
    (x.issued s next).actl = x.actl ∧ (x.issued s next).flagsAt = x.flagsAt ∧ (x.issued s next).ctx = x.ctx ∧
    (x.issued s next).nextCtx = x.nextCtx ∧ (x.issued s next).pendingFaults = x.pendingFaults ∧ (x.issued s next).step = x.step ∧
    (x.issued s next).pc = next ∧ (x.issued s next).readyAt = s + 1 ∧ (x.issued s next).resumeRep = 0 ∧ (x.issued s next).bar = x.bar ∧
    (x.issued s next).ring = x.ring ∧ (∀ q, (x.issued s next).saveSet q = x.saveSet q) ∧ (∀ q, (x.issued s next).gspOff q = x.gspOff q) ∧
    (∀ q, (x.issued s next).result q = x.result q) ∧ (∀ q, (x.issued s next).guard q = x.guard q) ∧
    (∀ q, (x.issued s next).opndVal q = x.opndVal q) :=
  ⟨rfl, rfl, rfl, rfl, rfl, rfl, rfl, rfl, rfl, rfl, rfl, rfl, rfl, rfl, rfl, rfl, rfl, rfl, rfl, rfl, rfl, rfl, rfl, rfl, rfl, rfl, rfl,
  rfl, rfl, rfl, rfl, rfl, rfl, rfl, rfl, fun _ => rfl, fun _ => rfl, fun _ => rfl, fun _ => rfl, fun _ => rfl⟩

section
variable {d : Device} {e : Nat} {i : Slot} {m : Move} (h : d.issuesAlone e i m)
include h

theorem Device.issuesAlone.mayIssue : d.MayIssue e := by
  obtain ⟨h1, h2, h3, h4, h5, h6, h7, h8, h9, h10, h11, h12, -⟩ := h
  exact ⟨h1, h2, h3, h4, h5, h6, h7, h8, h9, h10, h11, h12⟩

theorem Device.issuesAlone.holds : i.Holds m := by
  obtain ⟨-, -, -, -, -, -, -, -, -, -, -, -, -, hgot, hbad, -⟩ := h
  exact ⟨hgot, hbad⟩

theorem Device.issuesAlone.unwaiting : m.waits = none := by
  obtain ⟨-, -, -, -, -, -, -, -, -, -, -, -, -, -, -, -, hwaits, -⟩ := h
  exact hwaits

/-- What such an instruction names is there. -/
theorem Device.issuesAlone.reads (v : Word) {d' : Device} (hg : d'.grade = d.grade) : (i.alone m v).Reads d'.grade v := by
  obtain ⟨-, -, -, -, -, -, -, -, -, -, -, -, -, -, -, -, hwaits, hdst, hsrc⟩ := h
  exact ⟨hwaits, rfl, by rwa [hg], by rwa [hg]⟩

/-- Its issue is the issue formed of its slot. -/
theorem Device.issuesAlone.issuePair : d.issuePair e = (d.stepped e).issueFormed e (d.nowStep e) i none false 0 0 true := by
  obtain ⟨-, -, -, -, -, -, -, -, -, -, -, -, hform, hgot, -, hrep, -⟩ := id h
  exact h.mayIssue.issuePair hform hgot hrep

omit h in
/-- Fetching leaves the engine but for its lines. -/
theorem Device.eng_issuing {d : Device} {e : Nat} {D : Device} (hD : (d.stepped e).Fetches D e) :
    ∃ ls, d.Reaches D e ((d.eng e).issuing (d.nowStep e) d.now ls) := by
  obtain ⟨ls, hls⟩ := ((Device.Reaches.refl d e).setEng _).fetches hD
  exact ⟨ls, hls⟩

/-- Its live slot, where its guard holds. -/
theorem Device.issuesAlone.live (hguard : (d.eng e).guardHolds m = true) {v : Word} (hv : (d.eng e).operand m = some v) :
    liveSlots ((d.stepped e).eng e) i none = [i.alone m v] := by
  rw [Device.eng_stepped, liveSlots, Engine.live_of_holds _ h.holds]
  have hguard' : Engine.guardHolds { d.eng e with step := d.nowStep e, period := d.now } m = true := hguard
  have hv' : Engine.operand { d.eng e with step := d.nowStep e, period := d.now } m = some v := hv
  rw [hguard', hv']
  rfl

/-- What its trigger meets. -/
theorem Device.issuesAlone.liveFlaws {v : Word} {t : Trig} (ht : m.body.dst = .trig t) (hsys : (∃ op, t = .sys op) ∨ ∃ op, t = .cu op)
    {d' : Device} (hd' : (d.stepped e).Fetches d' e) : d'.liveFlaws e [i.alone m v] (i.alone m v) =
      if (d.eng e).privDetail v t = 0 then [] else [{ rank := 3, slot := 0, code := 0x06, detail := (d.eng e).privDetail v t, fa := none }] := by
  obtain ⟨ls, hls⟩ := d.eng_issuing hd'
  have hopnd (p : Opnd) : operandsAfter ((d.eng e).issuing (d.nowStep e) d.now ls) [i.alone m v] p = some ((d.eng e).opndVal p) := by
    simp [operandsAfter, Slot.alone, ht]
  rw [(h.reads v hd'.keeps.1).liveFlaws_of_trig ht]
  obtain ⟨op, rfl⟩ | ⟨op, rfl⟩ := hsys
  · have hdetail (sel : Word) : Engine.sysDetail ((d.eng e).issuing (d.nowStep e) d.now ls) (decide (op = .wr)) sel =
        (d.eng e).sysDetail (decide (op = .wr)) sel := rfl
    simp only [Device.triggerFlaws, hopnd, hls.eng, hdetail, Device.retrigger, Engine.privDetail, if_true, List.append_nil]
    rfl
  · have hdetail : Engine.cuDetail ((d.eng e).issuing (d.nowStep e) d.now ls) op (some v) = (d.eng e).cuDetail op (some v) := rfl
    simp only [Device.triggerFlaws, hls.eng, hdetail, Device.retrigger, Engine.privDetail, if_true, List.append_nil]
    rfl

/-- With a guard that holds an instruction that starts nothing before the end of its step executes. -/
theorem Device.issuesAlone.executes (hguard : (d.eng e).guardHolds m = true) {v : Word} (hv : (d.eng e).operand m = some v)
    (hplain : m.body.dst.plain) (hpriv : ∀ t, m.body.dst = .trig t → (d.eng e).privDetail v t = 0) :
    ∃ B ls, d.Reaches B e ((applyMoves ((d.eng e).issuing (d.nowStep e) d.now ls) [i.alone m v]).issued (d.nowStep e) (word (i.addr + i.len))) ∧
      d.issuePair e = B.endPair e (d.nowStep e) (d.eng e).ring ((d.eng e).opndVal .sysSel) i [i.alone m v] := by
  have hlive := h.live hguard hv
  have hissue := h.mayIssue.plainIssue h.holds (m1 := none) (by simp) (by simp [hlive, Slot.alone, h.unwaiting])
    (mustWait_of_plain (by simp [hlive, Slot.alone, hplain]) _ e)
  obtain ⟨D, hD, heq⟩ := hissue.executes (s := d.nowStep e) (by simp [hlive, Slot.alone, hplain]) (fun d' hd' l hl => by
    rw [hlive, List.mem_singleton] at hl
    rw [hlive, hl]
    by_cases ht : ∃ t, m.body.dst = .trig t
    · obtain ⟨t, ht⟩ := ht
      have hsys : (∃ op, t = .sys op) ∨ ∃ op, t = .cu op := by
        rw [ht] at hplain
        cases t <;> simp_all [Dst.plain, Trig.acts]
      rw [h.liveFlaws ht hsys hd', if_pos (hpriv t ht)]
    · exact (h.reads v hd'.keeps.1).liveFlaws_of_register (fun t hd => ht ⟨t, hd⟩))
  obtain ⟨ls, hls⟩ := d.eng_issuing hD
  refine ⟨_, ls, hls.setEng _, ?_⟩
  rw [h.issuePair, heq, hlive, hls.eng]
  rfl

/-- A trigger that its ring may not issue is a precise fault. -/
theorem Device.issuesAlone.faults (hguard : (d.eng e).guardHolds m = true) {v : Word} (hv : (d.eng e).operand m = some v) {t : Trig}
    (ht : m.body.dst = .trig t) (hsys : (∃ op, t = .sys op) ∨ ∃ op, t = .cu op) (hpriv : (d.eng e).privDetail v t ≠ 0) :
    ∃ B ls, d.Reaches B e ((d.eng e).issuing (d.nowStep e) d.now ls) ∧
      d.issuePair e = B.takeCause e (faultCause 6 ((d.eng e).privDetail v t) i.addr false) { pc := word i.addr, slot1 := false, m0len := 0, rep := 0 }
        (d.nowStep e) := by
  have hlive := h.live hguard hv
  have hroom : (d.stepped e).mustWait e t = false := by
    obtain ⟨op, rfl⟩ | ⟨op, rfl⟩ := hsys <;> rfl
  have hissue := h.mayIssue.plainIssue h.holds (m1 := none) (by simp) (by simp [hlive, Slot.alone, h.unwaiting])
    (by simp [hlive, Slot.alone, ht, hroom])
  obtain ⟨d', hd', -, hfault⟩ := hissue.issueFormed (s := d.nowStep e)
  obtain ⟨ls, hls⟩ := d.eng_issuing hd'
  have hrep : ({ (d.eng e).issuing (d.nowStep e) d.now ls with rep := none } : Engine) = (d.eng e).issuing (d.nowStep e) d.now ls := by
    rw [← h.mayIssue.unrepeated]
    rfl
  refine ⟨_, ls, hrep ▸ hls.onEng (fun x => { x with rep := none }), ?_⟩
  have hflaw : firstFlaw ((liveSlots ((d.stepped e).eng e) i none).map
      (fun l => d'.liveFlaws e (liveSlots ((d.stepped e).eng e) i none) l)).flatten =
      some { rank := 3, slot := 0, code := 0x06, detail := (d.eng e).privDetail v t, fa := none } := by
    rw [hlive, List.map_singleton, h.liveFlaws ht hsys hd', if_neg hpriv]
    rfl
  rw [h.issuePair, hfault _ hflaw rfl (show 0x06 ≠ 0x0A by decide) (show 0x06 ≠ 0x0D by decide)]
  rfl

end

end Sys2Proof.Machine
end

section
/-! SUPPORT. What handler entries leave of a block (R54, R209). -/

namespace Sys2Proof.Machine

/-! ### The cluster's block mover at an entry -/

/-- A change of a cluster beside an engine. -/
theorem Device.Reaches.clusters {d d' : Device} {e : Nat} {y : Engine} (h : d.Reaches d' e y) (cs : Assoc Nat Cluster) :
    ({ d with clusters := cs } : Device).Reaches { d' with clusters := cs } e y := by
  obtain ⟨⟨x, rfl⟩, heng, hothers, hregs, hstruck, hsound⟩ := h
  exact ⟨⟨x, rfl⟩, heng, hothers, hregs, hstruck, hsound⟩

section
variable {d d' : Device} {e : Nat} {y : Engine} (h : d.Reaches d' e y)
include h

/-- The suspension of a transfer changes the cluster. -/
theorem Device.Reaches.suspendBmv (level : BitVec 2) :
    ∃ cs ls, ({ d with clusters := cs } : Device).Reaches (d'.suspendBmv e level) e { y with lines := ls } := by
  have hsame : ∃ cs ls, ({ d with clusters := cs } : Device).Reaches d' e { y with lines := ls } :=
    ⟨d'.clusters, y.lines, by obtain ⟨⟨x, rfl⟩, heng, hothers, hregs, hstruck, hsound⟩ := h; exact ⟨⟨x, rfl⟩, heng, hothers, hregs, hstruck, hsound⟩⟩
  obtain ⟨cs, ls, hsame⟩ := hsame
  have hchosen : ∃ ls, ({ d with clusters := cs } : Device).Reaches (if d'.paced e then d' else (d'.freeWord).2) e { y with lines := ls } := by
    split
    · exact ⟨ls, hsame⟩
    · exact hsame.fetches (.fresh d' e _)
  obtain ⟨ls', hchosen⟩ := hchosen
  unfold Device.suspendBmv
  split
  · exact ⟨cs, ls, hsame⟩
  · split_ifs
    · exact ⟨cs, ls, hsame⟩
    all_goals
      simp only [*, Bool.false_eq_true, if_true, if_false] at hchosen
      dsimp only
      split
      · exact ⟨cs, ls', hchosen⟩
      · exact ⟨_, ls', hchosen.clusters _⟩

/-- The cost of a table is chosen or fixed. -/
theorem Device.Reaches.tableCost (a : Nat) : ∃ ls, d.Reaches (d'.tableCost e a).2 e { y with lines := ls } := by
  unfold Device.tableCost
  dsimp only
  split
  · exact ⟨y.lines, h⟩
  split
  · exact ⟨y.lines, h⟩
  · exact h.fetches (.fresh d' e _)

end

/-- The save set of an entry from engine x (R209, R230). -/
def Engine.saved (x : Engine) (c : Cause) (r : Resume) : SaveSet :=
  { spc := (r.pc &&& 0xFFFFFF) ||| (if r.slot1 then 0x1000000 else 0)
    sst := x.sstWord r.m0len
    src := word r.rep
    sbk := x.bnk.setWidth 32
    sfa := word c.fa
    sfc := word (c.code + 256 * c.detail + 65536 * (if c.pa then (c.fa / 2 ^ 32) % 256 else 0) + (if c.pa then 2 ^ 24 else 0))
    shadow := x.res, acc := x.acc, ctx := some x.ctx, bar := x.bar }

/-- Engine x, its short operations drained, at its entry of a level through a handler of a ring (R209). -/
def Engine.entered (x : Engine) (level : BitVec 2) (c : Cause) (r : Resume) (ring : Nat) : Engine :=
  { x with
    save := Assoc.put x.save level (x.saved c r), res := [], ctx := x.nextCtx, nextCtx := x.nextCtx + 1
    st := { x.st with ring := BitVec.ofNat 2 (min ring x.st.ring.toNat), lvl := level, gie := false
                      mlv := if x.st.grd then level else x.st.mlv }
    wait := none, bar := false, rep := none, resumeRep := 0 }

/-- What an entry leaves of its engine. -/
@[simp] theorem Engine.entered_fields (x : Engine) (level : BitVec 2) (c : Cause) (r : Resume) (ring : Nat) :
    (x.entered level c r ring).d = x.d ∧ (x.entered level c r ring).g = x.g ∧ (x.entered level c r ring).bnk = x.bnk ∧
    (x.entered level c r ring).rc = x.rc ∧ (x.entered level c r ring).opnd = x.opnd ∧ (x.entered level c r ring).acc = x.acc ∧
    (x.entered level c r ring).res = [] ∧ (x.entered level c r ring).short = x.short ∧ (x.entered level c r ring).acst = x.acst ∧
    (x.entered level c r ring).lsu = x.lsu ∧ (x.entered level c r ring).sep = x.sep ∧ (x.entered level c r ring).srp = x.srp ∧
    (x.entered level c r ring).srs = x.srs ∧ (x.entered level c r ring).gsp = x.gsp ∧ (x.entered level c r ring).wait = none ∧
    (x.entered level c r ring).gtb = x.gtb ∧ (x.entered level c r ring).htb = x.htb ∧ (x.entered level c r ring).run = x.run ∧
    (x.entered level c r ring).ch = x.ch ∧ (x.entered level c r ring).tokens = x.tokens ∧ (x.entered level c r ring).pwa = x.pwa ∧
    (x.entered level c r ring).pwc = x.pwc ∧ (x.entered level c r ring).actl = x.actl ∧ (x.entered level c r ring).flagsAt = x.flagsAt ∧
    (x.entered level c r ring).ctx = x.nextCtx ∧ (x.entered level c r ring).nextCtx = x.nextCtx + 1 ∧
    (x.entered level c r ring).pendingFaults = x.pendingFaults ∧ (x.entered level c r ring).step = x.step ∧
    (x.entered level c r ring).pc = x.pc ∧ (x.entered level c r ring).readyAt = x.readyAt ∧ (x.entered level c r ring).resumeRep = 0 ∧
    (x.entered level c r ring).bar = false ∧ (∀ q, (x.entered level c r ring).gspOff q = x.gspOff q) ∧
    (∀ q, (x.entered level c r ring).guard q = x.guard q) ∧ (∀ q, (x.entered level c r ring).opndVal q = x.opndVal q) :=
  ⟨rfl, rfl, rfl, rfl, rfl, rfl, rfl, rfl, rfl, rfl, rfl, rfl, rfl, rfl, rfl, rfl, rfl, rfl, rfl, rfl, rfl, rfl, rfl, rfl, rfl, rfl, rfl,
  rfl, rfl, rfl, rfl, rfl, fun _ => rfl, fun _ => rfl, fun _ => rfl⟩

/-- Engine x with what drains of its short operations done (R209). -/
def Engine.drained (x : Engine) : Engine := { (x.finishShort (x.short.filter (·.drains))) with short := x.short.filter (fun o => !o.drains) }

section
variable {d d' : Device} {e : Nat} {y : Engine} (h : d.Reaches d' e y)
include h

/-- A level whose handler entry is valid is entered. -/
theorem Device.Reaches.enterLevel {c : Cause} {target : Word} {ring : Nat} (hhtb : y.htb = (d.eng e).htb)
    (hready : d.handlerReady e c.index target ring) (level : BitVec 2) (r : Resume) (s : Nat) :
    ∃ cs D ls bt ra rd, ({ d with clusters := cs } : Device).Reaches D e ((y.drained.entered level c r ring).turned ls bt target ra rd) ∧
      d'.enterLevel e level c r s = some D := by
  obtain ⟨bs, hread, rfl, hvalid, hspare, hring, rfl⟩ := hready
  have hplace : d'.place e (y.htb.toNat * 2048 + 8 * c.index) = d.handlerAt e c.index := by
    rw [h.place, hhtb]
    rfl
  unfold Device.enterLevel
  obtain ⟨ls, hread'⟩ := (h.fetches (.readOver d' e (d.handlerAt e c.index) 8))
  obtain ⟨cs, ls, hsuspended⟩ := (hread'.setEng (y.drained.entered level c r (fld (word (fromBytes (bs.drop 4))) 0 2))).suspendBmv level
  obtain ⟨ls, hcosted⟩ := hsuspended.tableCost (d.handlerAt e c.index)
  simp only [h.eng, hplace, h.tableRead, hread, hvalid, hspare, hring, Bool.not_true, ne_eq, not_true, decide_false, Bool.false_or, Bool.false_eq_true,
    if_false]
  cases c.site with
  | none =>
    obtain ⟨ra, rd, hturn, -⟩ := hcosted.transfer s _ (word (fromBytes (bs.take 4)))
    exact ⟨cs, _, _, _, ra, rd, hturn, rfl⟩
  | some site =>
    obtain ⟨ls, bt, ra, rd, hturn, -⟩ := hcosted.taken s _ site (word (fromBytes (bs.take 4)))
    exact ⟨cs, _, ls, bt, ra, rd, hturn, rfl⟩

/-- A cause whose handler entry is valid is taken at L2 where that is available. -/
theorem Device.Reaches.takeCause {c : Cause} {target : Word} {ring : Nat} (hhtb : y.htb = (d.eng e).htb)
    (hready : d.handlerReady e c.index target ring) (hl2 : y.st.l2 = true) (r : Resume) (s : Nat) :
    ∃ cs ls bt ra rd, ({ d with clusters := cs } : Device).Reaches (d'.takeCause e c r s) e ((y.drained.entered 2 c r ring).turned ls bt target ra rd) := by
  obtain ⟨cs, D, ls, bt, ra, rd, hD, heq⟩ := h.enterLevel hhtb hready 2 r s
  unfold Device.takeCause
  rw [h.eng, if_pos hl2, heq]
  exact ⟨cs, ls, bt, ra, rd, hD⟩

end

end Sys2Proof.Machine
end

section
/-! PROOFS: the refutation of ControlTransfersTakeEffect. A trap that no level can take stops its engine, and the Partition-reach reset that follows
clears the engine's registers (R215 to R217, R483). -/

namespace Sys2Proof.Machine

/-- The trap `#5 -> cu.t.trap`. -/
def trapMove : Move := { pre := {}, body := .longI8 (.trig (.cu .trap)) 5 }

/-- Its slot at the code address 0x8000. -/
def trapSlot : Slot := { addr := 0x8000, len := 3, got := .move trapMove, bad := false }

/-- Engine 0 of a running module, whose partition 0 is in Free mode, is to issue the trap alone at level 3, where neither L2 nor L3 is available;
its register d5 holds 7. -/
def trapping : Device :=
  { phase := .running, pace := { pcnt := 100 }, regs := [(.parOwn 0, 0x80000000), (.parCll 0, 1)], parts := [(0, { mode := .free })]
    engines := [(0, {
      run := .running, st := { lvl := 3 }, d := [(5, 7)], pc := 0x8000
      lines := [{ addr := 0x8000, bytes := (encodeMove trapMove ++ List.replicate 32 0xF7).take 32, bad := [], req := 0, delivered := true }] })] }

theorem trapping_issuesAlone : trapping.issuesAlone 0 trapSlot trapMove := by
  have hready : trapping.mayStep 0 = true ∧ trapping.draining 0 = false ∧ (trapping.eng 0).rep = none ∧ (trapping.eng 0).wait = none ∧
      (trapping.eng 0).redirect = none ∧ (trapping.eng 0).bar = false ∧ (trapping.eng 0).pendingFaults = [] ∧ (trapping.eng 0).waitFault = none ∧
      (trapping.eng 0).resumeRep = 0 ∧ (trapping.eng 0).readyAt ≤ trapping.nowStep 0 ∧ (trapping.paced 0 && inFlash (trapping.eng 0).pc) = false ∧
      trapping.eventLine 0 = none ∧ trapping.form 0 (trapping.eng 0).pc.toNat = .go trapSlot none := by decide +kernel
  obtain ⟨h1, h2, h3, h4, h5, h6, h7, h8, h9, h10, h11, h12, h13⟩ := hready
  exact ⟨h1, h2, h3, h4, h5, h6, h7, h8, h9, h10, h11, h12, h13, rfl, rfl, rfl, rfl, rfl, fun p hp => by cases hp⟩

/-- The issue of the trap stops the engine; the reset of its partition has cleared its data registers. -/
theorem trapping_resets : ((trapping.issuePair 0).eng 0).d = [] := by decide +kernel

/-- What the statement says of the data registers behind a trap, whatever its handler entry and the engine's level. -/
theorem trap_keeps_registers (h : Obligations.ControlTransfersTakeEffect) {d : Device} {e : Nat} {i : Slot} {m : Move} {v : Word}
    (halone : d.issuesAlone e i m) (hguard : (d.eng e).guardHolds m = true) (hv : (d.eng e).operand m = some v)
    (ht : m.body.dst = .trig (.cu .trap)) (hcanon : d.canonical = true) (hm : d.marks = []) (hshort : (d.eng e).short = []) :
    ((d.issuePair e).eng e).d = (d.eng e).d := by
  obtain ⟨t, hexec, -, -, hd, -⟩ := (h { dev := d, pending := [] } e i m halone).2 .trap v hguard hv ht rfl hcanon hm hshort
  rw [exec_of_dev (i := .issuePair e) (s := { dev := d, pending := [] }) (f := fun d => d.issuePair e) rfl rfl] at hexec
  obtain rfl := Host.Outcome.next.inj hexec
  exact hd

/-- Refutes O11: the statement keeps the data registers of every engine that issues a cu trigger, and asks for L2 and for a valid handler entry of a trap
only behind that. A trap at level 3 stops its engine (R216, R217), and the Partition-reach reset that follows clears them. -/
theorem not_controlTransfersTakeEffect : ¬ Obligations.ControlTransfersTakeEffect := fun h => by
  have hkept := trap_keeps_registers h (v := 5) trapping_issuesAlone (by decide +kernel) (by decide +kernel) rfl (by decide +kernel) rfl
    (by decide +kernel)
  rw [trapping_resets] at hkept
  exact absurd hkept (by decide +kernel)

end Sys2Proof.Machine
end

section
/-! SUPPORT and proofs: the system registers (R194, R195, R213, R222 to R230). -/

namespace Sys2Proof.Machine

/-! ### Registers and their numbers (R222) -/

/-- The number of a system register. -/
def SysReg.number : SysReg → Nat
  | .eid => 0 | .st => 1 | .acst => 2 | .actl => 3 | .pgrant => 4 | .gtb => 0x10 | .htb => 0x11 | .gsp k => 0x12 + k | .sep k => 0x17 + k
  | .srp => 0x1B | .srs => 0x1C | .pwa j => 0x20 + j | .pwc j => 0x28 + j | .save n i => 0x100 + 16 * n + i

/-- The registers that are assigned. -/
def SysReg.assigned : SysReg → Bool
  | .gsp k => k < 3 | .sep k => 1 ≤ k && k ≤ 3 | .pwa j => j < 4 | .pwc j => j < 4 | .save n i => 1 ≤ n && n ≤ 3 && i < 6
  | _ => true

/-- Selectors from 0x140 on name nothing. -/
theorem SysReg.ofSel_of_large {w : Word} (h : 0x140 ≤ w.toNat) : SysReg.ofSel w = none := by
  unfold SysReg.ofSel
  dsimp only
  rw [if_neg, if_neg, if_neg, if_neg, if_neg, if_neg, if_neg, if_neg, if_neg, if_neg, if_neg, if_neg, if_neg, if_neg] <;> omega

/-- A selector names the assigned register of its number. -/
theorem SysReg.ofSel_eq_some {w : Word} {r : SysReg} : SysReg.ofSel w = some r ↔ r.assigned = true ∧ w.toNat = r.number := by
  have hsmall : ∀ n < 0x140, (SysReg.ofSel (word n)).all (fun r => r.assigned && decide (n = r.number)) = true := by decide +kernel
  constructor
  · intro h
    have hw : w.toNat < 0x140 := by
      by_contra hlarge
      rw [SysReg.ofSel_of_large (by omega)] at h
      cases h
    have hnumber := hsmall w.toNat hw
    rw [show word w.toNat = w from BitVec.ofNat_toNat 32 w, h] at hnumber
    simpa using hnumber
  · rintro ⟨hr, hw⟩
    rw [show w = word r.number by rw [← hw]; exact (BitVec.ofNat_toNat 32 w).symm]
    cases r <;> simp only [SysReg.assigned, Bool.and_eq_true, decide_eq_true_eq] at hr
    case gsp k => interval_cases k <;> rfl
    case sep k => obtain ⟨h1, h3⟩ := hr; interval_cases k <;> rfl
    case pwa j => interval_cases j <;> rfl
    case pwc j => interval_cases j <;> rfl
    case save n i => obtain ⟨⟨h1, h3⟩, h6⟩ := hr; interval_cases n <;> interval_cases i <;> rfl
    all_goals rfl

/-- The register that a selector of an assigned number names. -/
theorem SysReg.ofSel_word (r : SysReg) (hr : r.assigned = true) {n : Nat} (hn : r.number = n) : SysReg.ofSel (word n) = some r := by
  refine SysReg.ofSel_eq_some.mpr ⟨hr, ?_⟩
  have hsmall : n < 2 ^ 32 := by
    subst hn
    cases r <;> simp only [SysReg.assigned, Bool.and_eq_true, decide_eq_true_eq] at hr <;> simp only [SysReg.number] <;> omega
  rw [hn]
  exact toNat_word hsmall

/-- The number of an assigned register decides whether a selector names it. -/
theorem SysReg.toNat_eq_iff {sel : Word} (r : SysReg) (hr : r.assigned = true) (n : Nat) (hn : r.number = n) :
    sel.toNat = n ↔ SysReg.ofSel sel = some r := by
  rw [SysReg.ofSel_eq_some, hn]
  exact (and_iff_right hr).symm

/-! ### Who may reach a register (R194, R221, R222) -/

theorem Engine.ring_le (x : Engine) : x.ring ≤ 3 := by
  have := x.st.ring.isLt
  simp only [Engine.ring]
  omega

section
variable (x : Engine) {r : SysReg} {sel : Word} (h : SysReg.ofSel sel = some r)
include h

theorem Engine.sysDetail_read : x.sysDetail false sel = 0 ↔ x.ring ≤ r.readRing ∧ x.saveRing r = true := by
  simp [Engine.sysDetail, h]

theorem Engine.sysDetail_write {k : Nat} (hk : r.writeRing = some k) : x.sysDetail true sel = 0 ↔ x.ring ≤ k ∧ x.saveRing r = true := by
  simp [Engine.sysDetail, h, hk]

theorem Engine.sysDetail_readOnly (hk : r.writeRing = none) : x.sysDetail true sel = 0 := by
  simp [Engine.sysDetail, h, hk]

end

/-- The ring limits of the registers (R222 to R230). -/
theorem Engine.sysDetail_limits (x : Engine) (sel : Word) (k : Nat) :
    (sel = 0 ∨ sel = 4 → x.sysDetail true sel = 0 ∧ x.sysDetail false sel = 0) ∧
    (sel = 1 → (x.sysDetail true sel = 0 ↔ x.ring ≤ 2) ∧ x.sysDetail false sel = 0) ∧
    (sel = 0x10 ∨ sel = 0x11 → (x.sysDetail true sel = 0 ↔ x.ring = 0) ∧ (x.sysDetail false sel = 0 ↔ x.ring ≤ 1)) ∧
    (k < 3 → sel = word (0x12 + k) → ∀ w, x.sysDetail w sel = 0 ↔ x.ring ≤ k) ∧
    (k < 3 → sel = word (0x18 + k) → ∀ w, x.sysDetail w sel = 0 ↔ x.ring ≤ k) ∧
    (sel = 0x1B ∨ sel = 0x1C → ∀ w, x.sysDetail w sel = 0 ↔ x.ring ≤ 2) ∧
    (k < 4 → sel = word (0x20 + k) ∨ sel = word (0x28 + k) →
      (x.sysDetail true sel = 0 ↔ x.ring ≤ if k < 2 then 0 else 1) ∧ (x.sysDetail false sel = 0 ↔ x.ring ≤ 1)) ∧
    (∀ n, 1 ≤ n → n ≤ 3 → k < 6 → sel = word (0x100 + 16 * n + k) →
      ∀ w, x.sysDetail w sel = 0 ↔ x.ring ≤ 2 ∧ x.ring ≤ fld (x.saveSet n).sst 0 2) := by
  have hring := x.ring_le
  refine ⟨?_, ?_, ?_, ?_, ?_, ?_, ?_, ?_⟩
  · rintro (rfl | rfl)
    · exact ⟨x.sysDetail_readOnly (r := .eid) rfl rfl, (x.sysDetail_read (r := .eid) rfl).mpr ⟨hring, rfl⟩⟩
    · exact ⟨x.sysDetail_readOnly (r := .pgrant) rfl rfl, (x.sysDetail_read (r := .pgrant) rfl).mpr ⟨hring, rfl⟩⟩
  · rintro rfl
    have hsel : SysReg.ofSel 1 = some .st := rfl
    exact ⟨(x.sysDetail_write hsel rfl).trans (and_iff_left rfl), (x.sysDetail_read hsel).mpr ⟨hring, rfl⟩⟩
  · rintro (rfl | rfl)
    · have hsel : SysReg.ofSel 0x10 = some .gtb := rfl
      exact ⟨(x.sysDetail_write hsel rfl).trans ((and_iff_left rfl).trans Nat.le_zero), (x.sysDetail_read hsel).trans (and_iff_left rfl)⟩
    · have hsel : SysReg.ofSel 0x11 = some .htb := rfl
      exact ⟨(x.sysDetail_write hsel rfl).trans ((and_iff_left rfl).trans Nat.le_zero), (x.sysDetail_read hsel).trans (and_iff_left rfl)⟩
  · rintro hk rfl w
    have hsel : SysReg.ofSel (word (0x12 + k)) = some (.gsp k) := SysReg.ofSel_word (.gsp k) (by simpa [SysReg.assigned] using hk) rfl
    cases w
    · exact (x.sysDetail_read hsel).trans (and_iff_left rfl)
    · exact (x.sysDetail_write hsel rfl).trans (and_iff_left rfl)
  · rintro hk rfl w
    have hsel : SysReg.ofSel (word (0x18 + k)) = some (.sep (k + 1)) :=
      SysReg.ofSel_word (.sep (k + 1)) (by simp [SysReg.assigned]; omega) (by simp only [SysReg.number]; omega)
    cases w
    · exact (x.sysDetail_read hsel).trans (and_iff_left rfl)
    · exact (x.sysDetail_write hsel rfl).trans (and_iff_left rfl)
  · rintro (rfl | rfl) w
    · have hsel : SysReg.ofSel 0x1B = some .srp := rfl
      cases w
      · exact (x.sysDetail_read hsel).trans (and_iff_left rfl)
      · exact (x.sysDetail_write hsel rfl).trans (and_iff_left rfl)
    · have hsel : SysReg.ofSel 0x1C = some .srs := rfl
      cases w
      · exact (x.sysDetail_read hsel).trans (and_iff_left rfl)
      · exact (x.sysDetail_write hsel rfl).trans (and_iff_left rfl)
  · rintro hk (rfl | rfl)
    · have hsel : SysReg.ofSel (word (0x20 + k)) = some (.pwa k) := SysReg.ofSel_word (.pwa k) (by simpa [SysReg.assigned] using hk) rfl
      exact ⟨(x.sysDetail_write hsel rfl).trans (and_iff_left rfl), (x.sysDetail_read hsel).trans (and_iff_left rfl)⟩
    · have hsel : SysReg.ofSel (word (0x28 + k)) = some (.pwc k) := SysReg.ofSel_word (.pwc k) (by simpa [SysReg.assigned] using hk) rfl
      exact ⟨(x.sysDetail_write hsel rfl).trans (and_iff_left rfl), (x.sysDetail_read hsel).trans (and_iff_left rfl)⟩
  · rintro n h1 h3 hk rfl w
    have hsel : SysReg.ofSel (word (0x100 + 16 * n + k)) = some (.save n k) :=
      SysReg.ofSel_word (.save n k) (by simp [SysReg.assigned]; omega) rfl
    cases w
    · exact (x.sysDetail_read hsel).trans (and_congr_right' decide_eq_true_iff)
    · exact (x.sysDetail_write hsel rfl).trans (and_congr_right' decide_eq_true_iff)

/-! ### Writes (R195, R222 to R230) -/

/-- Engine x behind a write of the register that sel names, at a ring; normal: in Free, Paced or Decant. -/
def Engine.sysWritten (x : Engine) (ring : Nat) (normal : Bool) (sel v : Word) : Engine :=
  match SysReg.ofSel sel with
  | some .st => x.writeSt ring normal v
  | some .acst => { x with acst := x.acst &&& ~~~ (v.setWidth 9 &&& ~~~ (if x.flagsAt = x.step then x.flagsNew else 0)) }
  | some .actl => { x with actl := v.setWidth 3 }
  | some .gtb => { x with gtb := v.setWidth 26 }
  | some .htb => { x with htb := v.setWidth 29 }
  | some (.gsp k) => { x with gsp := Assoc.put x.gsp (BitVec.ofNat 2 k) (BitVec.ofNat 14 (fld v 3 14)) }
  | some (.sep k) => { x with sep := Assoc.put x.sep (BitVec.ofNat 2 k) v }
  | some .srp => { x with srp := v }
  | some .srs => { x with srs := (v &&& 0xFF07).setWidth 16 }
  | some (.pwa j) => { x with pwa := Assoc.put x.pwa (BitVec.ofNat 2 j) (v.setWidth 28) }
  | some (.pwc j) => { x with pwc := Assoc.put x.pwc (BitVec.ofNat 2 j) ((v &&& 0x1F1F).setWidth 13) }
  | some (.save n i) => x.setSave n ((x.saveSet n).write i v)
  | _ => x

/-- In Free, Paced and Decant SYS.ST.GRD clears and does not set (R213). -/
def Device.normalMode (d : Device) (e : Nat) : Bool :=
  match d.engPart e with
  | some p => (match (d.part p).mode with | .free | .paced | .decant => true | _ => false)
  | none => false

theorem Device.normalMode_of_part {d : Device} {e p : Nat} (h : d.engPart e = some p) :
    d.normalMode e = decide ((d.part p).mode ∈ [Mode.free, .paced, .decant]) := by
  rw [Device.normalMode, h]
  cases hm : (d.part p).mode <;> simp [hm]

theorem Device.sysWrite_eq (d : Device) (e ring : Nat) (sel v : Word) :
    d.sysWrite e ring sel v = d.onEng e (fun x => x.sysWritten ring (d.normalMode e) sel v) := rfl

section
variable (x : Engine) (ring : Nat) (normal : Bool) {sel : Word} (v : Word)

/-- A write of SYS.ST changes the status alone (R213, R224). -/
theorem Engine.writeSt_eq : x.writeSt ring normal v = { x with st :=
    if ring = 2 then { x.st with gie := bit v 4 }
    else { x.st with gie := bit v 4, mlv := BitVec.ofNat 2 (fld v 5 2), grd := x.st.grd && (bit v 7 || !normal) } } := by
  unfold Engine.writeSt
  split <;> rfl

/-- What a write of a system register leaves of its engine. -/
theorem Engine.sysWritten_fields :
    (x.sysWritten ring normal sel v).d = x.d ∧ (x.sysWritten ring normal sel v).g = x.g ∧ (x.sysWritten ring normal sel v).res = x.res ∧
    (x.sysWritten ring normal sel v).pc = x.pc := by
  unfold Engine.sysWritten
  cases SysReg.ofSel sel with
  | none => exact ⟨rfl, rfl, rfl, rfl⟩
  | some r => cases r <;> simp [Engine.writeSt_eq, Engine.setSave]

/-- The registers that stand alone. -/
theorem Engine.sysWritten_words (hflags : x.flagsAt ≠ x.step) :
    (x.sysWritten ring normal sel v).acst = (if sel.toNat = 2 then x.acst &&& ~~~ v.setWidth 9 else x.acst) ∧
    (x.sysWritten ring normal sel v).actl = (if sel.toNat = 3 then v.setWidth 3 else x.actl) ∧
    (x.sysWritten ring normal sel v).gtb = (if sel.toNat = 0x10 then v.setWidth 26 else x.gtb) ∧
    (x.sysWritten ring normal sel v).htb = (if sel.toNat = 0x11 then v.setWidth 29 else x.htb) ∧
    (x.sysWritten ring normal sel v).srp = (if sel.toNat = 0x1B then v else x.srp) ∧
    (x.sysWritten ring normal sel v).srs = (if sel.toNat = 0x1C then (v &&& 0xFF07).setWidth 16 else x.srs) := by
  have hkept : v.setWidth 9 &&& ~~~ (if x.flagsAt = x.step then x.flagsNew else 0) = v.setWidth 9 := by
    rw [if_neg hflags]
    exact BitVec.and_allOnes
  simp only [SysReg.toNat_eq_iff .acst rfl 2 rfl, SysReg.toNat_eq_iff .actl rfl 3 rfl, SysReg.toNat_eq_iff .gtb rfl 0x10 rfl,
    SysReg.toNat_eq_iff .htb rfl 0x11 rfl, SysReg.toNat_eq_iff .srp rfl 0x1B rfl, SysReg.toNat_eq_iff .srs rfl 0x1C rfl, Engine.sysWritten, hkept]
  cases SysReg.ofSel sel with
  | none => simp
  | some r => cases r <;> simp [Engine.writeSt_eq, Engine.setSave]

omit x ring normal v in
/-- Registers of one kind are told apart by their number. -/
theorem Assoc.get_put_ofNat2 {α : Type} (dflt : α) (t : Assoc (BitVec 2) α) {j k : Nat} (hj : j < 4) (hk : k < 4) (a : α) :
    Assoc.get dflt (Assoc.put t (BitVec.ofNat 2 j) a) (BitVec.ofNat 2 k) = if j = k then a else Assoc.get dflt t (BitVec.ofNat 2 k) := by
  split_ifs with h
  · rw [h, Assoc.get_put_self]
  · refine Assoc.get_put_of_ne _ _ _ _ _ fun hbits => h ?_
    have := congrArg BitVec.toNat hbits
    simp only [BitVec.toNat_ofNat] at this
    omega

/-- The registers of tables. -/
theorem Engine.sysWritten_tables :
    (∀ k < 3, (x.sysWritten ring normal sel v).gspOff k = if sel.toNat = 0x12 + k then fld v 3 14 else x.gspOff k) ∧
    (∀ k, 1 ≤ k → k ≤ 3 → Assoc.get 0 (x.sysWritten ring normal sel v).sep (BitVec.ofNat 2 k) =
      if sel.toNat = 0x17 + k then v else Assoc.get 0 x.sep (BitVec.ofNat 2 k)) ∧
    (∀ j < 4, Assoc.get 0 (x.sysWritten ring normal sel v).pwa (BitVec.ofNat 2 j) =
      if sel.toNat = 0x20 + j then v.setWidth 28 else Assoc.get 0 x.pwa (BitVec.ofNat 2 j)) ∧
    (∀ j < 4, Assoc.get 0 (x.sysWritten ring normal sel v).pwc (BitVec.ofNat 2 j) =
      if sel.toNat = 0x28 + j then (v &&& 0x1F1F).setWidth 13 else Assoc.get 0 x.pwc (BitVec.ofNat 2 j)) := by
  have hassigned (r : SysReg) (ho : SysReg.ofSel sel = some r) : r.assigned = true := (SysReg.ofSel_eq_some.mp ho).1
  refine ⟨fun k hk => ?_, fun k h1 hk => ?_, fun k hk => ?_, fun k hk => ?_⟩
  · have hfits : fld v 3 14 < 2 ^ 14 := Nat.mod_lt _ (by decide)
    simp only [SysReg.toNat_eq_iff (.gsp k) (by simpa [SysReg.assigned] using hk) (0x12 + k) rfl, Engine.sysWritten]
    cases ho : SysReg.ofSel sel with
    | none => simp
    | some r =>
      have hr := hassigned r ho
      cases r
      case gsp j =>
        have hj : j < 3 := by simpa [SysReg.assigned] using hr
        simp only [Engine.gspOff, Assoc.get_put_ofNat2 _ _ (show j < 4 by omega) (show k < 4 by omega), Option.some.injEq, SysReg.gsp.injEq]
        split_ifs
        · rw [BitVec.toNat_ofNat, Nat.mod_eq_of_lt hfits]
        · rfl
      all_goals simp [Engine.writeSt_eq, Engine.setSave, Engine.gspOff]
  · simp only [SysReg.toNat_eq_iff (.sep k) (by simp [SysReg.assigned, h1, hk]) (0x17 + k) rfl, Engine.sysWritten]
    cases ho : SysReg.ofSel sel with
    | none => simp
    | some r =>
      have hr := hassigned r ho
      cases r
      case sep j =>
        have hj : 1 ≤ j ∧ j ≤ 3 := by simpa [SysReg.assigned] using hr
        simp only [Assoc.get_put_ofNat2 _ _ (show j < 4 by omega) (show k < 4 by omega), Option.some.injEq, SysReg.sep.injEq]
      all_goals simp [Engine.writeSt_eq, Engine.setSave]
  · simp only [SysReg.toNat_eq_iff (.pwa k) (by simpa [SysReg.assigned] using hk) (0x20 + k) rfl, Engine.sysWritten]
    cases ho : SysReg.ofSel sel with
    | none => simp
    | some r =>
      have hr := hassigned r ho
      cases r
      case pwa j =>
        have hj : j < 4 := by simpa [SysReg.assigned] using hr
        simp only [Assoc.get_put_ofNat2 _ _ hj hk, Option.some.injEq, SysReg.pwa.injEq]
      all_goals simp [Engine.writeSt_eq, Engine.setSave]
  · simp only [SysReg.toNat_eq_iff (.pwc k) (by simpa [SysReg.assigned] using hk) (0x28 + k) rfl, Engine.sysWritten]
    cases ho : SysReg.ofSel sel with
    | none => simp
    | some r =>
      have hr := hassigned r ho
      cases r
      case pwc j =>
        have hj : j < 4 := by simpa [SysReg.assigned] using hr
        simp only [Assoc.get_put_ofNat2 _ _ hj hk, Option.some.injEq, SysReg.pwc.injEq]
      all_goals simp [Engine.writeSt_eq, Engine.setSave]

/-- The registers of the save sets. -/
theorem Engine.sysWritten_save {k : Nat} (h1 : 1 ≤ k) (h3 : k ≤ 3) :
    let old := x.saveSet k
    let set := (x.sysWritten ring normal sel v).saveSet k
    set.spc = (if sel.toNat = 0x100 + 16 * k then v &&& 0x1FFFFFF else old.spc) ∧ set.sst = (if sel.toNat = 0x101 + 16 * k then v &&& 0x7FF07F else old.sst) ∧
    set.src = (if sel.toNat = 0x102 + 16 * k then v &&& 0x7FFFFFFF else old.src) ∧ set.sbk = (if sel.toNat = 0x103 + 16 * k then v &&& 0xFFFFF else old.sbk) ∧
    set.sfa = (if sel.toNat = 0x104 + 16 * k then v else old.sfa) ∧ set.sfc = (if sel.toNat = 0x105 + 16 * k then v &&& 0x1FFFFFF else old.sfc) ∧
    set.shadow = old.shadow ∧ set.acc = old.acc := by
  have hset (i n : Nat) (hi : i < 6) (hn : n = 0x100 + 16 * k + i) : sel.toNat = n ↔ SysReg.ofSel sel = some (.save k i) :=
    SysReg.toNat_eq_iff (.save k i) (by simp [SysReg.assigned, h1, h3, hi]) n hn.symm
  simp only [hset 0 (0x100 + 16 * k) (by omega) (by omega), hset 1 (0x101 + 16 * k) (by omega) (by omega), hset 2 (0x102 + 16 * k) (by omega) (by omega),
    hset 3 (0x103 + 16 * k) (by omega) (by omega), hset 4 (0x104 + 16 * k) (by omega) (by omega), hset 5 (0x105 + 16 * k) (by omega) (by omega),
    Engine.sysWritten]
  cases ho : SysReg.ofSel sel with
  | none => simp
  | some r =>
    obtain ⟨hr, -⟩ := SysReg.ofSel_eq_some.mp ho
    cases r
    case save n i =>
      have hn : (1 ≤ n ∧ n ≤ 3) ∧ i < 6 := by simpa [SysReg.assigned] using hr
      obtain ⟨⟨hn1, hn3⟩, hi⟩ := hn
      simp only [Engine.setSave, Engine.saveSet, Assoc.get_put_ofNat2 _ _ (show n < 4 by omega) (show k < 4 by omega)]
      by_cases hnk : n = k
      · subst hnk
        interval_cases i <;> simp [SaveSet.write]
      · simp [hnk]
    all_goals simp [Engine.writeSt_eq, Engine.saveSet]

/-- SYS.ST (R213, R224). -/
theorem Engine.sysWritten_st :
    (x.sysWritten ring normal sel v).st.ring = x.st.ring ∧ (x.sysWritten ring normal sel v).st.lvl = x.st.lvl ∧
    (sel.toNat ≠ 1 → (x.sysWritten ring normal sel v).st = x.st) ∧
    (sel.toNat = 1 → (x.sysWritten ring normal sel v).st.gie = bit v 4 ∧
      (ring = 2 → (x.sysWritten ring normal sel v).st.mlv = x.st.mlv ∧ (x.sysWritten ring normal sel v).st.grd = x.st.grd) ∧
      (ring ≤ 1 → (x.sysWritten ring normal sel v).st.mlv.toNat = fld v 5 2 ∧
        (x.sysWritten ring normal sel v).st.grd = (x.st.grd && (bit v 7 || !normal)))) := by
  rw [ne_eq, SysReg.toNat_eq_iff .st rfl 1 rfl, Engine.sysWritten]
  cases SysReg.ofSel sel with
  | none => simp
  | some r =>
    cases r
    case st =>
      have hfld : (BitVec.ofNat 2 (fld v 5 2)).toNat = fld v 5 2 := by simp [fld]
      simp only [Engine.writeSt_eq]
      split_ifs with h2
      · simp [h2]
      · simp [h2, hfld]
    all_goals simp [Engine.setSave]

end

/-! ### Issues that write a register -/

/-- What an issue comes to. -/
theorem Device.Reaches.leads {s : State} {e : Nat} {b D : Device} {y : Engine} (h : b.Reaches D e y) (heq : s.dev.issuePair e = D) :
    ∃ t, exec (.issuePair e) s = .next t ∧ t.pending = s.pending ∧ b.Reaches t.dev e y :=
  ⟨_, exec_of_dev (i := .issuePair e) rfl heq, rfl, h⟩

section
variable {d : Device} {e : Nat} {i : Slot} {m : Move} (h : d.issuesAlone e i m)
include h

/-- An instruction that issues does so in an engine that runs. -/
theorem Device.issuesAlone.running : (d.eng e).run = .running := by
  have hsteps := h.mayIssue.steps
  simp only [Device.mayStep, Bool.and_eq_true] at hsteps
  obtain ⟨⟨⟨hrun, -⟩, -⟩, -⟩ := hsteps
  split at hrun
  · assumption
  · cases hrun

variable (hguard : (d.eng e).guardHolds m = true) {v : Word} (hv : (d.eng e).operand m = some v)
include hguard hv

/-- A move into a register alone writes it. -/
theorem Device.issuesAlone.writes_register (ht : ∀ t, m.body.dst ≠ .trig t) (ho : ∀ p, m.body.dst ≠ .opnd p) :
    ∃ D ls, d.Reaches D e ((((d.eng e).issuing (d.nowStep e) d.now ls).writePort m.body.dst v).issued (d.nowStep e) (word (i.addr + i.len))) ∧
      d.issuePair e = D := by
  have hplain : m.body.dst.plain := by
    cases hd : m.body.dst <;> simp_all [Dst.plain]
  obtain ⟨B, ls, hB, heq⟩ := h.executes hguard hv hplain (fun t hd => absurd hd (ht t))
  have hmoves (y : Engine) : applyMoves y [i.alone m v] = y.writePort m.body.dst v := by
    cases hd : m.body.dst <;> simp_all [applyMoves, Slot.alone]
  rw [hmoves] at hB
  refine ⟨B, ls, hB, ?_⟩
  rw [heq, Device.endPair_of_unwritten _ _ _ _ _ _ (by simp [Slot.alone, ht]), Device.issueCu_of_other _ _ _ h.holds (fun op => ht _)]

/-- A write of a system register alone is in force from the next step on. -/
theorem Device.issuesAlone.writes_system (ht : m.body.dst = .trig (.sys .wr)) (hpriv : (d.eng e).sysDetail true ((d.eng e).opndVal .sysSel) = 0) :
    ∃ D ls, d.Reaches D e ((((d.eng e).issuing (d.nowStep e) d.now ls).issued (d.nowStep e) (word (i.addr + i.len))).sysWritten (d.eng e).ring
      (d.normalMode e) ((d.eng e).opndVal .sysSel) v) ∧ d.issuePair e = D := by
  obtain ⟨B, ls, hB, heq⟩ := h.executes hguard hv (by rw [ht]; rfl) (by rw [ht]; rintro t ⟨⟩; exact hpriv)
  have hmoves (y : Engine) : applyMoves y [i.alone m v] = y := by simp [applyMoves, Slot.alone, ht, Engine.writePort]
  rw [hmoves] at hB
  have hnormal : B.normalMode e = d.normalMode e := by simp only [Device.normalMode, hB.engPart, hB.part]
  have hrun : (B.eng e).run = .running := by rw [hB.eng]; exact h.running
  refine ⟨_, ls, hB.onEng (fun x => x.sysWritten (d.eng e).ring (d.normalMode e) ((d.eng e).opndVal .sysSel) v), ?_⟩
  rw [heq, Device.endPair, Device.issueCu_of_other _ _ _ h.holds (by simp [ht])]
  simp only [hrun, Device.applySys, Slot.alone, ht, Option.getD_some, Device.sysWrite_eq, hnormal]

end

/-- What draining short operations leaves of an engine. -/
theorem Engine.drained_fields (x : Engine) : x.drained.d = x.d ∧ x.drained.srp = x.srp ∧ x.drained.gsp = x.gsp ∧ x.drained.st = x.st := by
  have hfinish (y : Engine) (os : List ShortOp) :
      (y.finishShort os).d = y.d ∧ (y.finishShort os).srp = y.srp ∧ (y.finishShort os).gsp = y.gsp ∧ (y.finishShort os).st = y.st := by
    induction os generalizing y with
    | nil => exact ⟨rfl, rfl, rfl, rfl⟩
    | cons o os ih =>
      obtain ⟨hd, hsrp, hgsp, hst⟩ := ih ((y.commit o.ctx o.writes).setFlags o.due o.flags)
      have hcommit : (y.commit o.ctx o.writes).d = y.d ∧ (y.commit o.ctx o.writes).srp = y.srp ∧ (y.commit o.ctx o.writes).gsp = y.gsp ∧
          (y.commit o.ctx o.writes).st = y.st := by
        unfold Engine.commit
        split_ifs
        · exact ⟨rfl, rfl, rfl, rfl⟩
        · split <;> exact ⟨rfl, rfl, rfl, rfl⟩
      obtain ⟨hd', hsrp', hgsp', hst'⟩ := hcommit
      exact ⟨hd.trans hd', hsrp.trans hsrp', hgsp.trans hgsp', hst.trans hst'⟩
  exact hfinish x _

/-- The cause and the frame of an entry at L2 by a fault without a physical address (R209, R230). -/
theorem Engine.entered_fault (x : Engine) {code detail fa : Nat} (r : Resume) (ring : Nat) (hslot : r.slot1 = false) :
    let y := x.entered 2 (faultCause code detail fa false) r ring
    y.st.lvl = 2 ∧ y.ring = min ring x.ring ∧ (y.saveSet 2).spc = r.pc &&& 0xFFFFFF ∧ (y.saveSet 2).sfc = word (code + 256 * detail) ∧
    (y.saveSet 2).sfa = word fa := by
  have hring := x.ring_le
  refine ⟨rfl, ?_, ?_, ?_, ?_⟩
  · simp only [Engine.entered, Engine.ring, BitVec.toNat_ofNat] at hring ⊢
    omega
  · simp [Engine.entered, Engine.saveSet, Engine.saved, hslot]
  · simp [Engine.entered, Engine.saveSet, Engine.saved, faultCause]
  · simp [Engine.entered, Engine.saveSet, Engine.saved, faultCause]

/-- A move into a guard writes it (R44). -/
theorem Engine.writePort_guard (x : Engine) (v : Word) :
    (∀ k j, (x.writePort (.g k) v).guard j = if j = k ∧ k ≠ 0 then decide (v ≠ 0) else x.guard j) ∧ ∀ k, (x.writePort (.g k) v).d = x.d := by
  refine ⟨fun k j => x.guard_setGuard k j _, fun k => ?_⟩
  simp only [Engine.writePort, Engine.setGuard]
  split <;> rfl

/-- A cu or sys trigger that its ring may not issue enters L2 with PRIVILEGE (R194, R221). -/
theorem Device.issuesAlone.privilege {s : State} {e : Nat} {i : Slot} {m : Move} (h : s.dev.issuesAlone e i m)
    (hguard : (s.dev.eng e).guardHolds m = true) {v : Word} (hv : (s.dev.eng e).operand m = some v) {tr : Trig} (ht : m.body.dst = .trig tr)
    (hsys : (∃ op, tr = .sys op) ∨ ∃ op, tr = .cu op) {k : Nat} (hpriv : (s.dev.eng e).privDetail v tr = k) (hk : k ≠ 0) (hl2 : (s.dev.eng e).st.l2 = true)
    {target : Word} {ring : Nat} (hready : s.dev.handlerReady e 6 target ring) :
    ∃ t, exec (.issuePair e) s = .next t ∧ (t.dev.eng e).pc = target ∧ (t.dev.eng e).st.lvl = 2 ∧
      (t.dev.eng e).ring = min ring (s.dev.eng e).ring ∧ ((t.dev.eng e).saveSet 2).spc = word i.addr &&& 0xFFFFFF ∧
      ((t.dev.eng e).saveSet 2).sfc = word (6 + 256 * k) ∧ ((t.dev.eng e).saveSet 2).sfa = word i.addr ∧
      (t.dev.eng e).srp = (s.dev.eng e).srp ∧ (t.dev.eng e).gsp = (s.dev.eng e).gsp ∧ (t.dev.eng e).d = (s.dev.eng e).d := by
  obtain ⟨B, ls, hB, heq⟩ := h.faults hguard hv ht hsys (hpriv ▸ hk)
  rw [hpriv] at heq
  obtain ⟨cs, ls', bt, ra, rd, hturn⟩ := hB.takeCause (c := faultCause 6 k i.addr false) rfl hready hl2
    { pc := word i.addr, slot1 := false, m0len := 0, rep := 0 } (s.dev.nowStep e)
  obtain ⟨t, hexec, -, hT⟩ := hturn.leads heq
  obtain ⟨hd, hsrp, hgsp, hst⟩ := ((s.dev.eng e).issuing (s.dev.nowStep e) s.dev.now ls).drained_fields
  obtain ⟨hlvl, hring, hspc, hsfc, hsfa⟩ := ((s.dev.eng e).issuing (s.dev.nowStep e) s.dev.now ls).drained.entered_fault (code := 6) (detail := k)
    (fa := i.addr) { pc := word i.addr, slot1 := false, m0len := 0, rep := 0 } ring rfl
  refine ⟨t, hexec, ?_⟩
  have hring' : ((s.dev.eng e).issuing (s.dev.nowStep e) s.dev.now ls).drained.ring = (s.dev.eng e).ring := by
    simp only [Engine.ring, hst, Engine.issuing_fields]
  simp only [hT.eng, Engine.turned_fields, Engine.entered_fields, Engine.issuing_fields, hlvl, hring, hring', hspc, hsfc, hsfa, hd, hsrp, hgsp, and_self]

/-! ### Reads (R194, R222 to R230) -/

/-- SYS.ST as it reads (R224). -/
theorem Engine.stWord_reads (x : Engine) : fld x.stWord 0 2 = x.ring ∧ fld x.stWord 2 2 = x.st.lvl.toNat ∧ bit x.stWord 4 = x.st.gie ∧
    fld x.stWord 5 2 = x.st.mlv.toNat ∧ bit x.stWord 7 = x.st.grd ∧
    (bit x.stWord 8 = true ↔ ∃ f ∈ x.pendingFaults, f.completion = false ∧ f.ctx = x.ctx) ∧ fld x.stWord 9 23 = 0 := by
  have hring := x.st.ring.isLt
  have hlvl := x.st.lvl.isLt
  have hmlv := x.st.mlv.isLt
  have hdfp : x.dfp = true ↔ ∃ f ∈ x.pendingFaults, f.completion = false ∧ f.ctx = x.ctx := by
    simp [Engine.dfp]
  have hword : x.stWord.toNat = x.st.ring.toNat + 4 * x.st.lvl.toNat + (if x.st.gie then 16 else 0) + 32 * x.st.mlv.toNat +
      (if x.st.grd then 128 else 0) + (if x.dfp then 256 else 0) :=
    toNat_word (by split_ifs <;> omega)
  have hbit (i : Nat) : bit x.stWord i = decide (x.stWord.toNat / 2 ^ i % 2 = 1) := by
    rw [bit, BitVec.getLsbD, Nat.testBit_eq_decide_div_mod_eq]
  simp only [← hdfp, fld, Engine.ring, hbit, hword, Nat.shiftRight_eq_div_pow]
  refine ⟨by split_ifs <;> omega, by split_ifs <;> omega, ?_, by split_ifs <;> omega, ?_, ?_, by split_ifs <;> omega⟩
  · cases x.st.gie <;> simp only [if_true, if_false, Bool.false_eq_true, decide_eq_true_eq, decide_eq_false_iff_not] <;> split_ifs <;> omega
  · cases x.st.grd <;> simp only [if_true, if_false, Bool.false_eq_true, decide_eq_true_eq, decide_eq_false_iff_not] <;> split_ifs <;> omega
  · cases x.dfp <;> simp only [if_true, if_false, Bool.false_eq_true, decide_eq_true_eq, iff_true, iff_false] <;> split_ifs <;> omega

/-- The registers as they read (R194, R222 to R230). -/
theorem Device.sysRead_values (d : Device) (e : Nat) :
    let x := d.eng e
    let sel := x.opndVal .sysSel
    let n := sel.toNat
    let r := d.sysRead e sel
    (n = 0 → ∀ p, d.engPart e = some p → d.recorded p = none → e < 1024 → p < 16 → r.toNat = e + 65536 * p) ∧
    (n = 1 → fld r 0 2 = x.ring ∧ fld r 2 2 = x.st.lvl.toNat ∧ bit r 4 = x.st.gie ∧ fld r 5 2 = x.st.mlv.toNat ∧ bit r 7 = x.st.grd ∧
      (bit r 8 = true ↔ ∃ f ∈ x.pendingFaults, f.completion = false ∧ f.ctx = x.ctx) ∧ fld r 9 23 = 0) ∧
    (n = 2 → r = x.acst.setWidth 32) ∧ (n = 3 → r = x.actl.setWidth 32) ∧ (n = 4 → r.toNat = d.grantOf e % 512) ∧
    (n = 0x10 → r = x.gtb.setWidth 32) ∧ (n = 0x11 → r = x.htb.setWidth 32) ∧
    (∀ j < 3, n = 0x12 + j → r.toNat = 8 * x.gspOff j) ∧
    (∀ j, 1 ≤ j → j ≤ 3 → n = 0x17 + j → r = Assoc.get 0 x.sep (BitVec.ofNat 2 j)) ∧
    (n = 0x1B → r = x.srp) ∧ (n = 0x1C → r = x.srs.setWidth 32) ∧
    (∀ j < 4, n = 0x20 + j → r = (Assoc.get 0 x.pwa (BitVec.ofNat 2 j)).setWidth 32) ∧
    (∀ j < 4, n = 0x28 + j → r = (Assoc.get 0 x.pwc (BitVec.ofNat 2 j)).setWidth 32) ∧
    (∀ j, 1 ≤ j → j ≤ 3 → let set := x.saveSet j
      (n = 0x100 + 16 * j → r = set.spc) ∧ (n = 0x101 + 16 * j → r = set.sst) ∧ (n = 0x102 + 16 * j → r = set.src) ∧
      (n = 0x103 + 16 * j → r = set.sbk) ∧ (n = 0x104 + 16 * j → r = set.sfa) ∧ (n = 0x105 + 16 * j → r = set.sfc)) ∧
    (SysReg.ofSel sel = none → r = 0) := by
  intro x sel n r
  have hr (q : SysReg) (hq : q.assigned = true) (hn : n = q.number) : SysReg.ofSel sel = some q := SysReg.ofSel_eq_some.mpr ⟨hq, hn⟩
  have hsave (j i : Nat) (h1 : 1 ≤ j) (h3 : j ≤ 3) (hi : i < 6) (hn : n = 0x100 + 16 * j + i) : SysReg.ofSel sel = some (.save j i) :=
    hr (.save j i) (by simp [SysReg.assigned, h1, h3, hi]) hn
  refine ⟨fun hn p hp hrec he hp16 => ?_, fun hn => ?_, fun hn => ?_, fun hn => ?_, fun hn => ?_, fun hn => ?_, fun hn => ?_, fun j hj hn => ?_,
    fun j h1 h3 hn => ?_, fun hn => ?_, fun hn => ?_, fun j hj hn => ?_, fun j hj hn => ?_, fun j h1 h3 => ⟨fun hn => ?_, fun hn => ?_, fun hn => ?_,
      fun hn => ?_, fun hn => ?_, fun hn => ?_⟩, fun hn => ?_⟩
  · have hread : r = word (e + 65536 * p) := by
      simp only [r, Device.sysRead, hr .eid rfl hn, Device.seenEngine, hp, hrec, Device.seenPart, Option.map_some, Option.getD_some, Option.getD_none]
    rw [hread]
    exact toNat_word (by omega)
  · have hread : r = x.stWord := by simp only [r, Device.sysRead, hr .st rfl hn, x]
    rw [hread]
    exact x.stWord_reads
  · simp only [r, Device.sysRead, hr .acst rfl hn, x]
  · simp only [r, Device.sysRead, hr .actl rfl hn, x]
  · have hread : r = word (d.grantOf e % 512) := by simp only [r, Device.sysRead, hr .pgrant rfl hn]
    rw [hread]
    exact toNat_word (by omega)
  · simp only [r, Device.sysRead, hr .gtb rfl hn, x]
  · simp only [r, Device.sysRead, hr .htb rfl hn, x]
  · have hread : r = word (8 * x.gspOff j) := by
      simp only [r, Device.sysRead, hr (.gsp j) (by simpa [SysReg.assigned] using hj) hn, x, Engine.gspOff]
    have hoff : x.gspOff j < 2 ^ 14 := BitVec.isLt _
    rw [hread]
    exact toNat_word (by omega)
  · simp only [r, Device.sysRead, hr (.sep j) (by simp [SysReg.assigned, h1, h3]) hn, x]
  · simp only [r, Device.sysRead, hr .srp rfl hn, x]
  · simp only [r, Device.sysRead, hr .srs rfl hn, x]
  · simp only [r, Device.sysRead, hr (.pwa j) (by simpa [SysReg.assigned] using hj) hn, x]
  · simp only [r, Device.sysRead, hr (.pwc j) (by simpa [SysReg.assigned] using hj) hn, x]
  · simp only [r, Device.sysRead, hsave j 0 h1 h3 (by omega) hn, x]
  · simp only [r, Device.sysRead, hsave j 1 h1 h3 (by omega) (by omega), x]
  · simp only [r, Device.sysRead, hsave j 2 h1 h3 (by omega) (by omega), x]
  · simp only [r, Device.sysRead, hsave j 3 h1 h3 (by omega) (by omega), x]
  · simp only [r, Device.sysRead, hsave j 4 h1 h3 (by omega) (by omega), x]
  · simp only [r, Device.sysRead, hsave j 5 h1 h3 (by omega) (by omega), x]
  · simp only [r, Device.sysRead, hn]

/-- Settles O12: every clause is what an issue, a fault's entry or a short operation leaves of the engine, by the register that the selector names. -/
theorem systemRegistersWriteAndRead : Obligations.SystemRegistersWriteAndRead := by
  constructor
  · refine ⟨Engine.sysDetail_limits, ?_⟩
    intro s e i m v d x sel h hguard hv
    refine ⟨fun k hk => ?_, fun hk => ?_, fun hk => ?_, fun ht hpriv hflags => ?_, fun tr k target ring hdetail ht hk hl2 hready => ?_⟩
    · obtain ⟨D, ls, hD, heq⟩ := h.writes_register hguard hv (by simp [hk]) (by simp [hk])
      obtain ⟨t, hexec, -, hT⟩ := hD.leads heq
      obtain ⟨hguards, hd⟩ := ((d.eng e).issuing (d.nowStep e) d.now ls).writePort_guard v
      refine ⟨t, hexec, ?_⟩
      simp only [hT.eng, hk, Engine.issued_fields, hguards, hd, Engine.issuing_fields, x, implies_true, and_self]
    · obtain ⟨D, ls, hD, heq⟩ := h.writes_register hguard hv (by simp [hk]) (by simp [hk])
      obtain ⟨t, hexec, -, hT⟩ := hD.leads heq
      refine ⟨t, hexec, ?_⟩
      simp only [hT.eng, hk, Engine.issued_fields, Engine.writePort, Engine.issuing_fields, x, and_self]
    · obtain ⟨D, ls, hD, heq⟩ := h.writes_register hguard hv (by simp [hk]) (by simp [hk])
      obtain ⟨t, hexec, -, hT⟩ := hD.leads heq
      refine ⟨t, hexec, ?_⟩
      simp only [hT.eng, hk, Engine.issued_fields, Engine.writePort, Engine.issuing_fields, x, and_self]
    · obtain ⟨D, ls, hD, heq⟩ := h.writes_system hguard hv ht hpriv
      obtain ⟨t, hexec, hpending, hT⟩ := hD.leads heq
      refine ⟨t, hexec, hpending, hT.others, hT.byte, ?_⟩
      have hwords := (((d.eng e).issuing (d.nowStep e) d.now ls).issued (d.nowStep e) (word (i.addr + i.len))).sysWritten_words
        (d.eng e).ring (d.normalMode e) (sel := sel) v hflags
      have htables := (((d.eng e).issuing (d.nowStep e) d.now ls).issued (d.nowStep e) (word (i.addr + i.len))).sysWritten_tables
        (d.eng e).ring (d.normalMode e) (sel := sel) v
      have hsave (k : Nat) (h1 : 1 ≤ k) (h3 : k ≤ 3) := (((d.eng e).issuing (d.nowStep e) d.now ls).issued (d.nowStep e)
        (word (i.addr + i.len))).sysWritten_save (d.eng e).ring (d.normalMode e) (sel := sel) v h1 h3
      have hst := (((d.eng e).issuing (d.nowStep e) d.now ls).issued (d.nowStep e) (word (i.addr + i.len))).sysWritten_st
        (d.eng e).ring (d.normalMode e) (sel := sel) v
      have hfields := (((d.eng e).issuing (d.nowStep e) d.now ls).issued (d.nowStep e) (word (i.addr + i.len))).sysWritten_fields
        (d.eng e).ring (d.normalMode e) (sel := sel) v
      simp only [Engine.issued_fields, Engine.issuing_fields] at hwords htables hsave hst hfields
      obtain ⟨hd, hg, hres, hpc⟩ := hfields
      obtain ⟨hacst, hactl, hgtb, hhtb, hsrp, hsrs⟩ := hwords
      obtain ⟨hgsp, hsep, hpwa, hpwc⟩ := htables
      obtain ⟨hring, hlvl, hother, hgie⟩ := hst
      simp only [hT.eng]
      refine ⟨hpc, hd, hg, hres, hring, hlvl, hacst, hactl, hgtb, hhtb, hgsp, hsep, hsrp, hsrs, hpwa, hpwc, hsave, hother, fun hn => ?_⟩
      obtain ⟨hgie, hkernel, hsystem⟩ := hgie hn
      refine ⟨hgie, hkernel, fun hr => ?_⟩
      obtain ⟨hmlv, hgrd⟩ := hsystem hr
      refine ⟨hmlv, fun p hp => ?_⟩
      rw [hgrd, d.normalMode_of_part hp]
      by_cases hmode : (d.part p).mode ∈ [Mode.free, .paced, .decant]
      · simp only [hmode, if_true, decide_true, Bool.not_true, Bool.or_false]
        rfl
      · simp only [hmode, if_false, decide_false, Bool.not_false, Bool.or_true, Bool.and_true]
        rfl
    · obtain ⟨op, rfl, hop⟩ | ⟨op, rfl, hop⟩ := hdetail
      · exact h.privilege hguard hv ht (.inl ⟨op, rfl⟩) hop hk hl2 hready
      · exact h.privilege hguard hv ht (.inr ⟨op, rfl⟩) hop hk hl2 hready
  · intro s e k issue m datum d x n hshort hdue
    have hfired : s.onDev (fun d => d.fire e k issue m (.sys .rd) datum) =
        { s with dev := d.setEng e (x.pushShort (k + 2) [(.sysR, d.sysRead e (x.opndVal .sysSel))] 0) } := rfl
    obtain ⟨t, hexec, honly, heng⟩ := exec_shortOpComplete_of_single (s := s) (e := e)
      (y := x.pushShort (k + 2) [(.sysR, d.sysRead e (x.opndVal .sysSel))] 0)
      (o := { due := k + 2, writes := [(.sysR, d.sysRead e (x.opndVal .sysSel))], flags := 0, ctx := x.ctx, drains := true })
      (by simp [Engine.pushShort, hshort]) rfl rfl hdue
    obtain ⟨hself, hothers, hacst, -⟩ := (x.pushShort (k + 2) [(.sysR, d.sysRead e (x.opndVal .sysSel))] 0).afterShort_plain (k + 2) .sysR
      (d.sysRead e (x.opndVal .sysSel))
    refine ⟨t, d.sysRead e (x.opndVal .sysSel), hfired ▸ hexec, honly, ?_, ?_, ?_, ?_⟩
    · rw [heng]
      exact hself
    · rw [heng]
      exact hothers
    · rw [heng]
      exact hacst
    · exact d.sysRead_values e

end Sys2Proof.Machine
end

section
/-! SUPPORT and proofs: what is written reads back (R169), and lsu operations on memory that meet nothing (R56, R169, R178). -/

namespace Sys2Proof.Machine

theorem Device.loadWord_congr {d d' : Device} (h : ∀ k, d'.byte k = d.byte k) (a : Nat) : d'.loadWord a = d.loadWord a := by
  simp only [Device.loadWord, Device.bytes_congr h]


/-! ### Bytes and words read back -/

/-- A number of n bytes reads back from them. -/
theorem fromBytes_toBytes (n v : Nat) : fromBytes (toBytes n v) = v % 256 ^ n := by
  induction n generalizing v with
  | zero => simp [toBytes, fromBytes, Nat.mod_one]
  | succ n ih =>
    have hsplit : v % 256 ^ (n + 1) = v % 256 + 256 * (v / 256 % 256 ^ n) := by rw [pow_succ', Nat.mod_mul]
    rw [toBytes, fromBytes, ih, BitVec.toNat_ofNat, hsplit]

/-- Bytes written are read. -/
theorem Device.bytes_writeBytes {d : Device} (hd : d.canonical = true) (a : Nat) (bs : List Byte) {k n : Nat} (hn : k + n ≤ bs.length) :
    (d.writeBytes a bs).bytes (a + k) n = (bs.drop k).take n := by
  induction n generalizing k with
  | zero => rfl
  | succ n ih =>
    have hk : k < bs.length := by omega
    rw [Device.bytes, Device.byte_writeBytes_self d a k bs bs[k] hd (List.getElem?_eq_getElem hk), Nat.add_assoc, ih (by omega),
      List.drop_eq_getElem_cons hk, List.take_succ_cons]

/-- A word written is read. -/
theorem Device.loadWord_writeBytes {d : Device} (hd : d.canonical = true) (a : Nat) {bs : List Byte} {k : Nat} {w : Word}
    (hw : (bs.drop k).take 4 = toBytes 4 w.toNat) (hn : k + 4 ≤ bs.length) : (d.writeBytes a bs).loadWord (a + k) = w := by
  rw [Device.loadWord, Device.bytes_writeBytes hd a bs hn, hw, fromBytes_toBytes, word]
  apply BitVec.eq_of_toNat_eq
  rw [BitVec.toNat_ofNat]
  have := w.isLt
  omega

/-- What no error has struck is stored (R185). -/
theorem Device.storeBytes_of_sound {d : Device} (hm : d.marks = []) (a : Nat) (bs : List Byte) : d.storeBytes a bs = d.writeBytes a bs := by
  simp [Device.storeBytes, Device.marked, hm]

/-! ### Stores of an engine -/

/-- What the clusters note of a store leaves memory as it is. -/
theorem Device.noteStore_mem (d : Device) (own : Option Nat) (a size : Nat) : (d.noteStore own a size).mem = d.mem := by
  unfold Device.noteStore
  dsimp only
  split <;> split_ifs <;> rfl

/-- A store of an engine beyond the channel headers writes its bytes, besides what the clusters note. -/
theorem Device.engineStore_writes (d : Device) {a : Nat} (hbody : ∀ c, regionOf a = some (.xram c) → 0x1000 ≤ a % 0x10000) (size : Nat) (v : Word) :
    ∃ d' : Device, d'.sansMemory = d.sansMemory ∧ d'.mem = d.mem ∧ d.engineStore a size v = d'.writeBytes a (toBytes size v.toNat) := by
  unfold Device.engineStore
  split
  next c hx =>
    have := hbody c hx
    dsimp only
    rw [if_neg (by omega)]
    exact ⟨d, rfl, rfl, rfl⟩
  · exact ⟨_, d.noteStore_sansMemory none a size, d.noteStore_mem none a size, rfl⟩

/-! ### Operations on memory that meet nothing (R56, R169) -/

/-- Memory whose bytes a store may change without another effect: scratchpad, cluster SRAM, module DRAM and exchange RAM beyond its headers. -/
def PlainMemory (a : Nat) : Prop :=
  ∃ o, regionOf a = some (.scratch o) ∨ regionOf a = some (.csram o) ∨ regionOf a = some (.dram o) ∨
    regionOf a = some (.xram o) ∧ 0x1000 ≤ a % 0x10000

/-- What an operation leaves in lsu.r (R169). -/
def Device.lsuGives (d : Device) (l : LsuRun) (a : Nat) : Word :=
  match l.op.kind with
  | .load => l.op.extend (fromBytes (d.bytes a l.op.size))
  | .store => 0
  | .atomic => d.loadWord a

/-- The bytes that an operation stores (R169). -/
def Device.lsuStores (d : Device) (l : LsuRun) (a : Nat) : List Byte :=
  match l.op.kind with
  | .load => []
  | .store => toBytes l.op.size l.datum.toNat
  | .atomic => toBytes 4 (l.op.combine (d.loadWord a) l.datum).toNat

/-- An operation stores no byte beyond its size. -/
theorem Device.length_lsuStores_le (d : Device) (l : LsuRun) (a : Nat) : (d.lsuStores l a).length ≤ l.op.size := by
  cases hop : l.op <;> simp [Device.lsuStores, LsuOp.kind, LsuOp.size, hop, length_toBytes]

section
variable {a : Nat} (h : PlainMemory a)
include h

theorem PlainMemory.not_mailbox : regionOf a ≠ some .mailbox := by
  obtain ⟨o, h | h | h | ⟨h, -⟩⟩ := h <;> simp [h]

theorem PlainMemory.not_device (b : Nat) : regionOf a ≠ some (.device b) := by
  obtain ⟨o, h | h | h | ⟨h, -⟩⟩ := h <;> simp [h]

theorem PlainMemory.not_points : regionOf a ≠ some .points := by
  obtain ⟨o, h | h | h | ⟨h, -⟩⟩ := h <;> simp [h]

theorem PlainMemory.beyond_headers {c : Nat} (hx : regionOf a = some (.xram c)) : 0x1000 ≤ a % 0x10000 := by
  obtain ⟨o, h | h | h | ⟨-, h⟩⟩ := h
  · simp [h] at hx
  · simp [h] at hx
  · simp [h] at hx
  · exact h

/-- A window on such memory shows its bytes. -/
theorem PlainMemory.windowBytes (d : Device) (n : Nat) : d.windowBytes a n = d.bytes a n := by
  unfold Device.windowBytes
  split
  next hpoints => exact absurd hpoints h.not_points
  · rfl

end

/-- Where an access is alone, none is noted in memory of two ports. -/
theorem Device.unnoted_of_accessAlone {d : Device} {e a n : Nat} (halone : d.accessAlone e a n) :
    (inXram a || inMailbox a) = false ∨ d.accesses = [] := by
  obtain ⟨hx, hmail⟩ | ⟨hacc, -⟩ := halone
  · exact .inl (by simp [hx, hmail])
  · exact .inr hacc

/-- A store that is alone writes its bytes, besides what ports, cache and clusters note. -/
theorem PlainMemory.store_writes {d : Device} {e : Nat} {l : LsuRun} {a : Nat} (h : PlainMemory a) (halone : d.accessAlone e a l.op.size)
    (since : Nat) (portB : Bool) (v : Word) :
    ∃ d₀ : Device, d₀.sansMemory = d.sansMemory ∧ d₀.mem = d.mem ∧
      ((d.throughCache (d.engPart e) a true).portWrite since a l.op.size portB .none (fun d => d.engineStore a l.op.size v)).2 =
        d₀.writeBytes a (toBytes l.op.size v.toNat) := by
  obtain ⟨c, k, hcache⟩ := d.throughCache_eq (d.engPart e) a true
  obtain ⟨xs, hwrite⟩ : ∃ xs, ((d.throughCache (d.engPart e) a true).portWrite since a l.op.size portB .none
      (fun d => d.engineStore a l.op.size v)).2 =
        ({ d.throughCache (d.engPart e) a true with accesses := xs } : Device).engineStore a l.op.size v := by
    obtain hport | hacc := Device.unnoted_of_accessAlone halone
    · exact ⟨d.accesses, by simp [Device.portWrite, hport, hcache]⟩
    · exact Device.portWrite_of_no_accesses (by rw [hcache]; exact hacc) _ _ _ _ _
  obtain ⟨d₀, hsans, hmem, hstore⟩ := Device.engineStore_writes ({ d.throughCache (d.engPart e) a true with accesses := xs } : Device)
    (a := a) (fun _ hx => h.beyond_headers hx) l.op.size v
  exact ⟨d₀, hsans.trans (by rw [hcache]; rfl), hmem.trans (by rw [hcache]), hwrite.trans hstore⟩

section
variable {d : Device} {e p : Nat} {l : LsuRun} {a : Nat} (hpart : d.engPart e = some p) (hmode : (d.part p).mode ≠ .decant)
include hpart hmode

/-- An access outside a Decant that is alone, in service and at check words without an error has its effect and shows nothing. -/
theorem Device.lsuOnMemory_of_alone (hoff : d.offline a = false) (halone : d.accessAlone e a l.op.size)
    (hmarks : ∀ m ∈ d.marks, ¬ (m.1 / 8 * 8 < a + l.op.size ∧ a < m.1 / 8 * 8 + 8)) :
    d.lsuOnMemory e l a .none none = d.lsuMemory e l a .none 0 := by
  have hdecant : d.decantOf p = none := if_neg hmode
  have hsound : d.uncorrectable a l.op.size = false := by
    simpa [Device.uncorrectable] using fun x u hm _ hlo => not_lt.mp fun hhi => hmarks (x, u) hm ⟨hlo, hhi⟩
  have hcorrect : d.correct a l.op.size = (false, d) := by
    have hnone : d.marks.filter (fun m => decide (m.2 = .single ∧ m.1 / 8 * 8 < a + l.op.size ∧ a < m.1 / 8 * 8 + 8)) = [] :=
      List.filter_eq_nil_iff.mpr fun m hm => by simpa using fun _ hlo => not_lt.mp fun hhi => hmarks m hm ⟨hlo, hhi⟩
    have hkeep : d.marks.filter (fun m => !([] : List (Nat × Upset)).contains m) = d.marks := by simp
    simp only [Device.correct, hnone, hkeep, foldDev, List.isEmpty_nil, Bool.not_true]
  have hmet : (if decide (l.op.kind = .atomic) then Collision.none else if inXram a || inMailbox a then
      meets ((checkWords a l.op.size).map fun w => d.verdict l.posted w (!ownCluster e a) (decide (l.op.kind ≠ .load)) .none) else .none) = .none := by
    have := Device.metAs_of_accessAlone halone
    unfold Device.metAs at this
    cases hk : l.op.kind <;> cases hx : inXram a || inMailbox a <;> simp [hk, hx] at this ⊢ <;> exact this
  have hstatus : d.hwStatus e l none false = ((none, false), d) := by simp [Device.hwStatus, hpart, hdecant]
  unfold Device.lsuOnMemory
  cases hk : l.op.kind <;>
    simp only [hk, ne_eq, reduceCtorEq, not_true_eq_false, not_false_eq_true, decide_true, decide_false] at hmet <;>
    simp only [hpart, hdecant, Option.isSome_none, Bool.false_and, Bool.or_false, Bool.not_true, Bool.not_false, reduceCtorEq, decide_false,
      decide_true, hmet] <;>
    simp [hsound, hcorrect, hoff, hstatus, boolWord]

/-- No address of a partition outside a Decant is one of a recorded partition. -/
theorem Device.onlyRecorded_of_mode (a : Nat) : d.onlyRecorded e a = false := by
  simp [Device.onlyRecorded, hpart, Device.recorded, Device.decantOf, hmode]

/-- An operation that is alone answers with what it gives and writes what it stores. -/
theorem PlainMemory.lsuMemory (h : PlainMemory a) (halone : d.accessAlone e a l.op.size) :
    ∃ d₀ : Device, d₀.sansMemory = d.sansMemory ∧ d₀.mem = d.mem ∧
      d.lsuMemory e l a .none 0 = (d₀.writeBytes a (d.lsuStores l a)).lsuAnswer e l (d.lsuGives l a) 0 := by
  unfold Device.lsuMemory
  simp only [Device.onlyRecorded_of_mode hpart hmode, Bool.false_eq_true, if_false]
  cases hk : l.op.kind with
  | load =>
    let d₁ := (d.portRead l.posted a l.op.size (!ownCluster e a) .none).2.throughCache (d.engPart e) a false
    have hmem : d₁.mem = d.mem := by simp [d₁]
    have hbytes : d₁.bytes a l.op.size = d.bytes a l.op.size := Device.bytes_congr (fun k => by rw [Device.byte, hmem]; rfl) _ _
    refine ⟨d₁, by simp [d₁], hmem, ?_⟩
    simp only [if_true]
    split
    next hmail => exact absurd hmail h.not_mailbox
    · simp only [Device.lsuGives, Device.lsuStores, hk, ← hbytes, ← h.windowBytes d₁]
      rfl
  | store =>
    obtain ⟨d₀, hsans, hmem, hwrite⟩ := h.store_writes halone l.posted (!ownCluster e a) l.datum
    refine ⟨d₀, hsans, hmem, ?_⟩
    simp only [Device.lsuGives, Device.lsuStores, hk, ← hwrite]
  | atomic =>
    obtain ⟨c, k, hcache⟩ := d.throughCache_eq (d.engPart e) a true
    obtain ⟨d₀, hsans, hmem, hstore⟩ := Device.engineStore_writes (d.throughCache (d.engPart e) a true) (a := a)
      (fun _ hx => h.beyond_headers hx) 4 (l.op.combine (d.loadWord a) l.datum)
    refine ⟨d₀, hsans.trans (by simp), hmem.trans (by simp), ?_⟩
    simp only [Device.lsuGives, Device.lsuStores, hk, ← hstore]
    split
    next hmail => exact absurd hmail h.not_mailbox
    · simp only [Device.onlyRecorded_of_mode hpart hmode, Bool.false_eq_true, if_false]

end

end Sys2Proof.Machine
end

section
/-! Proofs: what lsu operations on memory give (R169), and O13. -/

namespace Sys2Proof.Machine

/-! ### What the forms give -/

/-- Fewer bytes than they number keep a number below a power of 256. -/
theorem fromBytes_lt (bs : List Byte) : fromBytes bs < 256 ^ bs.length := by
  induction bs with
  | nil => simp [fromBytes]
  | cons b bs ih =>
    have := b.isLt
    simp only [fromBytes, List.length_cons, pow_succ]
    omega

theorem Device.length_bytes (d : Device) (a n : Nat) : (d.bytes a n).length = n := by
  induction n generalizing a with
  | zero => rfl
  | succ n ih => simp [Device.bytes, ih]

/-- n bytes of memory form a number below 256 to the n. -/
theorem Device.fromBytes_bytes_lt (d : Device) (a n : Nat) : fromBytes (d.bytes a n) < 256 ^ n := by
  simpa only [d.length_bytes] using fromBytes_lt (d.bytes a n)

/-- A number of w + 1 bits widened with its sign. -/
theorem toInt_signExtend_ofNat {w n : Nat} (hw : w < 32) (hn : n < 2 ^ (w + 1)) :
    ((BitVec.ofNat (w + 1) n).signExtend 32).toInt = if n < 2 ^ w then (n : Int) else n - 2 ^ (w + 1) := by
  rw [BitVec.toInt_signExtend_of_le hw, BitVec.toInt_eq_toNat_cond, BitVec.toNat_ofNat, Nat.mod_eq_of_lt hn, pow_succ']
  simp only [Nat.mul_lt_mul_left two_pos]
  push_cast
  rw [pow_succ' (2 : Int)]

section
variable {d : Device} {e : Nat} {l : LsuRun}

/-- An answer to the running context leaves every other port, and the data registers, the status and the accrued flags. -/
theorem Device.lsuAnswer_leaves (hctx : l.ctx = (d.eng e).ctx) (v st : Word) :
    (∀ q, q ≠ .lsuR → q ≠ .lsuSt → ((d.lsuAnswer e l v st).eng e).result q = (d.eng e).result q) ∧
    ((d.lsuAnswer e l v st).eng e).d = (d.eng e).d ∧ ((d.lsuAnswer e l v st).eng e).st = (d.eng e).st ∧
    ((d.lsuAnswer e l v st).eng e).acst = (d.eng e).acst := by
  refine ⟨fun q hr hst => ?_, ?_, ?_, ?_⟩
  · simp [Device.lsuAnswer, Engine.commit, hctx, Engine.lsuDone, putResults, Engine.result, Assoc.get_put, hr, hst]
  all_goals simp [Device.lsuAnswer, Engine.commit, hctx, Engine.lsuDone]

/-- What an operation gives and stores rests on memory alone. -/
theorem Device.lsu_congr {d d' : Device} (h : ∀ k, d'.byte k = d.byte k) (l : LsuRun) (a : Nat) :
    d'.lsuGives l a = d.lsuGives l a ∧ d'.lsuStores l a = d.lsuStores l a := by
  simp only [Device.lsuGives, Device.lsuStores, Device.bytes_congr h, Device.loadWord_congr h, and_self]

/-- What an operation writes reads back (R169), byte by byte and, of an atomic, as a word. -/
theorem Device.lsuStores_read {d d' : Device} {a : Nat} (hd : d.canonical = true) (hmem : ∀ k, d'.byte k = (d.writeBytes a (d.lsuStores l a)).byte k) :
    match (generalizing := false) l.op.kind with
    | .load => ∀ k, d'.byte k = d.byte k
    | .store => ∀ i < l.op.size, d'.byte (a + i) = BitVec.ofNat 8 (l.datum.toNat / 256 ^ i)
    | .atomic => d'.loadWord a = l.op.combine (d.loadWord a) l.datum := by
  cases hk : l.op.kind with
  | load => exact fun k => by rw [hmem]; simp [Device.lsuStores, hk]; rfl
  | store =>
    intro i hi
    rw [hmem]
    exact d.byte_writeBytes_self a i _ _ hd (by simpa [Device.lsuStores, hk] using getElem?_toBytes hi _)
  | atomic =>
    have hword := Device.loadWord_writeBytes hd a (bs := d.lsuStores l a) (k := 0) (w := l.op.combine (d.loadWord a) l.datum)
      (by simp only [Device.lsuStores, hk, List.drop_zero]; exact List.take_of_length_le (length_toBytes ..).le)
      (by simp [Device.lsuStores, hk, length_toBytes])
    rw [Device.loadWord_congr hmem]
    exact hword

end

/-- Settles O13: on memory where nothing meets it an operation answers with what it gives and writes what it stores (`PlainMemory.lsuMemory`). -/
theorem memoryAccessCompletes : Obligations.MemoryAccessCompletes := by
  unfold Obligations.MemoryAccessCompletes
  intro s e p o l d x a n hcanon hhead hpart hmode hregion halone hoff hmarks hctx
  have hplain : PlainMemory a := ⟨o, hregion⟩
  obtain ⟨ts, hexec⟩ := exec_lsuComplete_memory hhead hplain.not_device
  let d₁ : Device := { s.dev with targets := ts }
  obtain ⟨d₀, hsans, hmem, heffect⟩ := hplain.lsuMemory (d := d₁) (e := e) (l := l) hpart hmode halone
  obtain ⟨hgives, hstores⟩ := Device.lsu_congr (d := d) (d' := d₁) (fun _ => rfl) l a
  rw [hgives, hstores] at heffect
  let W := d₀.writeBytes a (d.lsuStores l a)
  let v := d.lsuGives l a
  let T := W.lsuAnswer e l v 0
  have hanswer : d₁.lsuOnMemory e l a .none none = T :=
    (Device.lsuOnMemory_of_alone (d := d₁) hpart hmode hoff halone hmarks).trans heffect
  have heng : ∀ k, W.eng k = d.eng k := fun k => Device.eng_of_sansMemory hsans k
  have hctx' : l.ctx = (W.eng e).ctx := by rw [heng]; exact hctx
  obtain ⟨hr, hst, hlsu, -⟩ := Device.lsuAnswer_eng hctx' v 0
  obtain ⟨hother, hdata, hstatus, hacst⟩ := Device.lsuAnswer_leaves hctx' v 0
  obtain ⟨hbytes, -, -, hengs⟩ := W.lsuAnswer_reads e l v 0
  have hbyte : ∀ k, T.byte k = (d.writeBytes a (d.lsuStores l a)).byte k := fun k => by
    rw [hbytes]; simp only [W, Device.byte, Device.writeBytes, hmem]; rfl
  have hread := Device.lsuStores_read (l := l) hcanon hbyte
  have hn : n < 256 ^ l.op.size := d.fromBytes_bytes_lt a l.op.size
  refine ⟨{ s with dev := T }, v, (hexec .none none).trans (congrArg (fun D => Host.Outcome.next { s with dev := D }) hanswer), rfl, hr, hst,
    fun q h₁ h₂ => (hother q h₁ h₂).trans (by rw [heng]), hlsu.trans (by rw [heng]), hdata.trans (by rw [heng]), hstatus.trans (by rw [heng]),
    hacst.trans (by rw [heng]), fun k hk => (hengs k hk).trans (heng k), Device.regs_of_sansMemory (d := d₁) (d' := d₀) hsans, fun k hk => ?_, ?_⟩
  · have hlen := d.length_lsuStores_le l a
    exact (hbyte k).trans (d.byte_writeBytes_other a k _ (by omega))
  · have hload : l.op.kind = .load → v = l.op.extend n := fun hk => by simp only [v, Device.lsuGives, hk, n]
    have hstore : l.op.kind = .store → v = 0 := fun hk => by simp only [v, Device.lsuGives, hk]
    have hatomic : l.op.kind = .atomic → v = d.loadWord a := fun hk => by simp only [v, Device.lsuGives, hk]
    cases hop : l.op <;>
      simp only [hop, LsuOp.kind, LsuOp.size, LsuOp.extend, LsuOp.combine, forall_const, reduceCtorEq, false_implies] at hload hstore hatomic hread hn
    case ldw => exact ⟨hload, hread⟩
    case ldh => exact ⟨hload ▸ toInt_signExtend_ofNat (w := 15) (by norm_num) hn, hread⟩
    case ldhu => exact ⟨by rw [hload, toNat_word (by omega)]; exact Nat.mod_eq_of_lt hn, hread⟩
    case ldb => exact ⟨hload ▸ toInt_signExtend_ofNat (w := 7) (by norm_num) hn, hread⟩
    case ldbu => exact ⟨by rw [hload, toNat_word (by omega)]; exact Nat.mod_eq_of_lt hn, hread⟩
    case stw => exact ⟨hstore, hread⟩
    case sth => exact ⟨hstore, hread⟩
    case stb => exact ⟨hstore, by simpa using hread 0 one_pos⟩
    case aswp => exact ⟨hatomic, hread⟩
    case aadd => exact ⟨hatomic, hread⟩
    case aand => exact ⟨hatomic, hread⟩
    case aor => exact ⟨hatomic, hread⟩

end Sys2Proof.Machine
end

section
/-! SUPPORT: the roots, ratios and rounded sums of kin and ipl (R129, R133). -/

namespace Sys2Proof.Machine

/-! ### Roots and ratios found bit by bit (R129) -/

/-- The root found from bit k is the largest whose square does not exceed n. -/
theorem isqrtFrom_spec {n : Nat} (k r : Nat) (hlo : r * r ≤ n) (hhi : n < (r + 2 ^ (k + 1)) * (r + 2 ^ (k + 1))) :
    isqrtFrom k n r * isqrtFrom k n r ≤ n ∧ n < (isqrtFrom k n r + 1) * (isqrtFrom k n r + 1) := by
  induction k generalizing r with
  | zero =>
    rw [isqrtFrom]
    split
    next hbit => exact ⟨hbit, by simpa [add_assoc] using hhi⟩
    next hbit => exact ⟨hlo, by omega⟩
  | succ k ih =>
    rw [isqrtFrom]
    split
    next hbit => exact ih _ hbit (by rwa [add_assoc, ← two_mul, ← pow_succ'])
    next hbit => exact ih _ hlo (by omega)

theorem isqrt_spec {n : Nat} (hn : n < 2 ^ 130) : isqrt n * isqrt n ≤ n ∧ n < (isqrt n + 1) * (isqrt n + 1) :=
  isqrtFrom_spec 64 0 (Nat.zero_le n) (by simpa [← pow_add] using hn)

/-- The rounded root is the nearest number. -/
theorem sqrtRna_spec {n : Nat} (hn : n < 2 ^ 128) :
    (sqrtRna n ≠ 0 → (2 * sqrtRna n - 1) ^ 2 ≤ 4 * n) ∧ 4 * n < (2 * sqrtRna n + 1) ^ 2 := by
  obtain ⟨hlo, hhi⟩ := isqrt_spec (n := 4 * n) (by omega)
  rw [sqrtRna]
  generalize isqrt (4 * n) = f at hlo hhi
  refine ⟨fun _ => ?_, ?_⟩
  · calc (2 * ((f + 1) / 2) - 1) ^ 2 ≤ f ^ 2 := Nat.pow_le_pow_left (by omega) 2
      _ ≤ 4 * n := by rwa [sq]
  · calc 4 * n < (f + 1) ^ 2 := by rwa [sq]
      _ ≤ (2 * ((f + 1) / 2) + 1) ^ 2 := Nat.pow_le_pow_left (by omega) 2

/-- The rounded root of a number below (b - 1/2)² is below b. -/
theorem sqrtRna_lt {n b : Nat} (hn : n < 2 ^ 128) (hpos : 0 < b) (hb : 4 * n < (2 * b - 1) ^ 2) : sqrtRna n < b := by
  by_contra hlt
  have hsq : (2 * b - 1) ^ 2 ≤ (2 * sqrtRna n - 1) ^ 2 := Nat.pow_le_pow_left (by omega) 2
  exact absurd (hsq.trans ((sqrtRna_spec hn).1 (by omega))) (not_le.mpr hb)

/-- The ratio found from bit k is the nearest to v × 2^16 / √s. -/
theorem ratioFrom_spec {v s : Nat} (k n : Nat) (hlo : n ≠ 0 → (2 * n - 1) * (2 * n - 1) * s ≤ 2 ^ 34 * (v * v))
    (hhi : 2 ^ 34 * (v * v) < (2 * (n + 2 ^ (k + 1)) - 1) * (2 * (n + 2 ^ (k + 1)) - 1) * s) :
    (ratioFrom k n v s ≠ 0 → (2 * ratioFrom k n v s - 1) * (2 * ratioFrom k n v s - 1) * s ≤ 2 ^ 34 * (v * v)) ∧
      2 ^ 34 * (v * v) < (2 * ratioFrom k n v s + 1) * (2 * ratioFrom k n v s + 1) * s := by
  induction k generalizing n with
  | zero =>
    rw [ratioFrom]
    split
    next hbit => exact ⟨fun _ => hbit, hhi⟩
    next hbit => exact ⟨hlo, not_le.mp hbit⟩
  | succ k ih =>
    rw [ratioFrom]
    split
    next hbit => exact ih _ (fun _ => hbit) (by rwa [add_assoc, ← two_mul, ← pow_succ'])
    next hbit => exact ih _ hlo (not_le.mp hbit)

/-- A component of a vector of length √s. -/
theorem ratio_spec {v s : Nat} (hs : 0 < s) (hv : v * v ≤ s) :
    (ratioFrom 16 0 v s ≠ 0 → (2 * ratioFrom 16 0 v s - 1) ^ 2 * s ≤ 2 ^ 34 * v ^ 2) ∧
      2 ^ 34 * v ^ 2 < (2 * ratioFrom 16 0 v s + 1) ^ 2 * s ∧ ratioFrom 16 0 v s ≤ 2 ^ 16 := by
  obtain ⟨hlo, hhi⟩ := ratioFrom_spec (v := v) (s := s) 16 0 (by simp) (by norm_num; omega)
  generalize ratioFrom 16 0 v s = n at hlo hhi
  refine ⟨by simpa only [sq] using hlo, by simpa only [sq] using hhi, ?_⟩
  by_contra hn
  have hsq : (2 ^ 17 + 1) * (2 ^ 17 + 1) ≤ (2 * n - 1) * (2 * n - 1) := Nat.mul_le_mul (by omega) (by omega)
  have := (Nat.mul_le_mul_right s hsq).trans (hlo (by omega))
  omega

/-! ### Clamped and rounded sums -/

/-- A clamped value. -/
theorem toInt_sat32s (y : Int) : (sat32s y).toInt = max (-2 ^ 31) (min (2 ^ 31 - 1) y) := by
  unfold sat32s
  split_ifs with hlo hhi
  · rw [show BitVec.toInt (0x80000000 : Word) = -2 ^ 31 from rfl]; omega
  · rw [show BitVec.toInt (0x7FFFFFFF : Word) = 2 ^ 31 - 1 from rfl]; omega
  · rw [BitVec.toInt_ofInt_eq_self (by norm_num) (by omega) (by omega)]; omega

/-- A value clamps where it does not fit. -/
theorem not_fits32_iff (y : Int) : (!fits32 y) = true ↔ y < -2 ^ 31 ∨ 2 ^ 31 - 1 < y := by
  simp only [fits32, Bool.not_eq_true', decide_eq_false_iff_not]
  omega

/-- A clamped value written as a word is the word of the clamped value. -/
theorem wrap32_toInt (w : Word) : wrap32 w.toInt = w := BitVec.ofInt_toInt

end Sys2Proof.Machine
end

section
/-! SUPPORT: the completion of a kin or ipl request whose words nothing has stored to meanwhile (R52, R58, R128). -/

namespace Sys2Proof.Machine

/-! ### Words put into a block (R127, R131) -/

/-- A word put at its offset of a block of the cluster SRAM. -/
def putWord (e : Nat) (block : Word) (m : List Host.Cell) (w : Nat × Word) : List Host.Cell :=
  Cells.writeList physBlank m (blockAddr e block w.1) (toBytes 4 w.2.toNat)

/-- Words put one after the other. -/
def Device.putWords (d : Device) (e : Nat) (block : Word) (ws : List (Nat × Word)) : Device :=
  { d with mem := ws.foldl (putWord e block) d.mem }

theorem Device.mem_writeBytes (d : Device) (a : Nat) (bs : List Byte) : (d.writeBytes a bs).mem = Cells.writeList physBlank d.mem a bs := rfl

theorem Device.marks_writeBytes (d : Device) (a : Nat) (bs : List Byte) : (d.writeBytes a bs).marks = d.marks := rfl

theorem Device.writeBytes_with_mem (d : Device) (a : Nat) (bs : List Byte) (m : List Host.Cell) :
    ({ d.writeBytes a bs with mem := m } : Device) = { d with mem := m } := rfl

theorem Device.putWords_cons (d : Device) (e : Nat) (block : Word) (w : Nat × Word) (ws : List (Nat × Word)) :
    d.putWords e block (w :: ws) = (d.writeBytes (blockAddr e block w.1) (toBytes 4 w.2.toNat)).putWords e block ws := by
  rw [Device.putWords, Device.putWords, Device.writeBytes_with_mem, Device.mem_writeBytes, List.foldl_cons, putWord]

/-- Where no check word is struck and nothing was stored meanwhile a request puts its words. -/
theorem Device.writeOut_eq_putWords {d : Device} {r : Request} {block : Word} {ws : List (Nat × Word)}
    (h : ws = [] ∨ d.marks = [] ∧ r.stored = []) : d.writeOut r block ws = d.putWords r.engine block ws := by
  obtain rfl | ⟨hm, hs⟩ := h
  · rfl
  · induction ws generalizing d with
    | nil => rfl
    | cons w ws ih =>
      rw [Device.writeOut, Device.putWords_cons, ← ih ((d.marks_writeBytes _ _).trans hm), if_neg (by simp [hs]),
        Device.storeWord, Device.storeBytes_of_sound hm]

section
variable (d : Device) (e : Nat) (block : Word) (ws : List (Nat × Word))

/-- Words put leave every byte outside them. -/
theorem Device.byte_putWords_other {k : Nat} (h : ∀ w ∈ ws, k < blockAddr e block w.1 ∨ blockAddr e block w.1 + 4 ≤ k) :
    (d.putWords e block ws).byte k = d.byte k := by
  induction ws generalizing d with
  | nil => rfl
  | cons w ws ih =>
    obtain ⟨hw, hws⟩ := List.forall_mem_cons.mp h
    rw [Device.putWords_cons, ih _ hws]
    exact d.byte_writeBytes_other _ k _ (by rwa [length_toBytes])

end

/-- Bytes that agree on a word give the same word. -/
theorem Device.loadWord_congr_on {d d' : Device} {a : Nat} (h : ∀ k, a ≤ k → k < a + 4 → d'.byte k = d.byte k) : d'.loadWord a = d.loadWord a := by
  have hbytes : d'.bytes a 4 = d.bytes a 4 := by
    simp only [Device.bytes]
    rw [h a (by omega) (by omega), h (a + 1) (by omega) (by omega), h (a + 1 + 1) (by omega) (by omega), h (a + 1 + 1 + 1) (by omega) (by omega)]
  rw [Device.loadWord, Device.loadWord, hbytes]

/-- Two words of a block lie apart. -/
def wordsApart (e : Nat) (block : Word) (v w : Nat × Word) : Prop :=
  blockAddr e block v.1 + 4 ≤ blockAddr e block w.1 ∨ blockAddr e block w.1 + 4 ≤ blockAddr e block v.1

/-- Words put that lie apart are read. -/
theorem Device.loadWord_putWords {d : Device} (hd : d.canonical = true) {e : Nat} {block : Word} {ws : List (Nat × Word)}
    (hapart : ws.Pairwise (wordsApart e block)) : ∀ w ∈ ws, (d.putWords e block ws).loadWord (blockAddr e block w.1) = w.2 := by
  induction ws generalizing d with
  | nil => simp
  | cons v ws ih =>
    obtain ⟨hv, hws⟩ := List.pairwise_cons.mp hapart
    let D := d.writeBytes (blockAddr e block v.1) (toBytes 4 v.2.toNat)
    have hkeep : (D.putWords e block ws).loadWord (blockAddr e block v.1) = D.loadWord (blockAddr e block v.1) := by
      refine Device.loadWord_congr_on fun k hlo hhi => D.byte_putWords_other e block ws fun w hw => ?_
      obtain h | h := hv w hw
      · exact .inl (by omega)
      · exact .inr (by omega)
    have hread : D.loadWord (blockAddr e block v.1) = v.2 :=
      Device.loadWord_writeBytes hd _ (k := 0) (List.take_of_length_le (length_toBytes ..).le) (length_toBytes ..).ge
    rw [Device.putWords_cons]
    exact List.forall_mem_cons.mpr ⟨hkeep.trans hread, ih (d.canonical_writeBytes _ _ hd) hws⟩

/-- Different words of a block lie apart. -/
theorem wordsApart_of_ne (e : Nat) (block : Word) {v w : Nat × Word} (hv : v.1 % 4 = 0) (hw : w.1 % 4 = 0)
    (hv' : v.1 < 0x400000) (hw' : w.1 < 0x400000) (hne : v.1 ≠ w.1) : wordsApart e block v w := by
  unfold wordsApart blockAddr
  omega

/-! ### The completion (R52, R58) -/

/-- What the operation of a request leaves (R129, R133). -/
def Service.result (v : Service) : SharedResult :=
  match v.req.op with
  | .kin op => kinExec op v.req.a v.req.t v.inputs
  | .ipl op => iplExec op v.req.t v.inputs
  | .bmv _ => { writes := [], r := 0, r2 := none, flags := 0 }

/-- The block that a request writes. -/
def Service.block (v : Service) : Word := match v.req.op with | .kin _ => v.req.t | _ => v.req.a

/-- The engine of a request, once the request has completed at a step. -/
def Engine.served (x : Engine) (v : Service) (n : Nat) : Engine :=
  let ws := sharedWrites v.req.op v.result
  let y := (unwritten v.req.op ws).foldl (fun y p => y.closeIn v.req.ctx p) (x.commit v.req.ctx ws)
  { (y.setFlags n v.result.flags) with lastRetire := max x.lastRetire n }

/-- A request that has been served puts its words and hands its results to its engine. -/
theorem Device.sharedComplete_of_served {d : Device} {c : Nat} {u : SharedUnit} {v : Service} (hpaused : d.pausedCluster c = false)
    (hservice : (d.unit3 c u).service = some v) (hdue : d.servedBy v ≤ d.now) (hdead : v.req.dead = false) (hbad : v.bad = false) :
    ∃ n, d.sharedComplete c u = ((d.setUnit3 c u { d.unit3 c u with service := none, lastDone := v.due }).writeOut v.req v.block
      v.result.writes).onEng v.req.engine (fun x => x.served v n) := by
  refine ⟨(d.setUnit3 c u { d.unit3 c u with service := none, lastDone := v.due }).nowStep v.req.engine, ?_⟩
  unfold Device.sharedComplete
  simp only [hpaused, hservice, not_lt.mpr hdue, hdead, hbad, Bool.false_eq_true, if_false]
  rfl

/-- The state that a served request leaves: the unit is free, and only its engine and the words of its block have changed. -/
structure ServedState (s : State) (c : Nat) (u : SharedUnit) (v : Service) (t : State) : Prop where
  pending : t.pending = s.pending
  free : (t.dev.unit3 c u).service = none
  others : ∀ k, k ≠ v.req.engine → t.dev.eng k = s.dev.eng k
  byte : ∀ k, t.dev.byte k = (s.dev.putWords v.req.engine v.block v.result.writes).byte k
  eng : ∃ n, t.dev.eng v.req.engine = (s.dev.eng v.req.engine).served v n

theorem sharedComplete_served {s : State} {c : Nat} {u : SharedUnit} {v : Service} (hpaused : s.dev.pausedCluster c = false)
    (hservice : (s.dev.unit3 c u).service = some v) (hdue : s.dev.servedBy v ≤ s.dev.now) (hdead : v.req.dead = false) (hbad : v.bad = false)
    (hplain : v.result.writes = [] ∨ s.dev.marks = [] ∧ v.req.stored = []) :
    ServedState s c u v (s.onDev (fun d => d.sharedComplete c u)) := by
  obtain ⟨n, hcomplete⟩ := Device.sharedComplete_of_served hpaused hservice hdue hdead hbad
  let U : Device := s.dev.setUnit3 c u { s.dev.unit3 c u with service := none, lastDone := v.due }
  obtain ⟨cs, hU⟩ : ∃ cs, U = { s.dev with clusters := cs } := Device.setUnit3_eq ..
  have hUfree : (U.unit3 c u).service = none := by simp [U]
  let m := v.result.writes.foldl (putWord v.req.engine v.block) s.dev.mem
  have hput : U.writeOut v.req v.block v.result.writes = { U with mem := m } := by
    rw [Device.writeOut_eq_putWords (by rw [hU]; exact hplain), Device.putWords, hU]
  have hdev : (s.onDev (fun d => d.sharedComplete c u)).dev = ({ U with mem := m } : Device).onEng v.req.engine (fun x => x.served v n) := by
    rw [State.onDev, hcomplete, ← hput]
  refine ⟨rfl, ?_, fun k hk => ?_, fun k => ?_, n, ?_⟩
  · rw [hdev]; cases u <;> exact hUfree
  · rw [hdev, Device.onEng_other _ _ _ _ hk, hU]; rfl
  · rw [hdev, hU]; rfl
  · rw [hdev, Device.onEng_self, hU]; rfl

/-! ### The results in the engine (R50, R58, R129, R133) -/

section
variable {x : Engine} {v : Service} (hctx : v.req.ctx = x.ctx) (n : Nat)
include hctx

/-- The results of a completion of kin: kin.r holds the first, kin.r2 the second, or is closed where there is none. -/
theorem Engine.served_res_kin {op : KinOp} (hop : v.req.op = .kin op) :
    (x.served v n).res = Assoc.put (Assoc.put x.res .kinR { value := v.result.r, readable := true }) .kinR2
      (match v.result.r2 with
        | some w => { value := w, readable := true }
        | none => { value := (x.result .kinR2).value, readable := false }) := by
  cases hr2 : v.result.r2 <;>
    simp [Engine.served, hop, sharedWrites, hr2, unwritten, Engine.commit, hctx, putResults, Engine.closeIn, Engine.close, Engine.setFlags,
      Engine.result, Assoc.get_put]

/-- A completion of kin leaves its results and sets its flags. -/
theorem Engine.served_kin {op : KinOp} (hop : v.req.op = .kin op) :
    (x.served v n).result .kinR = { value := v.result.r, readable := true } ∧
    (∀ w, v.result.r2 = some w → (x.served v n).result .kinR2 = { value := w, readable := true }) ∧
    (v.result.r2 = none → (x.served v n).result .kinR2 = { value := (x.result .kinR2).value, readable := false }) ∧
    (∀ p, p ≠ .kinR → p ≠ .kinR2 → (x.served v n).result p = x.result p) ∧
    (x.served v n).acst = x.acst ||| v.result.flags := by
  refine ⟨?_, fun w hw => ?_, fun hnone => ?_, fun p h₁ h₂ => ?_, ?_⟩
  · simp [Engine.result, x.served_res_kin hctx n hop, Assoc.get_put]
  · simp [Engine.result, x.served_res_kin hctx n hop, hw]
  · simp [Engine.result, x.served_res_kin hctx n hop, hnone]
  · simp [Engine.result, x.served_res_kin hctx n hop, Assoc.get_put, h₁, h₂]
  · cases hr2 : v.result.r2 <;>
      simp [Engine.served, hop, sharedWrites, hr2, unwritten, Engine.commit, hctx, Engine.closeIn, Engine.close, Engine.setFlags]

/-- A completion of ipl leaves its results in ipl.r and ipl.st and sets its flags. -/
theorem Engine.served_ipl {op : IplOp} (hop : v.req.op = .ipl op) :
    (x.served v n).result .iplR = { value := v.result.r, readable := true } ∧
    (x.served v n).result .iplSt = { value := v.result.r2.getD 0, readable := true } ∧
    (x.served v n).acst = x.acst ||| v.result.flags := by
  simp [Engine.served, hop, sharedWrites, unwritten, Engine.commit, hctx, putResults, Engine.setFlags, Engine.result, Assoc.get_put]

end

end Sys2Proof.Machine
end

section
/-! Proofs: the operations of kin and ipl (R127 to R133), and O16. -/

namespace Sys2Proof.Machine

/-! ### What a served request leaves in memory -/

section
variable {s t : State} {c : Nat} {u : SharedUnit} {v : Service} (h : ServedState s c u v t)
include h

/-- A request that writes nothing leaves memory. -/
theorem ServedState.byte_of_no_writes (hw : v.result.writes = []) (k : Nat) : t.dev.byte k = s.dev.byte k := by
  rw [h.byte, hw]; rfl

/-- A request leaves every byte outside the words that it writes. -/
theorem ServedState.byte_other {k : Nat}
    (hk : ∀ w ∈ v.result.writes, k < blockAddr v.req.engine v.block w.1 ∨ blockAddr v.req.engine v.block w.1 + 4 ≤ k) :
    t.dev.byte k = s.dev.byte k :=
  (h.byte k).trans (s.dev.byte_putWords_other _ _ _ hk)

/-- The words that a request writes are read at their offsets. -/
theorem ServedState.loadWord (hcanon : s.dev.canonical = true) (hapart : v.result.writes.Pairwise (wordsApart v.req.engine v.block)) :
    ∀ w ∈ v.result.writes, t.dev.loadWord (blockAddr v.req.engine v.block w.1) = w.2 := fun w hw =>
  (Device.loadWord_congr h.byte _).trans (Device.loadWord_putWords hcanon hapart w hw)

end

/-- An offset within 16 bytes of an aligned block. -/
theorem blockAddr_of_aligned (e : Nat) {block : Word} (hblock : block.toNat % 16 = 0) {j : Nat} (hj : j < 16) :
    blockAddr e block j = blockAddr e block 0 + j := by
  unfold blockAddr
  omega

/-- Consecutive words of a block lie apart. -/
theorem wordsApart_range (e : Nat) (block : Word) {b n : Nat} (hb : b % 4 = 0) (hn : b + 4 * n ≤ 0x400000) (f : Nat → Word) :
    ((List.range n).map fun i => (b + 4 * i, f i)).Pairwise (wordsApart e block) := by
  refine List.pairwise_map.mpr (List.pairwise_lt_range.imp_of_mem fun {i j} hi hj hij => ?_)
  have hi' := List.mem_range.mp hi
  have hj' := List.mem_range.mp hj
  exact wordsApart_of_ne e block (by dsimp only; omega) (by dsimp only; omega) (by dsimp only; omega) (by dsimp only; omega) (by dsimp only; omega)

/-! ### kin (R129) -/

/-- A product clamps where one of its rows does not fit. -/
theorem mv4_clamps_iff (ws : List Word) : ([0, 1, 2, 3].any fun i => !fits32 (mv4Row ws i)) = true ↔
    ∃ i < 4, mv4Row ws i < -2 ^ 31 ∨ 2 ^ 31 - 1 < mv4Row ws i := by
  rw [show [0, 1, 2, 3] = List.range 4 from rfl, List.any_eq_true]
  simp only [List.mem_range, not_fits32_iff]

section
variable {s : State} {c : Nat} {v : Service} (hpaused : s.dev.pausedCluster c = false) (hservice : (s.dev.unit3 c .kin).service = some v)
  (hdue : s.dev.servedBy v ≤ s.dev.now) (hdead : v.req.dead = false) (hbad : v.bad = false)
  (hctx : v.req.ctx = (s.dev.eng v.req.engine).ctx)
include hpaused hservice hdue hdead hbad hctx

/-- A square root, rounded to the nearest number. -/
theorem kinComplete_sqrt (hop : v.req.op = .kin .sqrt) :
    ∃ t r, exec (.kinComplete c) s = .next t ∧ ServedState s c .kin v t ∧
      (t.dev.eng v.req.engine).result .kinR = { value := r, readable := true } ∧
      (r ≠ 0 → (2 * r.toNat - 1) ^ 2 ≤ 4 * (v.req.t.toNat * 2 ^ 16)) ∧ 4 * (v.req.t.toNat * 2 ^ 16) < (2 * r.toNat + 1) ^ 2 ∧
      (t.dev.eng v.req.engine).result .kinR2 = { value := ((s.dev.eng v.req.engine).result .kinR2).value, readable := false } ∧
      (∀ p, p ≠ .kinR → p ≠ .kinR2 → (t.dev.eng v.req.engine).result p = (s.dev.eng v.req.engine).result p) ∧
      (t.dev.eng v.req.engine).acst = (s.dev.eng v.req.engine).acst ∧ ∀ k, t.dev.byte k = s.dev.byte k := by
  have hres : v.result = { writes := [], r := word (sqrtRna (v.req.t.toNat * 2 ^ 16)), r2 := none, flags := 0 } := by
    simp [Service.result, hop, kinExec]
  have hserved := sharedComplete_served hpaused hservice hdue hdead hbad (.inl (by rw [hres]))
  obtain ⟨n, heng⟩ := hserved.eng
  obtain ⟨hr, -, hr2, hother, hflags⟩ := Engine.served_kin hctx n hop
  have ht := v.req.t.isLt
  have hroot : (word (sqrtRna (v.req.t.toNat * 2 ^ 16))).toNat = sqrtRna (v.req.t.toNat * 2 ^ 16) :=
    toNat_word (sqrtRna_lt (by omega) (by norm_num) (by omega))
  obtain ⟨hlo, hhi⟩ := sqrtRna_spec (n := v.req.t.toNat * 2 ^ 16) (by omega)
  refine ⟨_, _, rfl, hserved, heng ▸ hr, fun hne => ?_, ?_, heng ▸ hr2 (by rw [hres]), heng ▸ hother, ?_, hserved.byte_of_no_writes (by rw [hres])⟩
  · rw [hres, hroot]
    refine hlo fun h0 => hne ?_
    rw [hres, h0]; rfl
  · rw [hres, hroot]; exact hhi
  · rw [heng, hflags, hres]; simp

/-- A product of a matrix and a vector: each component clamped, with SAT where one clamps. -/
theorem kinComplete_mv4 (hop : v.req.op = .kin .mv4) (hcanon : s.dev.canonical = true) (hmarks : s.dev.marks = []) (hstored : v.req.stored = [])
    (hblock : v.req.t.toNat % 16 = 0) :
    ∃ t, exec (.kinComplete c) s = .next t ∧ ServedState s c .kin v t ∧
      (∀ i < 4, t.dev.loadWord (blockAddr v.req.engine v.req.t (4 * i)) = sat32s (mv4Row v.inputs i)) ∧
      (t.dev.eng v.req.engine).result .kinR = { value := sat32s (mv4Row v.inputs 0), readable := true } ∧
      (t.dev.eng v.req.engine).result .kinR2 = { value := sat32s (mv4Row v.inputs 1), readable := true } ∧
      ((∃ i < 4, mv4Row v.inputs i < -2 ^ 31 ∨ 2 ^ 31 - 1 < mv4Row v.inputs i) →
        (t.dev.eng v.req.engine).acst = (s.dev.eng v.req.engine).acst ||| flagSAT) ∧
      ((∀ i < 4, -2 ^ 31 ≤ mv4Row v.inputs i ∧ mv4Row v.inputs i ≤ 2 ^ 31 - 1) →
        (t.dev.eng v.req.engine).acst = (s.dev.eng v.req.engine).acst) ∧
      ∀ k, k < blockAddr v.req.engine v.req.t 0 ∨ blockAddr v.req.engine v.req.t 0 + 16 ≤ k → t.dev.byte k = s.dev.byte k := by
  have hres : v.result = kinExec .mv4 v.req.a v.req.t v.inputs := by simp [Service.result, hop]
  have hwrites : v.result.writes = (List.range 4).map fun i => (0 + 4 * i, sat32s (mv4Row v.inputs i)) := by rw [hres]; rfl
  have hput : v.block = v.req.t := by simp [Service.block, hop]
  have hserved := sharedComplete_served hpaused hservice hdue hdead hbad (.inr ⟨hmarks, hstored⟩)
  obtain ⟨n, heng⟩ := hserved.eng
  obtain ⟨hr, hr2, -, -, hflags⟩ := Engine.served_kin hctx n hop
  have hread := hserved.loadWord hcanon (by rw [hwrites]; exact wordsApart_range _ _ rfl (by norm_num) _)
  rw [hwrites, hput] at hread
  simp only [List.forall_mem_map, List.mem_range, Nat.zero_add] at hread
  rw [show v.result.flags = flagIf ([0, 1, 2, 3].any fun i => !fits32 (mv4Row v.inputs i)) flagSAT by rw [hres]; rfl] at hflags
  refine ⟨_, rfl, hserved, hread, ?_, ?_, fun hclamps => ?_, fun hfits => ?_, fun k hk => hserved.byte_other ?_⟩
  · rw [heng, hr, hres]; rfl
  · rw [heng, hr2 _ (by rw [hres]; rfl)]
  · rw [heng, hflags, (mv4_clamps_iff v.inputs).mpr hclamps]; rfl
  · have hnone : ([0, 1, 2, 3].any fun i => !fits32 (mv4Row v.inputs i)) = false := Bool.eq_false_iff.mpr fun hany => by
      obtain ⟨i, hi, hout⟩ := (mv4_clamps_iff v.inputs).mp hany
      have := hfits i hi
      omega
    rw [heng, hflags, hnone]
    exact BitVec.or_zero
  · rw [hwrites, hput]
    simp only [List.forall_mem_map, List.mem_range, Nat.zero_add]
    intro i hi
    rw [blockAddr_of_aligned _ hblock (by omega)]
    omega

end

/-- The word of one component of a vector of length √s, as norm3 finds it. -/
def norm3Word (v : Int) (s : Nat) : Word := wrap32 (if v < 0 then -(ratioFrom 16 0 v.natAbs s : Int) else ratioFrom 16 0 v.natAbs s)

/-- One component of a vector of length √s, scaled by 2^16: its sign, and that it is the nearest number. -/
theorem norm3_component {v : Int} {s : Nat} (hs : 0 < s) (hv : v ^ 2 ≤ s) :
    let n := (norm3Word v s).toInt
    (0 < v → 0 ≤ n) ∧ (v < 0 → n ≤ 0) ∧ (v = 0 → n = 0) ∧
      (n ≠ 0 → (2 * |n| - 1) ^ 2 * s ≤ 2 ^ 34 * v ^ 2) ∧ 2 ^ 34 * v ^ 2 < (2 * |n| + 1) ^ 2 * s := by
  intro n
  have hsq : ((v.natAbs ^ 2 : Nat) : Int) = v ^ 2 := by push_cast; exact sq_abs v
  have hv' : v.natAbs * v.natAbs ≤ s := by rw [← sq]; omega
  obtain ⟨hlo, hhi, hmax⟩ := ratio_spec hs hv'
  have hn : n = if v < 0 then -(ratioFrom 16 0 v.natAbs s : Int) else ratioFrom 16 0 v.natAbs s :=
    BitVec.toInt_ofInt_eq_self (by norm_num) (by split <;> omega) (by split <;> omega)
  clear_value n
  generalize ratioFrom 16 0 v.natAbs s = m at hlo hhi hmax hn
  have habs : |n| = (m : Int) := by rw [hn]; split <;> simp
  have hlo' : m ≠ 0 → (2 * (m : Int) - 1) ^ 2 * s ≤ 2 ^ 34 * v ^ 2 := fun hm => by
    have := hlo hm
    zify [show 1 ≤ 2 * m by omega] at this
    rwa [sq_abs] at this
  refine ⟨fun hpos => ?_, fun hneg => ?_, fun hzero => ?_, fun hne => ?_, ?_⟩
  · rw [hn, if_neg (by omega)]; omega
  · rw [hn, if_pos hneg]; omega
  · have hm : m = 0 := by
      by_contra hm
      have := hlo' hm
      rw [hzero] at this
      have hpos : 0 < (2 * (m : Int) - 1) ^ 2 * s := by
        have : (0 : Int) < s := by exact_mod_cast hs
        have : (0 : Int) < 2 * m - 1 := by omega
        positivity
      omega
    rw [hn, hm]; simp
  · rw [habs]
    exact hlo' (by rintro rfl; simp at habs; exact hne habs)
  · rw [habs, ← hsq]
    exact_mod_cast hhi

/-- The square of a signed word. -/
theorem sq_toInt_le (w : Word) : w.toInt ^ 2 ≤ 2 ^ 62 := by
  have hlo := BitVec.le_toInt w
  have hhi := BitVec.toInt_lt (x := w)
  norm_num at hlo hhi ⊢
  nlinarith

/-- No component is longer than its vector. -/
theorem sq_le_of_sum {f : Nat → Int} {L : Nat} (h : f 0 ^ 2 + f 1 ^ 2 + f 2 ^ 2 = L) : ∀ i < 3, f i ^ 2 ≤ L := fun i hi => by
  have h0 := sq_nonneg (f 0)
  have h1 := sq_nonneg (f 1)
  have h2 := sq_nonneg (f 2)
  rw [← h]
  interval_cases i <;> omega

/-- The length of a vector that is not 0 fits its word and is the nearest number. -/
theorem norm3_length {a b c : Word} {L : Nat} (hL : L ≠ 0) (h : a.toInt ^ 2 + b.toInt ^ 2 + c.toInt ^ 2 = L) :
    (2 * ((word (sqrtRna L)).toNat : Int) - 1) ^ 2 ≤ 4 * L ∧ 4 * (L : Int) < (2 * ((word (sqrtRna L)).toNat : Int) + 1) ^ 2 := by
  have hmax : L ≤ 3 * 2 ^ 62 := by
    have ha := sq_toInt_le a
    have hb := sq_toInt_le b
    have hc := sq_toInt_le c
    omega
  obtain ⟨hlo, hhi⟩ := sqrtRna_spec (n := L) (by omega)
  rw [toNat_word (sqrtRna_lt (by omega) (by norm_num) (by omega))]
  refine ⟨?_, by exact_mod_cast hhi⟩
  by_cases hr : sqrtRna L = 0
  · rw [hr]; norm_num; omega
  · have := hlo hr
    zify [show 1 ≤ 2 * sqrtRna L by omega] at this
    exact this

section
variable {s : State} {c : Nat} {v : Service} (hpaused : s.dev.pausedCluster c = false) (hservice : (s.dev.unit3 c .kin).service = some v)
  (hdue : s.dev.servedBy v ≤ s.dev.now) (hdead : v.req.dead = false) (hbad : v.bad = false)
  (hctx : v.req.ctx = (s.dev.eng v.req.engine).ctx)
include hpaused hservice hdue hdead hbad hctx

/-- A vector of length 0: KR, and nothing is written. -/
theorem kinComplete_norm3_zero (hop : v.req.op = .kin .norm3)
    (hzero : (inputAt v.inputs 0).toInt ^ 2 + (inputAt v.inputs 1).toInt ^ 2 + (inputAt v.inputs 2).toInt ^ 2 = 0) :
    ∃ t, exec (.kinComplete c) s = .next t ∧ ServedState s c .kin v t ∧
      (t.dev.eng v.req.engine).result .kinR = { value := 0, readable := true } ∧
      ((t.dev.eng v.req.engine).result .kinR2).readable = false ∧
      (t.dev.eng v.req.engine).acst = (s.dev.eng v.req.engine).acst ||| flagKR ∧ ∀ k, t.dev.byte k = s.dev.byte k := by
  have hres : v.result = { writes := [], r := 0, r2 := none, flags := flagKR } := by
    simp only [sq] at hzero
    simp [Service.result, hop, kinExec, hzero]
  have hserved := sharedComplete_served hpaused hservice hdue hdead hbad (.inl (by rw [hres]))
  obtain ⟨n, heng⟩ := hserved.eng
  obtain ⟨hr, -, hr2, -, hflags⟩ := Engine.served_kin hctx n hop
  exact ⟨_, rfl, hserved, by rw [heng, hr, hres], by rw [heng, hr2 (by rw [hres])], by rw [heng, hflags, hres],
    hserved.byte_of_no_writes (by rw [hres])⟩

/-- A vector of another length: its length and its components. -/
theorem kinComplete_norm3 (hop : v.req.op = .kin .norm3) (hcanon : s.dev.canonical = true) (hmarks : s.dev.marks = []) (hstored : v.req.stored = [])
    (hblock : v.req.t.toNat % 16 = 0) {L : Nat} (hL : L ≠ 0)
    (hsq : (inputAt v.inputs 0).toInt ^ 2 + (inputAt v.inputs 1).toInt ^ 2 + (inputAt v.inputs 2).toInt ^ 2 = L) :
    ∃ t, exec (.kinComplete c) s = .next t ∧ ServedState s c .kin v t ∧
      (t.dev.eng v.req.engine).result .kinR = { value := word (sqrtRna L), readable := true } ∧
      ((t.dev.eng v.req.engine).result .kinR2).readable = false ∧
      (t.dev.eng v.req.engine).acst = (s.dev.eng v.req.engine).acst ∧
      (∀ i < 3, t.dev.loadWord (blockAddr v.req.engine v.req.t (4 * i)) = norm3Word (inputAt v.inputs i).toInt L) ∧
      ∀ k, k < blockAddr v.req.engine v.req.t 0 ∨ blockAddr v.req.engine v.req.t 0 + 12 ≤ k → t.dev.byte k = s.dev.byte k := by
  have hres : v.result = { writes := (List.range 3).map fun i => (0 + 4 * i, norm3Word (inputAt v.inputs i).toInt L)
                           r := word (sqrtRna L), r2 := none, flags := 0 } := by
    have hnat : ((inputAt v.inputs 0).toInt * (inputAt v.inputs 0).toInt + (inputAt v.inputs 1).toInt * (inputAt v.inputs 1).toInt +
        (inputAt v.inputs 2).toInt * (inputAt v.inputs 2).toInt).natAbs = L := by simp only [← sq, hsq, Int.natAbs_natCast]
    simp only [Service.result, hop, kinExec, hnat, if_neg hL]
    rfl
  have hput : v.block = v.req.t := by simp [Service.block, hop]
  have hserved := sharedComplete_served hpaused hservice hdue hdead hbad (.inr ⟨hmarks, hstored⟩)
  obtain ⟨n, heng⟩ := hserved.eng
  obtain ⟨hr, -, hr2, -, hflags⟩ := Engine.served_kin hctx n hop
  have hread := hserved.loadWord hcanon (by rw [hres]; exact wordsApart_range _ _ rfl (by norm_num) _)
  rw [hput] at hread
  simp only [hres, List.forall_mem_map, List.mem_range, Nat.zero_add] at hread
  refine ⟨_, rfl, hserved, by rw [heng, hr, hres], by rw [heng, hr2 (by rw [hres])], by rw [heng, hflags, hres]; simp, hread,
    fun k hk => hserved.byte_other ?_⟩
  rw [hput]
  simp only [hres, List.forall_mem_map, List.mem_range, Nat.zero_add]
  intro i hi
  rw [blockAddr_of_aligned _ hblock (by omega)]
  omega

end

end Sys2Proof.Machine
end

section
/-! Proofs: ipl (R131 to R133), and O16. -/

namespace Sys2Proof.Machine

/-! ### Interpolation (R133) -/

/-- A value clamped to 32 bits. -/
def clamp32 (y : Int) : Int := max (-2 ^ 31) (min (2 ^ 31 - 1) y)

theorem satClamp_fst (y : Int) : (satClamp y).1 = clamp32 y := toInt_sat32s y

/-- A block that asks for no axis, for more than eight, or has a must-be-0 bit is BAD. -/
theorem iplExec_bad {op : IplOp} {t : Word} {ws : List Word}
    (h : (inputAt ws 0).toNat / 16 ≠ 0 ∨ (inputAt ws 0).toNat % 16 = 0 ∨ 8 < (inputAt ws 0).toNat % 16 ∨ op = .circ ∧ (inputAt ws 0).toNat % 16 < 2) :
    iplExec op t ws = { writes := [(12, 4)], r := 0, r2 := some 4, flags := flagKR } := by
  have hlt := (inputAt ws 0).isLt
  have hlow : fld (inputAt ws 0) 0 4 = (inputAt ws 0).toNat % 16 := by simp [fld]
  have hhigh : fld (inputAt ws 0) 4 28 = (inputAt ws 0).toNat / 16 := by simp [fld, Nat.shiftRight_eq_div_pow]; omega
  simp only [iplExec, hlow, hhigh]
  exact if_pos h

section
variable (op : IplOp) (t : Word) (ws : List Word)

/-- How far a segment would go. -/
def iplReach : Nat := (inputAt ws 1).toNat + fld t 0 16 * (inputAt ws 2).toNat

/-- Has the segment come to its end? -/
def iplEnds : Bool := bit (inputAt ws 3) 0 || decide (2 ^ 32 ≤ iplReach t ws)

/-- Where the segment stands. -/
def iplPlace : Int := if iplEnds t ws then 2 ^ 32 else iplReach t ws

/-- Does a setpoint of n axes clamp? -/
def iplClamps (n : Nat) : Bool := (List.range n).any fun i => (iplAxis op ws (iplPlace t ws) i).2

/-- The STAT word of n axes. -/
def iplStat (n : Nat) : Word := boolWord (iplEnds t ws) ||| if iplClamps op t ws n then 2 else 0

/-- The U word. -/
def iplNext : Word := if bit (inputAt ws 3) 0 then inputAt ws 1 else if 2 ^ 32 ≤ iplReach t ws then 0 else word (iplReach t ws)

/-- A setpoint word. -/
def iplOut (i : Nat) : Word := wrap32 (iplAxis op ws (iplPlace t ws) i).1

/-- What a block of n axes leaves. -/
def iplResult (n : Nat) : SharedResult where
  writes := (4, iplNext t ws) :: (12, iplStat op t ws n) :: (List.range n).map fun i => (0x90 + 4 * i, iplOut op t ws i)
  r := iplOut op t ws 0
  r2 := some (iplStat op t ws n)
  flags := flagIf (iplClamps op t ws n) flagSAT

/-- A block of 1 to 8 axes gives its setpoints, U and STAT. -/
theorem iplExec_valid {n : Nat} (hop : op ≠ .circ) (hn : (inputAt ws 0).toNat = n) (hpos : 1 ≤ n) (hmax : n ≤ 8) :
    iplExec op t ws = iplResult op t ws n := by
  have hlow : fld (inputAt ws 0) 0 4 = n := by simp [fld, hn]; omega
  have hhigh : fld (inputAt ws 0) 4 28 = 0 := by simp [fld, hn, Nat.shiftRight_eq_div_pow]; omega
  have hzip : ∀ f : Nat → Int × Bool, ((List.range n).zip ((List.range n).map f)).map (fun x => (0x90 + 4 * x.1, wrap32 x.2.1)) =
      (List.range n).map fun i => (0x90 + 4 * i, wrap32 (f i).1) := fun f => by
    rw [← List.map_prod_left_eq_zip, List.map_map]
    rfl
  have hhead : ∀ f : Nat → Int × Bool, ((List.range n).map f).getD 0 (0, false) = f 0 := fun f => by
    obtain ⟨k, rfl⟩ : ∃ k, n = k + 1 := ⟨n - 1, by omega⟩
    simp [List.range_succ_eq_map]
  have hok : ¬ (fld (inputAt ws 0) 4 28 ≠ 0 ∨ n = 0 ∨ n > 8 ∨ op = .circ ∧ n < 2) := by simp [hhigh, hop]; omega
  simp only [iplExec, hlow, if_neg hok, hzip, hhead, List.any_map]
  rfl

/-- The word of axis i in a group of words, by its offset. -/
theorem inputAt_axis (b i : Nat) : inputAt ws ((4 * b + 4 * i) / 4) = inputAt ws (b + i) := by
  rw [← Nat.mul_add, Nat.mul_div_cancel_left _ four_pos]

/-- The setpoint of an axis of lin, and whether it clamps. -/
theorem iplAxis_lin (e : Int) (i : Nat) :
    let raw := (inputAt ws ((16 + 4 * i) / 4)).toInt + ((inputAt ws ((48 + 4 * i) / 4)).toInt * e + 2 ^ 31) / 2 ^ 32
    (iplAxis .lin ws e i).1 = clamp32 raw ∧ ((iplAxis .lin ws e i).2 = true ↔ raw < -2 ^ 31 ∨ 2 ^ 31 - 1 < raw) := by
  rw [show inputAt ws ((16 + 4 * i) / 4) = _ from inputAt_axis ws 4 i, show inputAt ws ((48 + 4 * i) / 4) = _ from inputAt_axis ws 12 i]
  exact ⟨satClamp_fst _, not_fits32_iff _⟩

/-- The setpoint of an axis of spl, and whether one of its three sums clamps. -/
theorem iplAxis_spl (e : Int) (i : Nat) :
    let out := fun (y : Int) => y < -2 ^ 31 ∨ 2 ^ 31 - 1 < y
    let h2 := (inputAt ws ((80 + 4 * i) / 4)).toInt + ((inputAt ws ((112 + 4 * i) / 4)).toInt * e + 2 ^ 31) / 2 ^ 32
    let h1 := (inputAt ws ((48 + 4 * i) / 4)).toInt + (clamp32 h2 * e + 2 ^ 31) / 2 ^ 32
    let raw := (inputAt ws ((16 + 4 * i) / 4)).toInt + (clamp32 h1 * e + 2 ^ 31) / 2 ^ 32
    (iplAxis .spl ws e i).1 = clamp32 raw ∧ ((iplAxis .spl ws e i).2 = true ↔ out raw ∨ out h1 ∨ out h2) := by
  rw [show inputAt ws ((16 + 4 * i) / 4) = _ from inputAt_axis ws 4 i, show inputAt ws ((48 + 4 * i) / 4) = _ from inputAt_axis ws 12 i,
    show inputAt ws ((80 + 4 * i) / 4) = _ from inputAt_axis ws 20 i, show inputAt ws ((112 + 4 * i) / 4) = _ from inputAt_axis ws 28 i]
  intro out h2 h1 raw
  have h2' : satClamp ((inputAt ws (20 + i)).toInt + rsh ((inputAt ws (28 + i)).toInt * e) 32) = (clamp32 h2, !fits32 h2) :=
    Prod.ext (satClamp_fst _) rfl
  have h1' : satClamp ((inputAt ws (12 + i)).toInt + rsh (clamp32 h2 * e) 32) = (clamp32 h1, !fits32 h1) := Prod.ext (satClamp_fst _) rfl
  have h0' : satClamp ((inputAt ws (4 + i)).toInt + rsh (clamp32 h1 * e) 32) = (clamp32 raw, !fits32 raw) := Prod.ext (satClamp_fst _) rfl
  simp only [iplAxis, h2', h1', h0', Bool.or_eq_true, not_fits32_iff, out, true_and]
  tauto

end

section
variable {s : State} {c : Nat} {v : Service} {op : IplOp} (hpaused : s.dev.pausedCluster c = false)
  (hservice : (s.dev.unit3 c .ipl).service = some v) (hop : v.req.op = .ipl op) (hdue : s.dev.servedBy v ≤ s.dev.now) (hdead : v.req.dead = false)
  (hbad : v.bad = false) (hctx : v.req.ctx = (s.dev.eng v.req.engine).ctx) (hcanon : s.dev.canonical = true) (hmarks : s.dev.marks = [])
  (hstored : v.req.stored = [])
include hpaused hservice hop hdue hdead hbad hctx hcanon hmarks hstored

/-- A request of ipl leaves its words in its block, and its results and flags in its engine. -/
theorem iplComplete_served (hapart : v.result.writes.Pairwise (wordsApart v.req.engine v.req.a)) :
    ∃ t, exec (.iplComplete c) s = .next t ∧ ServedState s c .ipl v t ∧
      (t.dev.eng v.req.engine).result .iplR = { value := v.result.r, readable := true } ∧
      (t.dev.eng v.req.engine).result .iplSt = { value := v.result.r2.getD 0, readable := true } ∧
      (t.dev.eng v.req.engine).acst = (s.dev.eng v.req.engine).acst ||| v.result.flags ∧
      (∀ w ∈ v.result.writes, t.dev.loadWord (blockAddr v.req.engine v.req.a w.1) = w.2) ∧
      ∀ k, (∀ w ∈ v.result.writes, k < blockAddr v.req.engine v.req.a w.1 ∨ blockAddr v.req.engine v.req.a w.1 + 4 ≤ k) →
        t.dev.byte k = s.dev.byte k := by
  have hput : v.block = v.req.a := by simp [Service.block, hop]
  have hserved := sharedComplete_served hpaused hservice hdue hdead hbad (.inr ⟨hmarks, hstored⟩)
  obtain ⟨n, heng⟩ := hserved.eng
  obtain ⟨hr, hst, hflags⟩ := Engine.served_ipl hctx n hop
  refine ⟨_, rfl, hserved, heng ▸ hr, heng ▸ hst, heng ▸ hflags, ?_, fun k hk => hserved.byte_other (by rwa [hput])⟩
  rw [← hput] at hapart ⊢
  exact hserved.loadWord hcanon hapart

/-- A BAD block: STAT reads 4 and nothing else is written. -/
theorem iplComplete_bad (h : (inputAt v.inputs 0).toNat / 16 ≠ 0 ∨ (inputAt v.inputs 0).toNat % 16 = 0 ∨ 8 < (inputAt v.inputs 0).toNat % 16 ∨
      op = .circ ∧ (inputAt v.inputs 0).toNat % 16 < 2) :
    ∃ t, exec (.iplComplete c) s = .next t ∧ ServedState s c .ipl v t ∧
      (t.dev.eng v.req.engine).result .iplR = { value := 0, readable := true } ∧
      (t.dev.eng v.req.engine).result .iplSt = { value := 4, readable := true } ∧
      (t.dev.eng v.req.engine).acst = (s.dev.eng v.req.engine).acst ||| flagKR ∧
      t.dev.loadWord (blockAddr v.req.engine v.req.a 12) = 4 ∧
      ∀ k, k < blockAddr v.req.engine v.req.a 12 ∨ blockAddr v.req.engine v.req.a 12 + 4 ≤ k → t.dev.byte k = s.dev.byte k := by
  have hres : v.result = { writes := [(12, 4)], r := 0, r2 := some 4, flags := flagKR } := by
    simp only [Service.result, hop, iplExec_bad h]
  obtain ⟨t, hexec, hserved, hr, hst, hflags, hread, hother⟩ := iplComplete_served hpaused hservice hop hdue hdead hbad hctx hcanon hmarks hstored
    (by rw [hres]; exact List.pairwise_singleton _ _)
  simp only [hres, List.mem_singleton, forall_eq] at hr hst hflags hread hother
  exact ⟨t, hexec, hserved, hr, hst, hflags, hread, hother⟩

/-- A valid block: its setpoints, U and STAT are written. -/
theorem iplComplete_valid {n : Nat} (hcirc : op ≠ .circ) (hn : (inputAt v.inputs 0).toNat = n) (hpos : 1 ≤ n) (hmax : n ≤ 8) :
    let adr := blockAddr v.req.engine v.req.a
    let st := iplStat op v.req.t v.inputs n
    ∃ t, exec (.iplComplete c) s = .next t ∧ ServedState s c .ipl v t ∧
      (t.dev.eng v.req.engine).result .iplR = { value := iplOut op v.req.t v.inputs 0, readable := true } ∧
      (t.dev.eng v.req.engine).result .iplSt = { value := st, readable := true } ∧
      (t.dev.eng v.req.engine).acst = (s.dev.eng v.req.engine).acst ||| flagIf (iplClamps op v.req.t v.inputs n) flagSAT ∧
      t.dev.loadWord (adr 4) = iplNext v.req.t v.inputs ∧ t.dev.loadWord (adr 12) = st ∧
      (∀ i < n, t.dev.loadWord (adr (0x90 + 4 * i)) = iplOut op v.req.t v.inputs i) ∧
      ∀ a, (∀ j, j = 4 ∨ j = 12 ∨ (∃ i, i < n ∧ j = 0x90 + 4 * i) → a < adr j ∨ adr j + 4 ≤ a) → t.dev.byte a = s.dev.byte a := by
  intro adr st
  have hres : v.result = iplResult op v.req.t v.inputs n := by
    simp only [Service.result, hop, iplExec_valid op v.req.t v.inputs hcirc hn hpos hmax]
  have hrange := wordsApart_range v.req.engine v.req.a (b := 0x90) (n := n) rfl (by omega) (iplOut op v.req.t v.inputs)
  have hhead : ∀ {j : Nat} {w : Word}, j % 4 = 0 → j < 0x90 → ∀ {i}, i < n →
      wordsApart v.req.engine v.req.a (j, w) (0x90 + 4 * i, iplOut op v.req.t v.inputs i) := fun hj hlt i hi =>
    wordsApart_of_ne _ _ hj (by dsimp only; omega) (by dsimp only; omega) (by dsimp only; omega) (by dsimp only; omega)
  have hapart : v.result.writes.Pairwise (wordsApart v.req.engine v.req.a) := by
    rw [hres]
    simp only [iplResult, List.pairwise_cons, List.forall_mem_cons, List.forall_mem_map, List.mem_range]
    exact ⟨⟨wordsApart_of_ne _ _ (by norm_num) (by norm_num) (by norm_num) (by norm_num) (by norm_num), fun i hi => hhead (by norm_num) (by norm_num) hi⟩,
      fun i hi => hhead (by norm_num) (by norm_num) hi, hrange⟩
  obtain ⟨t, hexec, hserved, hr, hst, hflags, hread, hother⟩ := iplComplete_served hpaused hservice hop hdue hdead hbad hctx hcanon hmarks hstored
    hapart
  simp only [hres, iplResult, List.forall_mem_cons, List.forall_mem_map, List.mem_range] at hr hst hflags hread hother
  obtain ⟨hnext, hstat, houts⟩ := hread
  exact ⟨t, hexec, hserved, hr, hst, hflags, hnext, hstat, houts, fun a ha =>
    hother a ⟨ha 4 (.inl rfl), ha 12 (.inr (.inl rfl)), fun i hi => ha _ (.inr (.inr ⟨i, hi, rfl⟩))⟩⟩

end

/-- The bits of STAT: the end, and whether a setpoint clamps. -/
theorem iplStat_bits (op : IplOp) (t : Word) (ws : List Word) (n : Nat) :
    bit (iplStat op t ws n) 0 = iplEnds t ws ∧ bit (iplStat op t ws n) 1 = iplClamps op t ws n ∧ (iplStat op t ws n).toNat < 4 := by
  unfold iplStat
  cases iplEnds t ws <;> cases iplClamps op t ws n <;> decide

/-- The word of a clamped value. -/
theorem toInt_wrap32_clamp32 (y : Int) : (wrap32 (clamp32 y)).toInt = clamp32 y :=
  BitVec.toInt_ofInt_eq_self (by norm_num) (by unfold clamp32; omega) (by unfold clamp32; omega)

/-- Settles O16: a served request leaves what its operation gives (`sharedComplete_served`), each operation by its own rule. -/
theorem sharedUnitsComplete : Obligations.SharedUnitsComplete := by
  unfold Obligations.SharedUnitsComplete
  refine ⟨?_, ?_, ?_, ?_⟩
  · intro s c v e x hpaused hservice hop hdue hdead hbad hctx
    obtain ⟨t, r, hexec, hserved, hr, hlo, hhi, hr2, hother, hacst, hbyte⟩ := kinComplete_sqrt hpaused hservice hdue hdead hbad hctx hop
    exact ⟨t, r, hexec, hserved.pending, hserved.free, hr, hlo, hhi, hr2, hother, hacst, hbyte, hserved.others⟩
  · intro s c v e x w adr hcanon hmarks hpaused hservice hdue hdead hbad hstored hctx hblock
    refine ⟨?_, ?_⟩
    · intro hop row
      obtain ⟨t, hexec, hserved, hread, hr, hr2, hclamps, hfits, hother⟩ :=
        kinComplete_mv4 hpaused hservice hdue hdead hbad hctx hop hcanon hmarks hstored hblock
      refine ⟨t, hexec, hserved.pending, hserved.free, fun i hi => ?_, ?_, ?_, hclamps, hfits, hother, hserved.others⟩
      · rw [hread i hi]; exact toInt_sat32s (row i)
      · rw [hr, ← hread 0 (by norm_num)]
      · rw [hr2, ← hread 1 (by norm_num)]
    · intro hop sq
      by_cases hsq : sq = 0
      · obtain ⟨t, hexec, hserved, hr, hr2, hacst, hbyte⟩ := kinComplete_norm3_zero hpaused hservice hdue hdead hbad hctx hop hsq
        exact ⟨t, 0, hexec, hserved.pending, hserved.free, hr, hr2, fun _ => ⟨rfl, hacst, hbyte⟩, fun h => absurd hsq h, hserved.others⟩
      · obtain ⟨L, hL⟩ : ∃ L : Nat, sq = L := ⟨sq.toNat, (Int.toNat_of_nonneg (by positivity)).symm⟩
        have hL0 : L ≠ 0 := by rintro rfl; exact hsq hL
        obtain ⟨t, hexec, hserved, hr, hr2, hacst, hread, hother⟩ :=
          kinComplete_norm3 hpaused hservice hdue hdead hbad hctx hop hcanon hmarks hstored hblock hL0 hL
        obtain ⟨hlo, hhi⟩ := norm3_length hL0 hL
        refine ⟨t, _, hexec, hserved.pending, hserved.free, hr, hr2, fun h => absurd h hsq,
          fun _ => ⟨hacst, by rw [hL]; exact hlo, by rw [hL]; exact hhi, fun i hi => ?_, hother⟩, hserved.others⟩
        rw [hread i hi, hL]
        exact norm3_component (Nat.pos_of_ne_zero hL0) (sq_le_of_sum (f := w) hL i hi)
  · intro s c v op e x ctl a hcanon hmarks hpaused hservice hop hdue hdead hbad hstored hctx hctl
    obtain ⟨t, hexec, hserved, hr, hst, hacst, hread, hother⟩ :=
      iplComplete_bad hpaused hservice hop hdue hdead hbad hctx hcanon hmarks hstored hctl
    exact ⟨t, hexec, hserved.pending, hserved.free, hr, hst, hacst, hread, hother⟩
  · intro s c n v op e x input adr w ended clamp out scaled k0 k1 k2 k3 h2 h1 raw clips hcanon hmarks hpaused hcirc hservice hop hdue hdead hbad
      hstored hctx hblock hn hpos hmax
    obtain ⟨t, hexec, hserved, hr, hst, hacst, hnext, hstat, houts, hother⟩ :=
      iplComplete_valid hpaused hservice hop hdue hdead hbad hctx hcanon hmarks hstored hcirc hn hpos hmax
    obtain ⟨hbit0, hbit1, hlt⟩ := iplStat_bits op v.req.t v.inputs n
    have hreach : iplReach v.req.t v.inputs = w := by simp [iplReach, fld, w, input]
    have hends : iplEnds v.req.t v.inputs = true ↔ ended := by
      rw [iplEnds, hreach, Bool.or_eq_true, decide_eq_true_eq]
    have haxis : ∀ i en, (iplAxis op v.inputs en i).1 = clamp32 (raw i en) ∧ ((iplAxis op v.inputs en i).2 = true ↔ clips i en) := fun i en => by
      cases op with
      | circ => exact absurd rfl hcirc
      | lin => exact ⟨(iplAxis_lin v.inputs en i).1, (iplAxis_lin v.inputs en i).2.trans (by simp [clips, raw, out, scaled, k0, k1, input])⟩
      | spl => exact ⟨(iplAxis_spl v.inputs en i).1, (iplAxis_spl v.inputs en i).2.trans (by simp only [clips, true_and]; rfl)⟩
    have hclips : iplClamps op v.req.t v.inputs n = true ↔ ∃ i, i < n ∧ clips i (iplPlace v.req.t v.inputs) := by
      simp only [iplClamps, List.any_eq_true, List.mem_range, (haxis _ _).2]
    refine ⟨t, _, _, iplPlace v.req.t v.inputs, hexec, hserved.pending, hserved.free, fun h => ?_, fun h => ?_, hr, hst, (houts 0 hpos).symm, hstat.symm,
      by rw [hbit0, hends], by rw [hbit1, hclips], hlt, fun i hi => ?_, fun h => ?_, fun h => ?_, ?_, hother, hserved.others⟩
    · rw [iplPlace, if_pos (hends.mpr h)]
    · rw [iplPlace, if_neg (fun hend => h (hends.mp hend)), hreach]
    · rw [houts i hi, iplOut, (haxis i _).1]
      exact toInt_wrap32_clamp32 _
    · rw [hnext, iplNext, hreach]
      exact if_neg (by rw [show bit (inputAt v.inputs 3) 0 = false from h]; decide)
    · rw [hnext, iplNext]
      exact if_pos h
    · rw [hacst, hbit1, flagIf]
      split
      · rfl
      · exact BitVec.or_zero

end Sys2Proof.Machine
end

section
/-! PROOFS: the refutation of BlockMoverCompletesOrStops. A fill of a destination that is not at a check word's boundary and runs from one exchange RAM
into the next notes a write in the next cluster's RAM as one of its own port, and its next block then meets it (R180, R182). -/

namespace Sys2Proof.Machine

/-- A fill of two blocks from 0x28000FFC4: the first ends 4 bytes into the exchange RAM of cluster 1, where the second goes on. -/
def straddlingFill : Request :=
  { engine := 0, op := .bmv .fill, a := 0x11223344, b := 0, t := 0, src := 0, dst := 0x28000FFC4, left := 2, issue := 0, ctx := 0, trig := 80, step := 5
    dead := false, stored := [] }

/-- Its service, whose second block is done in pace period 100. -/
def straddlingService : Service :=
  { req := straddlingFill, start := 84, due := 100, per := 4, inputs := [], bad := false, suspendAt := none, stopAt := 0 }

/-- Partition 0, in Paced, holds clusters 0 and 1 and has nothing else on the way. -/
def straddling : Device :=
  { phase := .running, pace := { pcnt := 100 }, regs := [(.parOwn 0, 0x80000000), (.parCll 0, 3)], parts := [(0, { mode := .paced })]
    engines := [(0, { run := .running })], clusters := [(0, { bmv := { service := some straddlingService } })] }

theorem straddling_blocksReady : straddling.blocksReady 0 straddlingFill 2 := by
  have hserved : ∀ k < 2, straddling.place 0 (0x28000FFC4 + 64 * k) = 0x28000FFC4 + 64 * k ∧ straddling.offline (0x28000FFC4 + 64 * k) = false := by
    decide +kernel
  have hnone : (∀ x ∈ straddling.engines, x.2.lsu = [] ∧ x.2.ch = []) ∧ ∀ x ∈ straddling.clusters, x.1 ≠ 0 → x.2.bmv.service = none := by
    decide +kernel
  exact ⟨rfl, rfl, ⟨hserved, rfl, .inr hnone⟩, .inl rfl⟩

/-- The word that the two blocks share keeps, of the first block, what stood there before. -/
theorem straddling_loses : (straddling.bmvComplete 0 .none).bytes 0x28000FFC4 64 ≠ straddling.blockData straddlingFill 0 := by decide +kernel

/-- What the statement says of the blocks of a transfer that has ended. -/
theorem transfer_moves (h : Obligations.BlockMoverCompletesOrStops) {d : Device} {c : Nat} {v : Service} (hcanon : d.canonical = true)
    (hm : d.marks = []) (hpaused : d.pausedCluster c = false) (hservice : (d.unit3 c .bmv).service = some v) (hown : v.req.engine / 16 = c)
    (hdead : v.req.dead = false) (hgoes : v.suspendAt = none) (hready : d.blocksReady c v.req v.req.left) (hdone : d.blocksDone v v.req.left = true)
    (hctx : v.req.ctx = (d.eng v.req.engine).ctx) {k : Nat} (hk : k < v.req.left) :
    (d.bmvComplete c .none).bytes (v.req.dst + 64 * k) 64 = d.blockData v.req k := by
  obtain ⟨t, hexec, -, -, -, -, -, hblocks, -⟩ :=
    h.1 { dev := d, pending := [] } c v hcanon hm hpaused hservice hown hdead hgoes hready hdone hctx
  rw [exec_of_dev (i := .bmvComplete ⟨c, .none⟩) (s := { dev := d, pending := [] }) (f := fun d => d.bmvComplete c .none) rfl rfl] at hexec
  obtain rfl := Host.Outcome.next.inj hexec
  exact hblocks k hk

/-- Refutes O18: the statement asks a copy's source to be aligned, but not the destination. A destination that lies across the boundary of two exchange
RAMs reaches the second through both ports, so its next block meets the end of the one before and takes it back (R180, R182). -/
theorem not_blockMoverCompletesOrStops : ¬ Obligations.BlockMoverCompletesOrStops := fun h => by
  refine straddling_loses (transfer_moves h (d := straddling) (c := 0) (v := straddlingService) ?_ rfl ?_ ?_ rfl rfl rfl straddling_blocksReady ?_ ?_
    (k := 0) (by decide))
  all_goals decide +kernel

end Sys2Proof.Machine
end

section
/-! SUPPORT and proofs: the decoder of the engines reads back what the encoder writes, from the ports (R81 to R83) by prefixes (R85, R86) and bodies
(R78, R79, R92) to whole instructions; O58. -/

namespace Sys2Proof.Machine

/-! ### Port identifiers (R81 to R83) -/

/-- An element of a list stands at its position. -/
theorem getElem?_indexIn {α : Type} [DecidableEq α] {xs : List α} {x : α} (h : x ∈ xs) : xs[indexIn xs x]? = some x := by
  induction xs with
  | nil => simp at h
  | cons y ys ih =>
    by_cases hy : y = x
    · simp [indexIn, hy]
    · simp [indexIn, hy, ih ((List.mem_cons.mp h).resolve_left (Ne.symm hy))]

/-- An ID from 0x40 on is that of the element at its place. -/
theorem getElem?_ofNat_indexIn {α : Type} [DecidableEq α] {xs : List α} {x : α} (h : x ∈ xs) (hlen : xs.length ≤ 0x81) :
    let b := BitVec.ofNat 8 (0x40 + indexIn xs x)
    0x40 ≤ b.toNat ∧ b.toNat ≤ 0xC0 ∧ xs[b.toNat - 0x40]? = some x := by
  have hat := getElem?_indexIn h
  obtain ⟨hlt, -⟩ := List.getElem?_eq_some_iff.mp hat
  have hid : (BitVec.ofNat 8 (0x40 + indexIn xs x)).toNat = 0x40 + indexIn xs x := by
    rw [BitVec.toNat_ofNat, Nat.mod_eq_of_lt (by omega)]
  refine ⟨by omega, by omega, ?_⟩
  rw [hid, Nat.add_sub_cancel_left, hat]

theorem AluOp.mem_all (op : AluOp) : op ∈ AluOp.all := by cases op <;> decide
theorem ShfOp.mem_all (op : ShfOp) : op ∈ ShfOp.all := by cases op <;> decide
theorem MulOp.mem_all (op : MulOp) : op ∈ MulOp.all := by cases op <;> decide
theorem DivOp.mem_all (op : DivOp) : op ∈ DivOp.all := by cases op <;> decide
theorem FpuOp.mem_all (op : FpuOp) : op ∈ FpuOp.all := by cases op <;> decide
theorem LsuOp.mem_all (op : LsuOp) : op ∈ LsuOp.all := by cases op <;> decide

/-- The triggers of R81 but those of cmp have their IDs below 0xC0. -/
theorem Dst.trig_mem_middle {t : Trig} (ht : ∀ cc k, t ≠ .cmp cc k) : .trig t ∈ Dst.middle := by
  cases t with
  | alu second op => cases second <;> simp [Dst.middle, AluOp.mem_all]
  | shf op => simp [Dst.middle, ShfOp.mem_all]
  | cmp cc k => exact absurd rfl (ht cc k)
  | mul op => simp [Dst.middle, MulOp.mem_all]
  | div op => simp [Dst.middle, DivOp.mem_all]
  | fpu op => simp [Dst.middle, FpuOp.mem_all]
  | lsu op => simp [Dst.middle, LsuOp.mem_all]
  | pt op => cases op <;> simp [Dst.middle]
  | ch op => cases op <;> simp [Dst.middle]
  | ev op => cases op <;> simp [Dst.middle]
  | sys op => cases op <;> simp [Dst.middle]
  | kin op => cases op <;> simp [Dst.middle]
  | ipl op => cases op <;> simp [Dst.middle]
  | bmv op => cases op <;> simp [Dst.middle]
  | cu op => cases op <;> simp [Dst.middle]

theorem Dst.opnd_mem_middle (p : Opnd) : .opnd p ∈ Dst.middle := by cases p <;> simp [Dst.middle]

theorem Dst.g_mem_middle (k : BitVec 3) : .g k ∈ Dst.middle := by
  revert k
  decide

theorem Dst.ofId_middle {x : Dst} (h : x ∈ Dst.middle) : Dst.ofId (BitVec.ofNat 8 (0x40 + indexIn Dst.middle x)) = some x := by
  obtain ⟨hlo, hhi, hat⟩ := getElem?_ofNat_indexIn h (by simp [Dst.middle, AluOp.all, ShfOp.all, MulOp.all, DivOp.all, FpuOp.all, LsuOp.all])
  rw [Dst.ofId, if_neg (by omega), if_pos hhi, hat]

/-- The trigger of a comparison that names g1 to g7 (R82). -/
theorem Dst.ofId_cmp (cc : Cc) (k : BitVec 3) (hk : k ≠ 0) : Dst.ofId (0xC0 + k.setWidth 8 * 8 + cc.bits.setWidth 8) = some (.trig (.cmp cc k)) := by
  revert k
  cases cc <;> decide

/-- The ID of a data register is its number. -/
theorem dataId_fields (i : BitVec 6) : (i.setWidth 8).toNat < 0x40 ∧ (i.setWidth 8).extractLsb' 0 6 = i := by
  have hi := i.isLt
  refine ⟨by simp; omega, ?_⟩
  rw [← BitVec.setWidth_eq_extractLsb' (by decide), BitVec.setWidth_setWidth_of_le _ (by decide), BitVec.setWidth_eq]

/-- A destination that has an ID is that of its ID. -/
theorem Dst.ofId_id {x : Dst} (h : x.wf = true) : Dst.ofId x.id = some x := by
  cases x with
  | d i =>
    obtain ⟨hid, hreg⟩ := dataId_fields i
    rw [Dst.id, Dst.ofId, if_pos hid, hreg]
  | g k => exact Dst.ofId_middle (Dst.g_mem_middle k)
  | bnk => exact Dst.ofId_middle (by simp [Dst.middle])
  | rc => exact Dst.ofId_middle (by simp [Dst.middle])
  | opnd p => exact Dst.ofId_middle (Dst.opnd_mem_middle p)
  | trig t =>
    by_cases ht : ∃ cc k, t = .cmp cc k
    · obtain ⟨cc, k, rfl⟩ := ht
      have hk : k ≠ 0 := by simpa [Dst.wf] using h
      rw [Dst.id, if_neg hk]
      exact Dst.ofId_cmp cc k hk
    · have hid : Dst.id (.trig t) = BitVec.ofNat 8 (0x40 + indexIn Dst.middle (.trig t)) := by
        unfold Dst.id
        split <;> simp_all
      rw [hid]
      exact Dst.ofId_middle (Dst.trig_mem_middle fun cc k hc => ht ⟨cc, k, hc⟩)

theorem Src.ofId_middle {x : Src} (h : x ∈ Src.middle) : Src.ofId (BitVec.ofNat 8 (0x40 + indexIn Src.middle x)) = some x := by
  obtain ⟨hlo, -, hat⟩ := getElem?_ofNat_indexIn h (by decide)
  rw [Src.ofId, if_neg (by omega), hat]

/-- A source is that of its ID. -/
@[simp] theorem Src.ofId_id (x : Src) : Src.ofId x.id = some x := by
  cases x with
  | d i =>
    obtain ⟨hid, hreg⟩ := dataId_fields i
    rw [Src.id, Src.ofId, if_pos hid, hreg]
  | g k => exact Src.ofId_middle (by revert k; decide)
  | bnk => exact Src.ofId_middle (by simp [Src.middle])
  | rc => exact Src.ofId_middle (by simp [Src.middle])
  | imm => exact Src.ofId_middle (by simp [Src.middle])
  | res r => exact Src.ofId_middle (by cases r <;> simp [Src.middle])
  | wait w => exact Src.ofId_middle (by cases w <;> simp [Src.middle])

/-! ### Fields of several bytes (R76, R85) -/

/-- Two bytes, lowest first, make their field. -/
@[simp] theorem append_bytes16 (v : BitVec 16) : (v.extractLsb' 8 8 ++ v.extractLsb' 0 8 : BitVec 16) = v :=
  BitVec.extractLsb'_append_extractLsb'

/-- Four bytes, lowest first, make their word. -/
@[simp] theorem append_bytes32 (v : Word) : (v.extractLsb' 24 8 ++ v.extractLsb' 16 8 ++ v.extractLsb' 8 8 ++ v.extractLsb' 0 8 : Word) = v := by
  rw [BitVec.extractLsb'_append_extractLsb'_eq_extractLsb' (by rfl), BitVec.extractLsb'_append_extractLsb'_eq_extractLsb' (by rfl)]
  exact BitVec.extractLsb'_append_extractLsb'

/-- The three bytes behind E5 make their bank, and the reserved bits are 0. -/
theorem append_far (b : BitVec 20) :
    ((0#4 ++ b.extractLsb' 16 4 : Byte).extractLsb' 0 4 ++ b.extractLsb' 8 8 ++ b.extractLsb' 0 8 : BitVec 20) = b ∧
      (0#4 ++ b.extractLsb' 16 4 : Byte).extractLsb' 4 4 = 0#4 := by
  refine ⟨?_, BitVec.extractLsb'_append_eq_left⟩
  rw [BitVec.extractLsb'_append_eq_right, BitVec.extractLsb'_append_extractLsb'_eq_extractLsb' (by rfl)]
  exact BitVec.extractLsb'_append_extractLsb'

/-- The byte behind E4 holds its negation and its guard, and the reserved bits are 0. -/
theorem guardByte_fields (n : Bool) (k : BitVec 3) :
    let b : Byte := (0#4 ++ BitVec.ofBool n) ++ k
    b.getLsbD 3 = n ∧ b.extractLsb' 0 3 = k ∧ b.extractLsb' 4 4 = 0#4 := by
  revert n k
  decide

/-! ### Prefixes one by one (R85, R86) -/

/-- One of the prefixes of R85. -/
inductive SinglePrefix | rep (r : Rep) | guard (g : Bool × BitVec 3) | priv | far (b : BitVec 20) | imm (i : ImmPre)

/-- Its bytes. -/
@[simp] def SinglePrefix.encode : SinglePrefix → List Byte
  | .rep r => r.encode
  | .guard g => encodeGuard g
  | .priv => [0xE3]
  | .far b => encodeFar b
  | .imm i => i.encode

/-- Its group, in the order of R86. -/
@[simp] def SinglePrefix.group : SinglePrefix → Nat
  | .rep _ => 1 | .guard _ => 2 | .priv => 3 | .far _ => 4 | .imm _ => 5

/-- The prefixes read so far with one more. -/
@[simp] def SinglePrefix.put : SinglePrefix → Prefixes → Prefixes
  | .rep r => fun p => { p with rep := some r }
  | .guard g => fun p => { p with guard := some g }
  | .priv => fun p => { p with priv := true }
  | .far b => fun p => { p with far := some b }
  | .imm i => fun p => { p with imm := some i }

/-- The decoder takes one of the prefixes from its bytes. -/
theorem decodeFrom_prefix {a : PrefixScan} (hused : a.used ≤ 92) {x : SinglePrefix} (hx : x ≠ .rep (.repi 0)) (fuel : Nat) (bs : List Byte) :
    decodeFrom (fuel + 1) a (x.encode ++ bs) = decodeFrom fuel (a.take x.group x.encode.length false x.put) bs := by
  have hshort : ¬ 92 < a.used := by omega
  cases x with
  | rep r =>
    cases r with
    | rep nn => simp [Rep.encode, decodeFrom, hshort]
    | repi n =>
      have hn : (n == 0#16) = false := beq_eq_false_iff_ne.mpr fun h => hx (by rw [h]; rfl)
      simp [Rep.encode, bytes16, decodeFrom, hshort, hn]
    | repiRc => simp [Rep.encode, decodeFrom, hshort]
  | guard g =>
    obtain ⟨hn, hk, hz⟩ := guardByte_fields g.1 g.2
    simp [encodeGuard, decodeFrom, hshort, -BitVec.getLsbD_eq_getElem, hn, hk, hz]
  | priv => simp [decodeFrom, hshort]
  | far b =>
    obtain ⟨hb, hz⟩ := append_far b
    simp [encodeFar, decodeFrom, hshort, hb, hz]
  | imm i =>
    cases i with
    | high u => simp [ImmPre.encode, bytes16, decodeFrom, hshort]
    | full v => simp [ImmPre.encode, bytes32, decodeFrom, hshort]

/-- The prefixes of an instruction in the order of R86. -/
def Prefixes.list (p : Prefixes) : List SinglePrefix :=
  p.rep.toList.map .rep ++ p.guard.toList.map .guard ++ (if p.priv then [.priv] else []) ++ p.far.toList.map .far ++ p.imm.toList.map .imm

section
variable (p : Prefixes)

theorem Prefixes.flatMap_list : p.list.flatMap SinglePrefix.encode = p.encode := by
  obtain ⟨_ | _, _ | _, _ | _, _ | _, _ | _⟩ := p <;> simp [Prefixes.list, Prefixes.encode]

theorem Prefixes.length_list : p.list.length = p.count := by
  obtain ⟨_ | _, _ | _, _ | _, _ | _, _ | _⟩ := p <;> rfl

/-- Taken one by one they give the prefixes. -/
theorem Prefixes.foldl_list : p.list.foldl (fun q x => x.put q) {} = p := by
  obtain ⟨_ | _, _ | _, _ | _, _ | _, _ | _⟩ := p <;> rfl

/-- Their groups rise. -/
theorem Prefixes.groups_list : (0 :: p.list.map SinglePrefix.group).Pairwise (· < ·) := by
  obtain ⟨_ | _, _ | _, _ | _, _ | _, _ | _⟩ := p <;> simp [Prefixes.list]

theorem Prefixes.rep_mem_list (r : Rep) (h : .rep r ∈ p.list) : p.rep = some r := by
  simpa [Prefixes.list] using h

end

/-- One more of at most three prefixes, of a later group, meets no detail (R86, R94). -/
theorem PrefixScan.detail_take {a : PrefixScan} (hdetail : a.detail = 0) (hcount : a.count < 3) {grp : Nat} (hgrp : a.lastGroup < grp) (len : Nat)
    (p : Prefixes → Prefixes) : (a.take grp len false p).detail = 0 := by
  have hthird : ¬ 3 < a.count + 1 := by omega
  simp [PrefixScan.take, worse_eq_zero_iff, hdetail, hthird, hgrp]

/-- The decoder takes the prefixes of rising groups from their bytes. -/
theorem decodeFrom_prefixes {ps : List SinglePrefix} (hwf : ∀ x ∈ ps, x ≠ .rep (.repi 0)) (a : PrefixScan) (fuel : Nat) (bs : List Byte)
    (hgroups : (a.lastGroup :: ps.map SinglePrefix.group).Pairwise (· < ·)) (hcount : a.count + ps.length ≤ 3)
    (hused : a.used + (ps.flatMap SinglePrefix.encode).length ≤ 12) (hdetail : a.detail = 0) :
    ∃ a', decodeFrom (fuel + ps.length) a (ps.flatMap SinglePrefix.encode ++ bs) = decodeFrom fuel a' bs ∧
      a'.pre = ps.foldl (fun q x => x.put q) a.pre ∧ a'.detail = 0 ∧ a'.used = a.used + (ps.flatMap SinglePrefix.encode).length := by
  induction ps generalizing a with
  | nil => exact ⟨a, rfl, rfl, hdetail, rfl⟩
  | cons x xs ih =>
    simp only [List.map_cons, List.length_cons, List.flatMap_cons, List.length_append] at hgroups hcount hused
    obtain ⟨hhead, htail⟩ := List.pairwise_cons.mp hgroups
    have hrise : a.lastGroup < x.group := hhead _ List.mem_cons_self
    have hsound := PrefixScan.detail_take hdetail (by omega) hrise x.encode.length x.put
    obtain ⟨a', heq, hpre, hdet, huse⟩ := ih (fun y hy => hwf y (List.mem_cons_of_mem x hy)) (a.take x.group x.encode.length false x.put) htail
      (by simp only [PrefixScan.take]; omega) (by simp only [PrefixScan.take]; omega) hsound
    refine ⟨a', ?_, hpre, hdet, by rw [huse]; simp [PrefixScan.take, Nat.add_assoc]⟩
    rw [List.flatMap_cons, List.append_assoc, List.length_cons, ← Nat.add_assoc, decodeFrom_prefix (by omega) (hwf x List.mem_cons_self), heq]

/-! ### Bodies (R77 to R80, R92) -/

/-- A byte outside the class of prefixes begins the body (R77). -/
theorem decodeFrom_of_not_prefix {a : PrefixScan} (hused : a.used ≤ 92) {b0 : Byte} (hb : b0.toNat < 0xE0 ∨ 0xF0 ≤ b0.toNat) (fuel : Nat)
    (bs : List Byte) : decodeFrom (fuel + 1) a (b0 :: bs) = decodeBody a b0 bs := by
  unfold decodeFrom
  dsimp only
  rw [if_neg (by omega)]
  split
  case h_9 => exact if_neg (by omega)
  all_goals omega

/-- The decoder reads a body from its bytes. -/
theorem decodeFrom_body {a : PrefixScan} (hused : a.used ≤ 92) {b : Body} (hdst : b.dst.wf = true)
    (hshort : ∀ d s, b = .short d s → d.id.toNat < 0xC0) (fuel : Nat) (bs : List Byte) :
    decodeFrom (fuel + 1) a (b.encode ++ bs) = finishDecode a b.encode.length (some b) := by
  cases b with
  | short d s =>
    have hid := hshort d s rfl
    simp only [Body.encode, List.cons_append, List.nil_append]
    rw [decodeFrom_of_not_prefix hused (by omega), decodeBody, if_pos hid]
    simp [Dst.ofId_id (x := d) hdst]
  | long d s | longI8 d v | longI16 d v | longU16 d v =>
    simp only [Body.encode, List.cons_append, List.nil_append]
    rw [decodeFrom_of_not_prefix hused (by decide)]
    simp [decodeBody, Dst.ofId_id (x := d) hdst, bytes16]
  | nop | bar | ret | sysr | trap n | gate n | sysc n =>
    simp only [Body.encode, List.cons_append, List.nil_append]
    rw [decodeFrom_of_not_prefix hused (by decide)]
    simp [decodeBody, bytes16]

/-! ### Whole instructions -/

/-- A well-formed instruction within its bounds ends its decoding without a detail (R94). -/
theorem finishDecode_of_fits {a : PrefixScan} {i : Move} {len : Nat} (hpre : a.pre = i.pre) (hdetail : a.detail = 0) (hlen : a.used + len ≤ 12)
    (huse : i.useDetail = 0) : finishDecode a len (some i.body) = .ok i (a.used + len) := by
  have hlong : ¬ 12 < a.used + len := by omega
  simp [finishDecode, hpre, hdetail, hlong, huse, worse]

/-- What a well-formed instruction obeys (R77 to R93). -/
theorem Move.wf_iff (i : Move) : i.wf = true ↔ i.body.dst.wf = true ∧ (∀ d s, i.body = .short d s → d.id.toNat < 0xC0) ∧
    i.pre.rep ≠ some (.repi 0) ∧ i.pre.count ≤ 3 ∧ (encodeMove i).length ≤ 12 ∧ i.useDetail = 0 := by
  simp only [Move.wf, Bool.and_eq_true, decide_eq_true_eq, and_assoc]
  cases i.body <;> simp

/-- Settles O58: the prefixes one by one in the order of their groups, then the body, with no detail of R94 met. -/
theorem moveEncodingRoundTrips : Obligations.MoveEncodingRoundTrips := by
  intro i rest h
  obtain ⟨hdst, hshort, hrep, hcount, hlen, huse⟩ := i.wf_iff.mp h
  rw [encodeMove, List.length_append] at hlen
  rw [← i.pre.length_list] at hcount
  have hwf : ∀ x ∈ i.pre.list, x ≠ .rep (.repi 0) := by
    rintro x hx rfl
    exact hrep (i.pre.rep_mem_list _ hx)
  have hfuel : 100 = 99 - i.pre.list.length + 1 + i.pre.list.length := by omega
  obtain ⟨a, heq, hpre, hdetail, hused⟩ := decodeFrom_prefixes hwf {} (99 - i.pre.list.length + 1) (i.body.encode ++ rest) i.pre.groups_list
    (by simpa using hcount) (by rw [i.pre.flatMap_list]; simp; omega) rfl
  rw [i.pre.foldl_list] at hpre
  rw [i.pre.flatMap_list, Nat.zero_add] at hused
  rw [i.pre.flatMap_list] at heq
  rw [decodeMove, encodeMove, List.append_assoc, hfuel, heq, decodeFrom_body (by omega) hdst hshort,
    finishDecode_of_fits hpre hdetail (by omega) huse, hused, List.length_append]

end Sys2Proof.Machine
end

section
/-! SUPPORT and proofs: the next iteration of a repeat in progress (R90, R155); O8. -/

namespace Sys2Proof.Machine

/-- The instruction of a repeat, at its address. -/
def RepRun.slot (r : RepRun) (a : Nat) : Slot := { addr := a, len := r.len, got := .move r.move, bad := false }

theorem RepRun.holds_slot (r : RepRun) (a : Nat) : (r.slot a).Holds r.move := ⟨rfl, rfl⟩

/-- Engine e is in repeat r, may step, waits for nothing, and nothing is taken instead of the next iteration. -/
structure Device.MayIterate (d : Device) (e : Nat) (r : RepRun) : Prop where
  repeats : (d.eng e).rep = some r
  steps : d.mayStep e = true
  settled : (d.eng e).redirect = none
  awake : (d.eng e).wait = none
  faultless : (d.eng e).pendingFaults = []
  unexpired : (d.eng e).waitFault = none
  ready : (d.eng e).readyAt ≤ d.nowStep e
  quiet : d.eventLine e = none

section
variable {d : Device} {e : Nat} {r : RepRun}

/-- The live slot of an iteration, where its guard holds. -/
theorem Device.live_iteration (hguard : (d.eng e).guardHolds r.move = true) {v : Word} (hv : (d.eng e).operand r.move = some v) :
    ((d.stepped e).eng e).live 0 (r.slot (d.eng e).pc.toNat) = some ((r.slot (d.eng e).pc.toNat).alone r.move v) := by
  rw [Device.eng_stepped, Engine.live_of_holds _ (r.holds_slot _)]
  have hguard' : Engine.guardHolds { d.eng e with step := d.nowStep e, period := d.now } r.move = true := hguard
  have hv' : Engine.operand { d.eng e with step := d.nowStep e, period := d.now } r.move = some v := hv
  rw [hguard', hv']
  rfl

variable (h : d.MayIterate e r)
include h

/-- The next iteration is an issue of the repeated instruction alone. -/
theorem Device.MayIterate.repeatIteration : d.repeatIteration e =
    (d.stepped e).issueFormed e (d.nowStep e) (r.slot (d.eng e).pc.toNat) none true r.left r.left r.interruptible := by
  have hbegin : d.beginStep e (d.nowStep e) = d.stepped e := by simp only [Device.beginStep, h.settled, Device.stepped]
  unfold Device.repeatIteration
  simp only [h.repeats, h.steps, Bool.not_true, Bool.false_eq_true, if_false, hbegin, Device.completionFault, Engine.lateCompletion,
    Device.eng_stepped, h.awake, h.faultless, List.find?_nil, not_lt.mpr h.ready]
  rfl

/-- Nothing is taken at the issue point of an engine that may iterate. -/
theorem Device.MayIterate.uninterrupted {d' : Device} (hd' : (d.stepped e).Fetches d' e) (s rep : Nat) (may : Bool) :
    d'.interrupt e s rep may = none := by
  have hquiet : (d.stepped e).eventLine e = none := by
    rw [← h.quiet]
    simp only [Device.eventLine, Device.lineLatched, Device.lineEnabled, d.eng_stepped]
    rfl
  obtain ⟨ls, heng⟩ := hd'.eng
  exact Device.interrupt_of_quiet (by rw [heng, d.eng_stepped]; exact h.faultless) (hd'.eventLine.trans hquiet) s rep may

/-- An iteration that moves into a data register, with a source that can be read, executes: no condition of R97 is met. -/
theorem Device.MayIterate.executes (hcount : r.left ≠ 0) (hguard : (d.eng e).guardHolds r.move = true) {v : Word}
    (hv : (d.eng e).operand r.move = some v) (hwaits : r.move.waits = none) {j : BitVec 6} (hdst : r.move.body.dst = .d j)
    (hsource : ∀ p, r.move.body.operand = .port p → p.absent d.grade = false) :
    ∃ D, (d.stepped e).Fetches D e ∧ d.repeatIteration e =
      D.execute e (d.nowStep e) (r.slot (d.eng e).pc.toNat) none [(r.slot (d.eng e).pc.toNat).alone r.move v] (r.left - 1) := by
  have hholds := r.holds_slot (d.eng e).pc.toNat
  have hlive := Device.live_iteration (r := r) hguard hv
  rw [h.repeatIteration]
  generalize r.slot (d.eng e).pc.toNat = i at hholds hlive ⊢
  have hmove : (i.alone r.move v).move = r.move := rfl
  have hmet := Device.Fetches.meet (d.stepped e) e (d.nowStep e) i.addr (issueLines i none)
  refine ⟨_, hmet.trans (.trans (.countCorrected _ e i) (.prefetch _ e (d.nowStep e) (issueLines i none))), ?_⟩
  have hclear := Live.Reads.liveFlaws_of_register (d := (d.stepped e).meet e (d.nowStep e) i.addr (issueLines i none)) (e := e)
    (ls := [i.alone r.move v]) (l := i.alone r.move v) (v := v) ⟨hwaits, rfl, by rw [hmet.keeps.1]; exact hsource, by rw [hmove, hdst]; rfl⟩
    (by simp [hmove, hdst])
  have hgrant := grantFlaw_of_plain (ls := [i.alone r.move v]) (by simp [hmove, hdst, Dst.plain])
    ((d.stepped e).meet e (d.nowStep e) i.addr (issueLines i none)) e
  have hexpired : ((d.stepped e).eng e).waitFault = none := by rw [d.eng_stepped]; exact h.unexpired
  have hnone : firstFlaw [] = none := rfl
  simp [Device.issueFormed, hcount, hlive, hholds.flaws, hholds.barred, hholds.got, hexpired, hmove, hwaits, hdst, hclear, hgrant, hnone,
    h.uninterrupted hmet]

end

/-- May an event interrupt the repeat of an instruction (R85)? -/
def Prefixes.interruptible (p : Prefixes) : Bool := match p.rep with | some (.rep _) => false | _ => true

/-- A move into a data register that issues alone, with `left` iterations after it, writes the register, and its engine goes on. -/
theorem Device.execute_dataMove (d : Device) (e s : Nat) {i : Slot} {m : Move} (hi : i.Holds m) {j : BitVec 6} (hdst : m.body.dst = .d j) (v : Word)
    (left : Nat) : d.execute e s i none [i.alone m v] left = d.setEng e { d.eng e with
      d := Assoc.put (d.eng e).d j v, resumeRep := 0, readyAt := s + 1, pc := if left = 0 then word (i.addr + i.len) else (d.eng e).pc
      rep := if left = 0 then none else some { move := m, len := i.len, left := left, interruptible := m.pre.interruptible } } := by
  have hmove : (i.alone m v).move = m := rfl
  have hplain : ∀ l ∈ [i.alone m v], l.move.body.dst.plain := by simp [hmove, hdst, Dst.plain]
  have hcu (d : Device) := Device.issueCu_of_other d e s hi (by simp [hdst])
  have hsys (d : Device) (ring : Nat) (sel : Word) := Device.applySys_of_none d e ring sel (ls := [i.alone m v]) (by simp [hmove, hdst])
  have hwrites : applyMoves (d.eng e) [i.alone m v] = { d.eng e with d := Assoc.put (d.eng e).d j v } := by
    simp only [applyMoves, hmove, hdst]
    rfl
  have hrecv : [i.alone m v].any (fun l => decide (l.move.body.dst = .trig (.ch .recv))) = false := by simp [hmove, hdst]
  unfold Device.execute
  simp only [Device.onEng, applyOperands_of_plain hplain, Device.fireAll_of_plain hplain, issueTokens_of_plain hplain, Device.setEng_self,
    Device.setEng_setEng, Option.getD_none, hcu, hsys, hi.got, hwrites, hrecv, Bool.false_eq_true, if_false]
  split <;> rfl

/-- Settles O8: an iteration issues its move alone, which meets nothing and writes its register; what it fetches touches no register. -/
theorem repeatIterationExecutesOnce : Obligations.RepeatIterationExecutesOnce := by
  intro s e n r i v d x hrep hleft hsteps hredirect hwait hfaults hexpired hready hevent hguard hwaits hdst hsource hv
  have h : d.MayIterate e r := ⟨hrep, hsteps, hredirect, hwait, hfaults, hexpired, hready, hevent⟩
  obtain ⟨D, hD, heq⟩ := h.executes (by omega) hguard hv hwaits hdst hsource
  have hexec := D.execute_dataMove e (d.nowStep e) (r.holds_slot x.pc.toNat) hdst v (r.left - 1)
  obtain ⟨ls, heng⟩ := hD.eng
  refine exec_leads (i := .repeatIteration e) rfl (heq.trans hexec) ?_
  have hn : r.left - 1 = n := by omega
  simp only [Device.setEng_self, heng, Device.eng_stepped, hn, true_and]
  refine ⟨rfl, ?_, rfl, rfl, rfl, rfl, rfl, fun k hk => ?_, fun k => hD.byte k⟩
  · split <;> rfl
  · exact (Device.setEng_other D e k _ hk).trans ((hD.others k hk).trans (Device.setEng_other d e k _ hk))

end Sys2Proof.Machine
end

section
/-! SUPPORT and proofs: what alu, shf and mul leave when their triggers complete (R105, R114, R115, R118); O3, O4 and O5. -/

namespace Sys2Proof.Machine

/-! ### The completion of a short operation that is alone under way (R55, R105) -/

/-- The engine once the only short operation under way has completed at its step: its results stand in their ports and its flags are set. -/
def Engine.completed (x : Engine) (due : Nat) (ws : List (ResPort × Word)) (f : BitVec 9) : Engine := { x with
  res := putResults x.res ws, acst := x.acst ||| f, flagsAt := due, flagsNew := if x.flagsAt = due then x.flagsNew ||| f else f }

/-- SHORT_OP_COMPLETE of the one operation that engine e, otherwise as it stood but for ACC, has been given. -/
theorem exec_shortOpComplete_of_push {s : State} {e due : Nat} {ws : List (ResPort × Word)} {f : BitVec 9} (acc : BitVec 64)
    (hshort : (s.dev.eng e).short = []) (hdue : due ≤ s.dev.nowStep e) :
    ∃ t, exec (.shortOpComplete e) { s with dev := s.dev.setEng e { (s.dev.eng e).pushShort due ws f with acc := acc } } = .next t ∧
      OnlyEngine s t e ∧ t.dev.eng e = { (s.dev.eng e).completed due ws f with acc := acc } := by
  have hpush : ((s.dev.eng e).pushShort due ws f).short = [{ due := due, writes := ws, flags := f, ctx := (s.dev.eng e).ctx, drains := true }] := by
    simp [Engine.pushShort, hshort]
  obtain ⟨t, ht, honly, heng⟩ := exec_shortOpComplete_of_single (s := s) (e := e) (y := { (s.dev.eng e).pushShort due ws f with acc := acc })
    hpush rfl rfl hdue
  refine ⟨t, ht, honly, heng.trans ?_⟩
  simp [Engine.afterShort, Engine.commit, Engine.setFlags, Engine.pushShort, Engine.completed, ← hshort]

/-- The same where ACC stays. -/
theorem exec_shortOpComplete_of_plain_push {s : State} {e due : Nat} {ws : List (ResPort × Word)} {f : BitVec 9}
    (hshort : (s.dev.eng e).short = []) (hdue : due ≤ s.dev.nowStep e) :
    ∃ t, exec (.shortOpComplete e) { s with dev := s.dev.setEng e ((s.dev.eng e).pushShort due ws f) } = .next t ∧
      OnlyEngine s t e ∧ t.dev.eng e = (s.dev.eng e).completed due ws f :=
  exec_shortOpComplete_of_push (s.dev.eng e).acc hshort hdue

/-! ### alu (R114) -/

/-- The flag of an overflow. -/
theorem flagIf_not_fits32 (v : Int) (f : BitVec 9) : (v < -2 ^ 31 ∨ 2 ^ 31 - 1 < v → flagIf (!fits32 v) f = f) ∧
    (¬ (v < -2 ^ 31 ∨ 2 ^ 31 - 1 < v) → flagIf (!fits32 v) f = 0) :=
  ⟨fun h => if_pos ((not_fits32_iff v).mpr h), fun h => if_neg (mt (not_fits32_iff v).mp h)⟩

/-- The flag of the smallest number, which has no negative. -/
theorem flagIf_smallest (t : Word) (f : BitVec 9) : (t = 0x80000000 → flagIf (decide (t = 0x80000000)) f = f) ∧
    (t ≠ 0x80000000 → flagIf (decide (t = 0x80000000)) f = 0) :=
  ⟨fun h => if_pos (decide_eq_true h), fun h => if_neg (by simpa using h)⟩

/-- Settles O3: `aluExec` gives the table of R114, and its completion leaves it in the unit's port. -/
theorem aluResultAndFlags : Obligations.AluResultAndFlags := by
  intro s e k issue m second op datum x a sa st out hshort hdue
  obtain ⟨t, ht, honly, heng⟩ := exec_shortOpComplete_of_plain_push (ws := [(if second then .alu1R else .alu0R, (aluExec op a datum).1)])
    (f := (aluExec op a datum).2) hshort hdue
  refine ⟨t, ht, honly, (aluExec op a datum).1, (aluExec op a datum).2, heng, ?_⟩
  cases op with
  | add => exact ⟨rfl, flagIf_not_fits32 _ _⟩
  | sub => exact ⟨rfl, flagIf_not_fits32 _ _⟩
  | rsub => exact ⟨rfl, flagIf_not_fits32 _ _⟩
  | adds => exact ⟨toInt_sat32s _, flagIf_not_fits32 _ _⟩
  | subs => exact ⟨toInt_sat32s _, flagIf_not_fits32 _ _⟩
  | neg => exact ⟨rfl, flagIf_smallest _ _⟩
  | abs =>
    refine ⟨congrArg (BitVec.ofInt 32) ?_, flagIf_smallest _ _⟩
    split
    next hneg => exact (abs_of_neg hneg).symm
    next hpos => exact (abs_of_nonneg (not_lt.mp hpos)).symm
  | and | or | xor | andn | min | max | minu | maxu => exact ⟨rfl, rfl⟩

/-! ### shf (R115) -/

/-- A shift to the left multiplies. -/
theorem shiftLeft_eq_ofNat (a : Word) (j : Nat) : a <<< j = BitVec.ofNat 32 (a.toNat * 2 ^ j) :=
  BitVec.eq_of_toNat_eq (by rw [BitVec.toNat_shiftLeft, BitVec.toNat_ofNat, Nat.shiftLeft_eq])

/-- A shift to the right divides. -/
theorem ushiftRight_eq_ofNat (a : Word) (j : Nat) : a >>> j = BitVec.ofNat 32 (a.toNat / 2 ^ j) := by
  have hlt : a.toNat / 2 ^ j < 2 ^ 32 := (Nat.div_le_self _ _).trans_lt a.isLt
  exact BitVec.eq_of_toNat_eq (by rw [BitVec.toNat_ushiftRight, Nat.shiftRight_eq_div_pow, BitVec.toNat_ofNat, Nat.mod_eq_of_lt hlt])

/-- An arithmetic shift to the right divides the signed value. -/
theorem sshiftRight_eq_ofInt (a : Word) (j : Nat) : a.sshiftRight j = BitVec.ofInt 32 (a.toInt / 2 ^ j) := by
  rw [BitVec.sshiftRight, Int.shiftRight_eq_div_pow]; rfl

/-- Settles O4: each shift of `shfExec` is the product or the quotient of R115, and its completion sets no flag. -/
theorem shiftResult : Obligations.ShiftResult := by
  intro s e k issue m op datum x a c n hshort hdue
  obtain ⟨t, ht, honly, heng⟩ := exec_shortOpComplete_of_plain_push (ws := [(.shfR, shfExec op a datum)]) (f := 0) hshort hdue
  have hresult : (t.dev.eng e).result .shfR = { value := shfExec op a datum, readable := true } := by
    rw [heng]; exact Assoc.get_put_self ..
  refine ⟨t, ht, honly, ?_, ?_, fun p hp => ?_, hresult.trans (congrArg (Result.mk · true) ?_)⟩
  · rw [heng]; exact BitVec.or_zero
  · rw [heng]; exact hshort
  · rw [heng]; exact Assoc.get_put_of_ne _ _ _ _ _ hp
  · cases op with
    | shl => simp only [shfExec, shiftLeft_eq_ofNat, c]
    | shr => simp only [shfExec, ushiftRight_eq_ofNat, c]
    | sar => simp only [shfExec, BitVec.msb_eq_getLsbD_last, sshiftRight_eq_ofInt, c]
    | rol => simp only [shfExec, BitVec.rotateLeft_def, shiftLeft_eq_ofNat, ushiftRight_eq_ofNat, Nat.mod_mod, n, c]
    | ror => simp only [shfExec, BitVec.rotateRight_def, shiftLeft_eq_ofNat, ushiftRight_eq_ofNat, Nat.mod_mod, n, c]

/-! ### mul (R118) -/

/-- The product of two signed words leaves 64 bits much room. -/
theorem mul_toInt_bounds (a t : Word) : -2 ^ 62 ≤ a.toInt * t.toInt ∧ a.toInt * t.toInt ≤ 2 ^ 62 := by
  have ha := sq_toInt_le a
  have ht := sq_toInt_le t
  constructor <;> nlinarith [sq_nonneg (a.toInt - t.toInt), sq_nonneg (a.toInt + t.toInt)]

/-- The two words of a 64-bit value stand for it. -/
theorem highWord_append_wrap32 (p : Int) : highWord p ++ wrap32 p = BitVec.ofInt 64 p := by
  have hlow : wrap32 p = (BitVec.ofInt 64 p).extractLsb' 0 32 := by
    apply BitVec.eq_of_toNat_eq
    simp [wrap32, BitVec.toNat_ofInt]
    omega
  rw [hlow, highWord]
  exact (BitVec.extractLsb'_append_extractLsb'_eq_extractLsb' (w := 64) rfl).trans BitVec.extractLsb'_eq_self

/-- A value of 64 bits and its word. -/
theorem toInt_ofInt64 {p : Int} (hlo : -2 ^ 63 ≤ p) (hhi : p < 2 ^ 63) : (BitVec.ofInt 64 p).toInt = p :=
  BitVec.toInt_ofInt_eq_self (by norm_num) hlo hhi

/-- A value clamped to 64 bits, and its word. -/
theorem clamp64_eq (v : Int) : clamp64 v = max (-2 ^ 63) (min (2 ^ 63 - 1) v) := by
  unfold clamp64
  split_ifs <;> omega

theorem toInt_ofInt_clamp64 (v : Int) : (BitVec.ofInt 64 (clamp64 v)).toInt = clamp64 v :=
  toInt_ofInt64 (by rw [clamp64_eq]; omega) (by rw [clamp64_eq]; omega)

/-- The flag of a Q31 reading. -/
theorem q31_fits_iff (p : Int) : (q31 p).2 = false ↔ clamp32 ((p + 2 ^ 30) / 2 ^ 31) = (p + 2 ^ 30) / 2 ^ 31 := by
  have h : (q31 p).2 = true ↔ (p + 2 ^ 30) / 2 ^ 31 < -2 ^ 31 ∨ 2 ^ 31 - 1 < (p + 2 ^ 30) / 2 ^ 31 := not_fits32_iff _
  rw [← Bool.not_eq_true, h, clamp32]
  omega

/-- A flag set or not. -/
theorem or_flagIf (acst f : BitVec 9) (b : Bool) : acst ||| flagIf b f = if b = false then acst else acst ||| f := by
  cases b with
  | false => exact BitVec.or_zero
  | true => rfl

/-- A mul trigger and its completion: ACC, both words and the flags of `mulExec`. -/
theorem mul_completes {s : State} {e k : Nat} (issue : Nat) (m : Move) (op : MulOp) (t : Word)
    (hshort : (s.dev.eng e).short = []) (hdue : k + 3 ≤ s.dev.nowStep e) :
    let x := s.dev.eng e
    let r := mulExec op x.acc (x.opndVal .mulA) t
    ∃ u, exec (.shortOpComplete e) (s.onDev (fun d => d.fire e k issue m (.mul op) t)) = .next u ∧ OnlyEngine s u e ∧
      (u.dev.eng e).short = [] ∧ (∀ p, p ≠ .mulRl → p ≠ .mulRh → (u.dev.eng e).result p = x.result p) ∧
      (u.dev.eng e).result .mulRl = { value := r.1, readable := true } ∧ (u.dev.eng e).result .mulRh = { value := r.2.1, readable := true } ∧
      (u.dev.eng e).acc = r.2.2.1 ∧ (u.dev.eng e).acst = x.acst ||| r.2.2.2 := by
  intro x r
  obtain ⟨u, hu, honly, heng⟩ := exec_shortOpComplete_of_push (ws := [(.mulRl, r.1), (.mulRh, r.2.1)]) (f := r.2.2.2) r.2.2.1 hshort hdue
  refine ⟨u, hu, honly, ?_, fun p hl hh => ?_, ?_, ?_, ?_, ?_⟩ <;> rw [heng]
  · exact hshort
  · simp [Engine.completed, Engine.result, putResults, Assoc.get_put, hl, hh, x]
  · simp [Engine.completed, Engine.result, putResults, Assoc.get_put]
  · simp [Engine.completed, Engine.result, putResults]
  · rfl

/-- SAT of macq: where the sum or its Q31 reading clamps. -/
theorem macq_fits_iff (v : Int) : (decide (v ≠ clamp64 v) || (q31 (clamp64 v)).2) = false ↔
    clamp64 v = v ∧ clamp32 ((v + 2 ^ 30) / 2 ^ 31) = (v + 2 ^ 30) / 2 ^ 31 := by
  rw [Bool.or_eq_false_iff, decide_eq_false_iff_not, not_not, eq_comm (a := v)]
  exact and_congr_right fun h => by rw [h, q31_fits_iff]

/-- Settles O5: the words and ACC of `mulExec` are those of R118, since no product of two words leaves 64 bits. -/
theorem mulResultsAndAccumulator : Obligations.MulResultsAndAccumulator := by
  intro s e k issue m op datum x a round c32 c64 hshort hdue
  obtain ⟨u, hu, honly, hnone, hothers, hl, hh, hacc, hacst⟩ := mul_completes issue m op datum hshort hdue
  obtain ⟨hlo, hhi⟩ : -2 ^ 62 ≤ a.toInt * datum.toInt ∧ a.toInt * datum.toInt ≤ 2 ^ 62 := mul_toInt_bounds a datum
  refine ⟨u, hu, honly, hnone, hothers, _, _, hl, hh, ?_⟩
  cases op with
  | mul =>
    refine ⟨?_, hacc, hacst.trans BitVec.or_zero⟩
    have hwords := congrArg BitVec.toInt (highWord_append_wrap32 (a.toInt * datum.toInt))
    exact hwords.trans (toInt_ofInt64 (by omega) (by omega))
  | mulu =>
    refine ⟨?_, hacc, hacst.trans BitVec.or_zero⟩
    have hlt : a.toNat * datum.toNat < 2 ^ 32 * 2 ^ 32 := Nat.mul_lt_mul'' a.isLt datum.isLt
    have hwords := congrArg BitVec.toNat (highWord_append_wrap32 (a.toNat * datum.toNat : Nat))
    refine hwords.trans ?_
    rw [BitVec.ofInt_natCast, BitVec.toNat_ofNat]
    exact Nat.mod_eq_of_lt (by rwa [pow_add])
  | mulq =>
    refine ⟨toInt_sat32s _, rfl, hacc, ?_⟩
    rw [hacst]
    exact (or_flagIf _ _ _).trans (if_congr (q31_fits_iff _) rfl rfl)
  | macq =>
    have hc64 : ∀ v, c64 v = clamp64 v := fun v => (clamp64_eq v).symm
    simp only [hc64]
    rw [hacc, hacst]
    refine ⟨toInt_ofInt_clamp64 _, toInt_sat32s _, rfl, ?_⟩
    exact (or_flagIf _ _ _).trans (if_congr (macq_fits_iff _) rfl rfl)
  | ldacc =>
    have hdlo := datum.le_toInt
    have hdhi := datum.toInt_lt
    rw [hacc, hacst]
    exact ⟨toInt_ofInt64 (by omega) (by omega), rfl, rfl, BitVec.or_zero⟩

end Sys2Proof.Machine
end

section
/-! Proofs: the delivery of code lines, the end of a barrier, and the retirement of long fpu operations (R109, R138, R151, R154); O9. -/

namespace Sys2Proof.Machine

/-! ### Code lines (R138) -/

/-- The line once the line at an address has been asked to be delivered by a step: delivered where it is that line and its steps have passed. -/
def CodeLine.deliveredBy (s a : Nat) (k : CodeLine) : CodeLine :=
  if k.addr = a ∧ k.req + (if inFlash (word a) then 24 else 3) ≤ s then { k with delivered := true } else k

/-- A delivery changes no line but in whether it is delivered. -/
theorem CodeLine.deliveredBy_fields (s a : Nat) (k : CodeLine) :
    (fun j : CodeLine => (j.addr, j.bytes, j.bad, j.cor, j.req, j.used)) (k.deliveredBy s a) = (k.addr, k.bytes, k.bad, k.cor, k.req, k.used) := by
  by_cases h : k.addr = a ∧ k.req + (if inFlash (word a) then 24 else 3) ≤ s
  · rw [show k.deliveredBy s a = { k with delivered := true } from if_pos h]
  · rw [show k.deliveredBy s a = k from if_neg h]

/-- LINE_DELIVERY of a line whose fetch waits for no grant. -/
theorem Device.lineDelivery_of_granted {d : Device} {e a : Nat} (h : d.lineWaits e a = false) :
    d.lineDelivery e a = d.setEng e { d.eng e with lines := (d.eng e).lines.map (CodeLine.deliveredBy (d.nowStep e) a) } := by
  unfold Device.lineDelivery
  rw [h]
  rfl

/-! ### Long operations (R109, R151) -/

/-- The retirement of a long operation of the running context that writes one port and leaves no fault. -/
theorem Engine.retireLong_of_single {x : Engine} {o : LongOp} {p : ResPort} {v : Word} (hwrites : o.writes = [(p, v)]) (hctx : o.ctx = x.ctx)
    (hfault : o.dzFault = false) :
    let y := x.retireLong o
    y.res = Assoc.put x.res p { value := v, readable := true } ∧ y.acst = x.acst ||| o.flags ∧ y.lastRetire = max x.lastRetire o.due ∧
      y.pendingFaults = x.pendingFaults ∧ y.pc = x.pc ∧ y.d = x.d := by
  simp [Engine.retireLong, hwrites, hctx, hfault, Engine.commit, Engine.setFlags, putResults]

/-- FPU_LONG_RETIRE on a block whose engine e has a long fpu operation, which is due. -/
theorem Device.fpuLongRetire_of_due {d : Device} {e : Nat} {o : LongOp} (h : (d.eng e).fpuLong = some o) (hdue : o.due ≤ d.nowStep e) :
    d.fpuLongRetire e = d.setEng e { (d.eng e).retireLong o with fpuLong := none } := by
  simp [Device.fpuLongRetire, Device.onEng, h, hdue]

/-- Settles O9: a delivery marks the one line, a release clears the barrier, and a retirement writes the one port. -/
theorem linesBarriersAndLongOpsEnd : Obligations.LinesBarriersAndLongOpsEnd := by
  refine ⟨fun s e k hk hdue hgrant => ?_, fun s e => ?_, fun s e o v => ?_⟩
  · refine exec_leads (i := .lineDelivery e k.addr) rfl (Device.lineDelivery_of_granted hgrant) ⟨OnlyEngine.setEng s e _, ?_⟩
    simp only [Device.setEng_self, and_true, List.map_map]
    refine ⟨List.mem_map.mpr ⟨k, hk, if_pos ⟨rfl, hdue⟩⟩, List.map_congr_left fun j _ => j.deliveredBy_fields _ _, fun j hj hne => ?_⟩
    exact List.mem_map.mpr ⟨j, hj, if_neg fun h => hne h.1⟩
  · intro x hbar hlong hresults
    have hrelease : s.dev.barrierRelease e = s.dev.setEng e { x with bar := false, readyAt := max x.readyAt (x.lastRetire + 1) } :=
      if_pos (by rw [show (s.dev.eng e).bar = true from hbar, hlong, hresults]; rfl)
    refine exec_leads (i := .barrierRelease e) rfl hrelease ⟨OnlyEngine.setEng s e _, ?_⟩
    simp only [Device.setEng_self, true_and]
    exact ⟨le_max_right _ _, le_max_left _ _, max_choice _ _, by rw [← hbar]⟩
  · intro x hop hwrites hdue hctx hfault
    refine exec_leads (i := .fpuLongRetire e) rfl (Device.fpuLongRetire_of_due hop hdue) ⟨OnlyEngine.setEng s e _, ?_⟩
    obtain ⟨hres, hkept⟩ := Engine.retireLong_of_single (x := s.dev.eng e) hwrites hctx hfault
    simp only [Device.setEng_self, true_and, Engine.result, hres]
    exact ⟨Assoc.get_put_self .., fun p hp => Assoc.get_put_of_ne _ _ _ _ _ hp, hkept⟩

end Sys2Proof.Machine
end

section
/-! SUPPORT: the error of a sum of `series`, and the sine and the cosine as sums of 22 terms (R129; log entry 11). -/

namespace Sys2Proof.Machine

/-! ### Rounded quotients -/

/-- A quotient rounded down lies within 1 of the exact one. -/
theorem abs_ediv_sub_le (p : ℤ) {m : ℤ} (hm : 0 < m) : |((p / m : ℤ) : ℝ) - p / m| ≤ 1 := by
  have hm' : (0 : ℝ) < m := by exact_mod_cast hm
  have hlo : ((p / m : ℤ) : ℝ) ≤ p / m := by
    rw [le_div_iff₀ hm']; exact_mod_cast Int.ediv_mul_le p hm.ne'
  have hhi : (p : ℝ) / m < (p / m : ℤ) + 1 := by
    rw [div_lt_iff₀ hm']; exact_mod_cast Int.lt_ediv_add_one_mul_self p hm
  exact abs_le.mpr ⟨by linarith, by linarith⟩

/-- The same for a quotient by 2^k. -/
theorem abs_ediv_two_pow_sub_le (p : ℤ) (k : ℕ) : |((p / 2 ^ k : ℤ) : ℝ) - p / 2 ^ k| ≤ 1 := by
  have h := abs_ediv_sub_le p (m := 2 ^ k) (by positivity)
  rwa [Int.cast_pow, Int.cast_ofNat] at h

/-! ### The sum of a series -/

/-- A product that stands for a square: the factor's error grows at most tenfold, and the square's adds the factor at most once. -/
theorem product_error {t a e A q r : ℝ} (hr : 0 ≤ r) (hr' : r ≤ 99 / 10) (hqr : |q - r| ≤ 1 / 2 ^ 128) (ha : |a| ≤ A)
    (ht : |t - 2 ^ 128 * a| ≤ e) : |t * q - 2 ^ 128 * (a * r)| ≤ 10 * e + A := by
  obtain ⟨hlo, hhi⟩ := abs_le.mp hqr
  have hq' : |q| ≤ 10 := abs_le.mpr ⟨by linarith, by linarith⟩
  have hscaled : |2 ^ 128 * (q - r)| ≤ 1 := abs_le.mpr ⟨by linarith, by linarith⟩
  have hsplit : t * q - 2 ^ 128 * (a * r) = (t - 2 ^ 128 * a) * q + a * (2 ^ 128 * (q - r)) := by ring
  have hfactor : |(t - 2 ^ 128 * a) * q| ≤ e * 10 := by
    rw [abs_mul]; exact mul_le_mul ht hq' (abs_nonneg _) ((abs_nonneg _).trans ht)
  have hsquare : |a * (2 ^ 128 * (q - r))| ≤ A * 1 := by
    rw [abs_mul]; exact mul_le_mul ha hscaled (abs_nonneg _) ((abs_nonneg _).trans ha)
  rw [hsplit]
  linarith [abs_add_le ((t - 2 ^ 128 * a) * q) (a * (2 ^ 128 * (q - r)))]

/-- One term of `series` from the one before. -/
theorem series_term_error {X a e A : ℝ} {t x2 : ℤ} {k : ℕ} (hX : X ^ 2 ≤ 99 / 10) (hx2 : |(x2 : ℝ) / 2 ^ 128 - X ^ 2| ≤ 1 / 2 ^ 128)
    (ha : |a| ≤ A) (ht : |(t : ℝ) - 2 ^ 128 * a| ≤ e) :
    |((-(t * x2 / 2 ^ 128) / ((k + 1) * (k + 2) : Nat) : ℤ) : ℝ) - 2 ^ 128 * (-(a * X ^ 2) / ((k + 1) * (k + 2)))| ≤ 5 * e + A / 2 + 2 := by
  have hm : (2 : ℝ) ≤ (k + 1) * (k + 2) := by norm_cast; nlinarith
  have hprod := abs_ediv_two_pow_sub_le (t * x2) 128
  have hquot := abs_ediv_sub_le (-(t * x2 / 2 ^ 128)) (m := ((k + 1) * (k + 2) : Nat)) (by positivity)
  generalize t * x2 / 2 ^ 128 = u at hprod hquot ⊢
  have hdrift := product_error (sq_nonneg X) hX hx2 ha ht
  rw [Int.cast_mul, mul_div_assoc] at hprod
  rw [Int.cast_neg, show ((((k + 1) * (k + 2) : Nat) : ℤ) : ℝ) = (k + 1) * (k + 2) by push_cast; ring] at hquot
  have hdist : |(u : ℝ) - 2 ^ 128 * (a * X ^ 2)| ≤ 1 + (10 * e + A) := (abs_sub_le _ _ _).trans (add_le_add hprod hdrift)
  have hscaled : |-(u : ℝ) / ((k + 1) * (k + 2)) - 2 ^ 128 * (-(a * X ^ 2) / ((k + 1) * (k + 2)))| ≤ (1 + (10 * e + A)) / 2 := by
    rw [show -(u : ℝ) / ((k + 1) * (k + 2)) - 2 ^ 128 * (-(a * X ^ 2) / ((k + 1) * (k + 2))) =
      -((u - 2 ^ 128 * (a * X ^ 2)) / ((k + 1) * (k + 2))) by ring, abs_neg, abs_div, abs_of_nonneg (by positivity : (0 : ℝ) ≤ (k + 1) * (k + 2))]
    exact div_le_div₀ ((abs_nonneg _).trans hdist) hdist (by norm_num) hm
  exact (abs_sub_le _ _ _).trans ((add_le_add hquot hscaled).trans (by linarith))

/-- The sum of `series` is that of the exact terms, but for an error that grows at most sevenfold with a term. -/
theorem series_error {X : ℝ} {x2 : ℤ} (hX : X ^ 2 ≤ 99 / 10) (hx2 : |(x2 : ℝ) / 2 ^ 128 - X ^ 2| ≤ 1 / 2 ^ 128)
    (f : ℕ) {a : ℕ → ℝ} {k : ℕ} {t : ℤ} {e A : ℝ} (ha : |a 0| ≤ A) (ht : |(t : ℝ) - 2 ^ 128 * a 0| ≤ e)
    (hstep : ∀ i, a (i + 1) = -(a i * X ^ 2) / ((k + 2 * i + 1) * (k + 2 * i + 2))) :
    |(series f t x2 k : ℝ) - 2 ^ 128 * ∑ i ∈ Finset.range f, a i| ≤ 7 ^ f * (e + A + 3) := by
  have he : 0 ≤ e := (abs_nonneg _).trans ht
  have hA : 0 ≤ A := (abs_nonneg _).trans ha
  induction f generalizing a k t e A with
  | zero => simp only [series, Finset.range_zero, Finset.sum_empty, mul_zero, Int.cast_zero, sub_zero, abs_zero]; positivity
  | succ f ih =>
    have hnext : a 1 = -(a 0 * X ^ 2) / ((k + 1) * (k + 2)) := by simpa using hstep 0
    have ha1 : |a 1| ≤ 5 * A := by
      have hm : (2 : ℝ) ≤ (k + 1) * (k + 2) := by norm_cast; nlinarith
      rw [hnext, abs_div, abs_neg, abs_mul, abs_of_nonneg (sq_nonneg X), abs_of_nonneg (by positivity : (0 : ℝ) ≤ (k + 1) * (k + 2))]
      rw [div_le_iff₀ (by positivity)]
      nlinarith [mul_le_mul ha hX (sq_nonneg X) hA]
    have ht1 := series_term_error (k := k) hX hx2 ha ht
    rw [← hnext] at ht1
    have hrest := ih (a := fun i => a (i + 1)) (k := k + 2) ha1 ht1
      (fun i => by rw [hstep (i + 1)]; push_cast; ring_nf) (by positivity) (by positivity)
    rw [series, Finset.sum_range_succ']
    push_cast
    have hpow : (1 : ℝ) ≤ 7 ^ f := one_le_pow₀ (by norm_num)
    calc _ = |((t : ℝ) - 2 ^ 128 * a 0) + ((series f (-(t * x2 / 2 ^ 128) / ((k + 1) * (k + 2) : Nat)) x2 (k + 2) : ℝ) -
            2 ^ 128 * ∑ i ∈ Finset.range f, a (i + 1))| := by push_cast; ring_nf
      _ ≤ e + 7 ^ f * ((5 * e + A / 2 + 2) + 5 * A + 3) := (abs_add_le _ _).trans (add_le_add ht hrest)
      _ ≤ 7 ^ (f + 1) * (e + A + 3) := by rw [pow_succ]; nlinarith

/-! ### The sine and the cosine as sums -/

/-- The terms of the cosine and of the sine. -/
noncomputable def cosTerm (X : ℝ) (i : ℕ) : ℝ := (-1) ^ i * X ^ (2 * i) / (2 * i).factorial
noncomputable def sinTerm (X : ℝ) (i : ℕ) : ℝ := (-1) ^ i * X ^ (2 * i + 1) / (2 * i + 1).factorial

@[simp] theorem cosTerm_zero (X : ℝ) : cosTerm X 0 = 1 := by simp [cosTerm]
@[simp] theorem sinTerm_zero (X : ℝ) : sinTerm X 0 = X := by simp [sinTerm]

/-- The terms of the exponential, two by two. -/
theorem sum_exp_terms (X : ℝ) (f : ℕ) : ∑ m ∈ Finset.range (2 * f), ((X : ℂ) * Complex.I) ^ m / m.factorial =
    ((∑ i ∈ Finset.range f, cosTerm X i : ℝ) : ℂ) + ((∑ i ∈ Finset.range f, sinTerm X i : ℝ) : ℂ) * Complex.I := by
  induction f with
  | zero => simp
  | succ f ih =>
    have heven : ((X : ℂ) * Complex.I) ^ (2 * f) = (-1) ^ f * (X : ℂ) ^ (2 * f) := by
      rw [mul_pow, pow_mul Complex.I, Complex.I_sq, mul_comm]
    rw [show 2 * (f + 1) = 2 * f + 1 + 1 by ring, Finset.sum_range_succ, Finset.sum_range_succ, ih, Finset.sum_range_succ, Finset.sum_range_succ,
      pow_succ _ (2 * f), heven, cosTerm, sinTerm]
    push_cast
    ring

/-- The sums of 22 terms, against the sine and the cosine. -/
theorem sum_terms_error {X : ℝ} (h0 : 0 ≤ X) (hX : X ≤ 4) :
    |Real.cos X - ∑ i ∈ Finset.range 22, cosTerm X i| ≤ 1 / 2 ^ 80 ∧ |Real.sin X - ∑ i ∈ Finset.range 22, sinTerm X i| ≤ 1 / 2 ^ 80 := by
  have hnorm : ‖(X : ℂ) * Complex.I‖ = X := by simp [abs_of_nonneg h0]
  have hexp := Complex.exp_bound' (x := X * Complex.I) (n := 2 * 22) (by rw [hnorm]; norm_num; linarith)
  rw [hnorm, sum_exp_terms, Complex.exp_mul_I] at hexp
  have hsmall : X ^ (2 * 22) / ((2 * 22).factorial : ℝ) * 2 ≤ 1 / 2 ^ 80 := by
    have : X ^ (2 * 22) ≤ 4 ^ (2 * 22) := by gcongr
    calc _ ≤ (4 : ℝ) ^ (2 * 22) / ((2 * 22).factorial : ℝ) * 2 := by gcongr
      _ ≤ _ := by norm_num [Nat.factorial]
  have hbound := hexp.trans hsmall
  refine ⟨?_, ?_⟩
  · refine le_trans ?_ ((Complex.abs_re_le_norm _).trans hbound)
    simp [← Complex.ofReal_cos, ← Complex.ofReal_sin]
  · refine le_trans ?_ ((Complex.abs_im_le_norm _).trans hbound)
    simp [← Complex.ofReal_cos, ← Complex.ofReal_sin]

end Sys2Proof.Machine
end

section
/-! SUPPORT: `sinCosScaled` gives sines and cosines to 2^-55 (R129; log entry 11). -/

namespace Sys2Proof.Machine

/-! ### The sine and the cosine of a part of half a turn -/

/-- A difference scaled down. -/
theorem abs_sub_scaled_le {z w b : ℝ} (h : |z - w| ≤ b) : |z / 2 ^ 128 - w / 2 ^ 128| ≤ b / 2 ^ 128 := by
  rw [← sub_div, abs_div, abs_of_pos (by positivity : (0 : ℝ) < 2 ^ 128)]
  gcongr

/-- `piScaled` is π × 2^128, as far as the 20 digits that Mathlib knows of π tell. -/
theorem piScaled_error : |(piScaled : ℝ) / 2 ^ 128 - Real.pi| ≤ 1 / 2 ^ 64 := by
  have hlo := Real.pi_gt_d20
  have hhi := Real.pi_lt_d20
  have hdigits : |(piScaled : ℝ) / 2 ^ 128 - 3.14159265358979323846| ≤ 1 / 2 ^ 65 := by
    rw [abs_le]; constructor <;> norm_num [piScaled]
  have hpi : |3.14159265358979323846 - Real.pi| ≤ 1 / 2 ^ 65 := by
    rw [abs_le]; constructor <;> norm_num at hlo hhi ⊢ <;> linarith
  exact (abs_sub_le _ _ _).trans ((add_le_add hdigits hpi).trans (by norm_num))

/-- The angle that `sinCosScaled` sums at. -/
theorem scaled_angle_error {n k : ℕ} (hn : n ≤ 2 ^ k) :
    |((piScaled * n / 2 ^ k : ℕ) : ℝ) / 2 ^ 128 - Real.pi * n / 2 ^ k| ≤ 1 / 2 ^ 63 := by
  have hfrac : |(n : ℝ) / 2 ^ k| ≤ 1 := by
    rw [abs_of_nonneg (by positivity), div_le_one (by positivity)]; exact_mod_cast hn
  have hround := abs_ediv_two_pow_sub_le (piScaled * n : ℕ) k
  rw [show ((piScaled * n : ℕ) : ℤ) / 2 ^ k = (piScaled * n / 2 ^ k : ℕ) by push_cast; rfl, Int.cast_natCast, Int.cast_natCast,
    Nat.cast_mul] at hround
  have hpi : |(piScaled : ℝ) * n / 2 ^ k / 2 ^ 128 - Real.pi * n / 2 ^ k| ≤ 1 / 2 ^ 64 * 1 := by
    rw [show (piScaled : ℝ) * n / 2 ^ k / 2 ^ 128 - Real.pi * n / 2 ^ k = (piScaled / 2 ^ 128 - Real.pi) * (n / 2 ^ k) by ring, abs_mul]
    exact mul_le_mul piScaled_error hfrac (abs_nonneg _) (by positivity)
  exact (abs_sub_le _ _ _).trans ((add_le_add (abs_sub_scaled_le hround) hpi).trans (by norm_num))

/-- The angle lies between 0 and not much more than π. -/
theorem scaled_angle_bounds {n k : ℕ} (hn : n ≤ 2 ^ k) :
    0 ≤ ((piScaled * n / 2 ^ k : ℕ) : ℝ) / 2 ^ 128 ∧ ((piScaled * n / 2 ^ k : ℕ) : ℝ) / 2 ^ 128 ≤ 3.1416 := by
  refine ⟨by positivity, ?_⟩
  have hfrac : Real.pi * n / 2 ^ k ≤ Real.pi * 1 := by
    rw [mul_div_assoc]
    have : (n : ℝ) / 2 ^ k ≤ 1 := by rw [div_le_one (by positivity)]; exact_mod_cast hn
    gcongr
  have herr := (abs_le.mp (scaled_angle_error hn)).2
  have hpi := Real.pi_lt_d6
  norm_num at herr hpi ⊢
  linarith

/-- A series summed at X, its terms and their exact sum known. -/
theorem series_near {X Y : ℝ} {x2 t : ℤ} {k : ℕ} {a : ℕ → ℝ} (hX : X ^ 2 ≤ 99 / 10) (hx2 : |(x2 : ℝ) / 2 ^ 128 - X ^ 2| ≤ 1 / 2 ^ 128)
    (ha : |a 0| ≤ 4) (ht : (t : ℝ) = 2 ^ 128 * a 0) (hstep : ∀ i, a (i + 1) = -(a i * X ^ 2) / ((k + 2 * i + 1) * (k + 2 * i + 2)))
    (hsum : |Y - ∑ i ∈ Finset.range 22, a i| ≤ 1 / 2 ^ 80) : |(series 22 t x2 k : ℝ) / 2 ^ 128 - Y| ≤ 1 / 2 ^ 56 := by
  have herr := series_error hX hx2 22 ha (e := 0) (by rw [ht]; simp) hstep
  have hscaled := abs_sub_scaled_le herr
  rw [mul_div_cancel_left₀ _ (by positivity)] at hscaled
  rw [abs_sub_comm] at hsum
  exact (abs_sub_le _ _ _).trans ((add_le_add hscaled hsum).trans (by norm_num))

/-- The terms of the two series, each from the one before. -/
theorem cosTerm_succ (X : ℝ) (i : ℕ) : cosTerm X (i + 1) = -(cosTerm X i * X ^ 2) / (((0 : ℕ) + 2 * i + 1) * ((0 : ℕ) + 2 * i + 2)) := by
  simp only [cosTerm, show 2 * (i + 1) = 2 * i + 1 + 1 by ring, Nat.factorial_succ]
  push_cast
  field_simp
  ring

theorem sinTerm_succ (X : ℝ) (i : ℕ) : sinTerm X (i + 1) = -(sinTerm X i * X ^ 2) / (((1 : ℕ) + 2 * i + 1) * ((1 : ℕ) + 2 * i + 2)) := by
  simp only [sinTerm, show 2 * (i + 1) + 1 = 2 * i + 1 + 1 + 1 by ring, Nat.factorial_succ]
  push_cast
  field_simp
  ring

/-- `sinCosScaled` gives the sine and the cosine of n / 2^k of half a turn. -/
theorem sinCosScaled_error {n k : ℕ} (hn : n ≤ 2 ^ k) :
    |((sinCosScaled n k).1 : ℝ) / 2 ^ 128 - Real.sin (Real.pi * n / 2 ^ k)| ≤ 1 / 2 ^ 55 ∧
      |((sinCosScaled n k).2 : ℝ) / 2 ^ 128 - Real.cos (Real.pi * n / 2 ^ k)| ≤ 1 / 2 ^ 55 := by
  obtain ⟨h0, hmax⟩ := scaled_angle_bounds hn
  have hangle := scaled_angle_error hn
  unfold sinCosScaled
  generalize (piScaled * n / 2 ^ k : ℕ) = x at h0 hmax hangle ⊢
  obtain ⟨hcos, hsin⟩ := sum_terms_error h0 (hmax.trans (by norm_num))
  have hx2 : |((x * x / 2 ^ 128 : ℤ) : ℝ) / 2 ^ 128 - ((x : ℝ) / 2 ^ 128) ^ 2| ≤ 1 / 2 ^ 128 := by
    have hround := abs_ediv_two_pow_sub_le ((x : ℤ) * x) 128
    rw [Int.cast_mul, Int.cast_natCast] at hround
    rw [show ((x : ℝ) / 2 ^ 128) ^ 2 = (x : ℝ) * x / 2 ^ 128 / 2 ^ 128 by ring]
    exact abs_sub_scaled_le hround
  have hsq : ((x : ℝ) / 2 ^ 128) ^ 2 ≤ 99 / 10 := (pow_le_pow_left₀ h0 hmax 2).trans (by norm_num)
  have hsin' := series_near (t := (x : ℤ)) hsq hx2 (by rw [sinTerm_zero, abs_of_nonneg h0]; linarith)
    (by rw [sinTerm_zero, Int.cast_natCast]; ring) (sinTerm_succ _) hsin
  have hcos' := series_near (t := 2 ^ 128) hsq hx2 (by norm_num) (by norm_num) (cosTerm_succ _) hcos
  exact ⟨(abs_sub_le _ _ _).trans ((add_le_add hsin' ((Real.abs_sin_sub_sin_le _ _).trans hangle)).trans (by norm_num)),
    (abs_sub_le _ _ _).trans ((add_le_add hcos' ((Real.abs_cos_sub_cos_le _ _).trans hangle)).trans (by norm_num))⟩

end Sys2Proof.Machine
end

section
/-! SUPPORT: the sine and the cosine of an angle word (R129). -/

namespace Sys2Proof.Machine

/-- An integer nearest to a value, within 2^-20 of a half. -/
def Nearest (n : ℤ) (y : ℝ) : Prop := |(n : ℝ) - y| ≤ 1 / 2 + 1 / 2 ^ 20

theorem Nearest.of_eq {n : ℤ} {y : ℝ} (h : (n : ℝ) = y) : Nearest n y := by
  rw [Nearest, h, sub_self, abs_zero]; positivity

theorem Nearest.neg {n : ℤ} {y : ℝ} (h : Nearest n y) : Nearest (-n) (-y) := by
  rwa [Nearest, Int.cast_neg, neg_sub_neg, abs_sub_comm]

/-- An integer nearest to a value between -2^30 and 2^30 fits a word. -/
theorem Nearest.toInt_wrap32 {n : ℤ} {y : ℝ} (h : Nearest n (2 ^ 30 * y)) (hy : |y| ≤ 1) : (wrap32 n).toInt = n := by
  obtain ⟨hlo, hhi⟩ := abs_le.mp h
  obtain ⟨hylo, hyhi⟩ := abs_le.mp hy
  have hn : -(2 ^ 31) < (n : ℝ) := by norm_num at hlo ⊢; linarith
  have hn' : (n : ℝ) < 2 ^ 31 := by norm_num at hhi ⊢; linarith
  exact BitVec.toInt_ofInt_eq_self (by norm_num) (by exact_mod_cast hn.le) (by exact_mod_cast hn')

/-- A value scaled by 2^128 and known to 2^-55, rounded to 2^-30. -/
theorem toQ30_nearest {v : ℤ} {y : ℝ} (h : |(v : ℝ) / 2 ^ 128 - y| ≤ 1 / 2 ^ 55) : Nearest (toQ30 v) (2 ^ 30 * y) := by
  have hlo : toQ30 v * 2 ^ 98 ≤ v + 2 ^ 97 := Int.ediv_mul_le _ (by norm_num)
  have hhi : v + 2 ^ 97 < (toQ30 v + 1) * 2 ^ 98 := Int.lt_ediv_add_one_mul_self _ (by norm_num)
  have hlo' : (toQ30 v : ℝ) * 2 ^ 98 ≤ v + 2 ^ 97 := by exact_mod_cast hlo
  have hhi' : (v : ℝ) + 2 ^ 97 < (toQ30 v + 1) * 2 ^ 98 := by exact_mod_cast hhi
  obtain ⟨hylo, hyhi⟩ := abs_le.mp h
  refine abs_le.mpr ⟨?_, ?_⟩ <;> norm_num at hlo' hhi' hylo hyhi ⊢ <;> linarith

/-- The rounded sine and cosine of r / 2^31 of half a turn. -/
def quarterSin (r : Nat) : Int := if r = 0 then 0 else toQ30 (sinCosScaled r 31).1
def quarterCos (r : Nat) : Int := if r = 0 then 0x40000000 else toQ30 (sinCosScaled r 31).2

theorem quarterSin_nearest {r : Nat} (hr : r ≤ 2 ^ 31) : Nearest (quarterSin r) (2 ^ 30 * Real.sin (Real.pi * r / 2 ^ 31)) := by
  unfold quarterSin
  split_ifs with h
  · exact .of_eq (by simp [h])
  · exact toQ30_nearest (sinCosScaled_error hr).1

theorem quarterCos_nearest {r : Nat} (hr : r ≤ 2 ^ 31) : Nearest (quarterCos r) (2 ^ 30 * Real.cos (Real.pi * r / 2 ^ 31)) := by
  unfold quarterCos
  split_ifs with h
  · exact .of_eq (by norm_num [h])
  · exact toQ30_nearest (sinCosScaled_error hr).2

/-- An angle word, in radians. -/
noncomputable def turn (u : Nat) : ℝ := 2 * Real.pi * (u : ℝ) / 2 ^ 32

/-- An angle is a number of quarter turns and a rest. -/
theorem turn_eq_quarters (q r : Nat) : turn (0x40000000 * q + r) = Real.pi * r / 2 ^ 31 + q * (Real.pi / 2) := by
  unfold turn
  push_cast
  ring

/-- `sinCos` by the quarter turn that the angle lies in. -/
theorem sinCos_eq (u : Word) : sinCos u =
    match u.toNat / 0x40000000 with
    | 0 => (quarterSin (u.toNat % 0x40000000), quarterCos (u.toNat % 0x40000000))
    | 1 => (quarterCos (u.toNat % 0x40000000), -quarterSin (u.toNat % 0x40000000))
    | 2 => (-quarterSin (u.toNat % 0x40000000), -quarterCos (u.toNat % 0x40000000))
    | _ => (-quarterCos (u.toNat % 0x40000000), quarterSin (u.toNat % 0x40000000)) := rfl

/-- `sinCos` gives the nearest integers to the sine and the cosine of its angle, scaled by 2^30. -/
theorem sinCos_nearest (u : Word) :
    Nearest (sinCos u).1 (2 ^ 30 * Real.sin (turn u.toNat)) ∧ Nearest (sinCos u).2 (2 ^ 30 * Real.cos (turn u.toNat)) := by
  have hlt := u.isLt
  have hsplit : turn u.toNat = _ := (congrArg turn (Nat.div_add_mod u.toNat 0x40000000).symm).trans (turn_eq_quarters _ _)
  have hr : u.toNat % 0x40000000 ≤ 2 ^ 31 := by omega
  have hs := quarterSin_nearest hr
  have hc := quarterCos_nearest hr
  have hq : u.toNat / 0x40000000 < 4 := by omega
  rw [hsplit, sinCos_eq]
  generalize u.toNat % 0x40000000 = r at hs hc ⊢
  generalize u.toNat / 0x40000000 = q at hq ⊢
  have hhalf : ∀ z : ℝ, z + 3 * (Real.pi / 2) = z + Real.pi / 2 + Real.pi := fun z => by ring
  match q, hq with
  | 0, _ => simpa using ⟨hs, hc⟩
  | 1, _ => simpa [Real.sin_add_pi_div_two, Real.cos_add_pi_div_two] using ⟨hc, hs.neg⟩
  | 2, _ => simpa [mul_div_cancel₀, Real.sin_add_pi, Real.cos_add_pi] using ⟨hs.neg, hc.neg⟩
  | 3, _ => simpa [hhalf, Real.sin_add_pi, Real.cos_add_pi, Real.sin_add_pi_div_two, Real.cos_add_pi_div_two] using ⟨hc.neg, hs⟩

end Sys2Proof.Machine
end

section
/-! SUPPORT: the angle of two words (R129). -/

namespace Sys2Proof.Machine

/-! ### A first-quadrant angle found bit by bit -/

/-- The angle that is found is reached, and the next one is not. -/
theorem angleFrom_spec {x y : Nat} (k n : Nat) (hlo : n ≠ 0 → angleReached n x y = true) (hhi : angleReached (n + 2 ^ (k + 1)) x y = false) :
    (angleFrom k n x y ≠ 0 → angleReached (angleFrom k n x y) x y = true) ∧ angleReached (angleFrom k n x y + 1) x y = false ∧
      angleFrom k n x y < n + 2 ^ (k + 1) := by
  induction k generalizing n with
  | zero =>
    rw [angleFrom]
    split
    next hbit => exact ⟨fun _ => hbit, hhi, by omega⟩
    next hbit => exact ⟨hlo, by simpa using hbit, by omega⟩
  | succ k ih =>
    rw [angleFrom, pow_succ 2 (k + 1)]
    split
    next hbit =>
      obtain ⟨hlo', hhi', hlt⟩ := ih _ (fun _ => hbit) (by rwa [add_assoc, ← two_mul, ← pow_succ'])
      exact ⟨hlo', hhi', by omega⟩
    next hbit =>
      obtain ⟨hlo', hhi', hlt⟩ := ih _ hlo (by simpa using hbit)
      exact ⟨hlo', hhi', by omega⟩

/-- The angle that `angleReached` asks for: n - 1/2 units of 2^-32 turns. -/
noncomputable def halfBelow (n : Nat) : ℝ := Real.pi * (2 * n - 1) / 2 ^ 32

/-- The comparison of `angleReached`, but for the errors of the two sums. -/
theorem angleReached_error {n x y : Nat} (hn : 1 ≤ n) (hn' : n ≤ 2 ^ 31) :
    (angleReached n x y = true → x * Real.sin (halfBelow n) ≤ y * Real.cos (halfBelow n) + (x + y) / 2 ^ 55) ∧
      (angleReached n x y = false → y * Real.cos (halfBelow n) ≤ x * Real.sin (halfBelow n) + (x + y) / 2 ^ 55) := by
  obtain ⟨hs, hc⟩ := sinCosScaled_error (n := 2 * n - 1) (k := 32) (by omega)
  rw [show Real.pi * ((2 * n - 1 : ℕ) : ℝ) / 2 ^ 32 = halfBelow n by rw [halfBelow, Nat.cast_sub (by omega)]; push_cast; rfl] at hs hc
  obtain ⟨hslo, hshi⟩ := abs_le.mp hs
  obtain ⟨hclo, hchi⟩ := abs_le.mp hc
  have hx : (0 : ℝ) ≤ x := Nat.cast_nonneg x
  have hy : (0 : ℝ) ≤ y := Nat.cast_nonneg y
  have hcompare : angleReached n x y = true ↔
      (x : ℝ) * ((sinCosScaled (2 * n - 1) 32).1 / 2 ^ 128) ≤ y * ((sinCosScaled (2 * n - 1) 32).2 / 2 ^ 128) := by
    rw [angleReached, decide_eq_true_iff, ← mul_div_assoc, ← mul_div_assoc, div_le_div_iff_of_pos_right (by positivity)]
    norm_cast
  rw [← Bool.not_eq_true, hcompare, not_le]
  generalize ((sinCosScaled (2 * n - 1) 32).1 : ℝ) / 2 ^ 128 = S at *
  generalize ((sinCosScaled (2 * n - 1) 32).2 : ℝ) / 2 ^ 128 = C at *
  have hxlo := mul_le_mul_of_nonneg_left hslo hx
  have hxhi := mul_le_mul_of_nonneg_left hshi hx
  have hylo := mul_le_mul_of_nonneg_left hclo hy
  have hyhi := mul_le_mul_of_nonneg_left hchi hy
  exact ⟨fun h => by linarith, fun h => by linarith⟩

theorem halfBelow_bounds {n : Nat} (hn : 1 ≤ n) (hn' : n ≤ 2 ^ 31) : 0 ≤ halfBelow n ∧ halfBelow n ≤ Real.pi := by
  have hlo : (1 : ℝ) ≤ n := by exact_mod_cast hn
  have hhi : (n : ℝ) ≤ 2 ^ 31 := by exact_mod_cast hn'
  have hpi := Real.pi_pos
  refine ⟨div_nonneg (mul_nonneg hpi.le (by linarith)) (by positivity), ?_⟩
  rw [halfBelow, div_le_iff₀ (by positivity)]
  exact mul_le_mul_of_nonneg_left (by linarith) hpi.le

/-- An angle that is reached lies in the first quadrant. -/
theorem halfBelow_lt_of_reached {n x y : Nat} (hn : 1 ≤ n) (hn' : n ≤ 2 ^ 31) (hx : 1 ≤ x) (hx' : x ≤ 2 ^ 31) (hy : 1 ≤ y) (hy' : y ≤ 2 ^ 31)
    (h : angleReached n x y = true) : halfBelow n < Real.pi / 2 := by
  by_contra hge
  obtain ⟨h0, hpi⟩ := halfBelow_bounds hn hn'
  have hreached := (angleReached_error hn hn').1 h
  have hsin := Real.sin_nonneg_of_nonneg_of_le_pi h0 hpi
  have hcos := Real.cos_nonpos_of_pi_div_two_le_of_le (not_lt.mp hge) (by linarith [Real.pi_pos])
  have hone := Real.sin_sq_add_cos_sq (halfBelow n)
  have hx1 : (1 : ℝ) ≤ x := by exact_mod_cast hx
  have hy1 : (1 : ℝ) ≤ y := by exact_mod_cast hy
  have hsmall : ((x : ℝ) + y) / 2 ^ 55 ≤ 1 / 4 := by
    have hx2 : (x : ℝ) ≤ 2 ^ 31 := by exact_mod_cast hx'
    have hy2 : (y : ℝ) ≤ 2 ^ 31 := by exact_mod_cast hy'
    rw [div_le_iff₀ (by positivity)]
    linarith
  obtain hbig | hbig := le_or_gt (1 / 2) (Real.sin (halfBelow n))
  · have hleft := mul_le_mul_of_nonneg_left hbig (zero_le_one.trans hx1)
    have hright := mul_nonpos_of_nonneg_of_nonpos (zero_le_one.trans hy1) hcos
    linarith
  · have hneg : Real.cos (halfBelow n) ≤ -(1 / 2) := by nlinarith
    have hleft := mul_nonneg (zero_le_one.trans hx1) hsin
    have hright := mul_le_mul_of_nonneg_left hneg (zero_le_one.trans hy1)
    linarith

/-- Where the sine is small, so is an angle below a quarter turn. -/
theorem le_of_sin_le {z : ℝ} (hz : z ≤ Real.pi / 2) (h : Real.sin z ≤ 1 / 2 ^ 54) : z ≤ Real.pi / 2 ^ 55 := by
  have hpi := Real.pi_pos
  obtain hneg | hpos := le_or_gt z 0
  · exact hneg.trans (by positivity)
  · have hjordan := (Real.mul_le_sin hpos.le hz).trans h
    rw [div_mul_eq_mul_div, div_le_iff₀ hpi] at hjordan
    norm_num at hjordan ⊢
    linarith

/-- An angle in units of 2^-32 turns. -/
noncomputable def inUnits (φ : ℝ) : ℝ := φ * 2 ^ 32 / (2 * Real.pi)

/-- Halves of units, as angles that differ little. -/
theorem inUnits_halfBelow (n : Nat) : inUnits (halfBelow n) = n - 1 / 2 := by
  have hpi := Real.pi_pos
  unfold inUnits halfBelow
  field_simp

theorem inUnits_le {φ ψ : ℝ} (h : φ - ψ ≤ Real.pi / 2 ^ 55) : inUnits φ ≤ inUnits ψ + 1 / 2 ^ 24 := by
  have hpi := Real.pi_pos
  have hsub : inUnits φ - inUnits ψ = (φ - ψ) * 2 ^ 32 / (2 * Real.pi) := by unfold inUnits; ring
  have hle : (φ - ψ) * 2 ^ 32 / (2 * Real.pi) ≤ 1 / 2 ^ 24 := by
    rw [div_le_iff₀ (by positivity)]
    norm_num at h ⊢
    linarith
  linarith

/-- The direction of a vector in the first quadrant, against the angle found for it. -/
theorem angleFrom_nearest {x y : Nat} {R φ : ℝ} (hx : 1 ≤ x) (hx' : x ≤ 2 ^ 31) (hy : 1 ≤ y) (hy' : y ≤ 2 ^ 31) (hR : 0 < R)
    (hcos : (x : ℝ) = R * Real.cos φ) (hsin : (y : ℝ) = R * Real.sin φ) (h0 : 0 ≤ φ) (hφ : φ ≤ Real.pi / 2) :
    Nearest (angleFrom 30 0 x y) (inUnits φ) := by
  have hpi := Real.pi_pos
  have hlast : angleReached (0 + 2 ^ (30 + 1)) x y = false := by
    by_contra h
    have hlt := halfBelow_lt_of_reached (n := 0 + 2 ^ (30 + 1)) (by norm_num) (by norm_num) hx hx' hy hy' (by simpa using h)
    rw [halfBelow, div_lt_iff₀ (by positivity)] at hlt
    norm_num at hlt
    linarith
  obtain ⟨hreached, hnext, hN⟩ := angleFrom_spec 30 0 (fun h => absurd rfl h) hlast
  generalize angleFrom 30 0 x y = N at hreached hnext hN ⊢
  have hturned : ∀ θ, x * Real.sin θ - y * Real.cos θ = R * Real.sin (θ - φ) := fun θ => by rw [hcos, hsin, Real.sin_sub]; ring
  have hsum : ((x : ℝ) + y) / 2 ^ 55 ≤ R * (1 / 2 ^ 54) := by
    have hx1 : (x : ℝ) ≤ R * 1 := hcos ▸ mul_le_mul_of_nonneg_left (Real.cos_le_one _) hR.le
    have hy1 : (y : ℝ) ≤ R * 1 := hsin ▸ mul_le_mul_of_nonneg_left (Real.sin_le_one _) hR.le
    norm_num at hx1 hy1 ⊢
    linarith
  have hlower : (N : ℝ) - 1 / 2 ≤ inUnits φ + 1 / 2 ^ 24 := by
    obtain rfl | hN0 := Nat.eq_zero_or_pos N
    · have : 0 ≤ inUnits φ := by unfold inUnits; positivity
      norm_num; linarith
    · have hr := hreached hN0.ne'
      have hlt := halfBelow_lt_of_reached hN0 (by omega) hx hx' hy hy' hr
      have hle := (angleReached_error hN0 (by omega)).1 hr
      have hs : R * Real.sin (halfBelow N - φ) ≤ R * (1 / 2 ^ 54) := by linarith [hturned (halfBelow N)]
      rw [← inUnits_halfBelow]
      exact inUnits_le (le_of_sin_le (by linarith) (le_of_mul_le_mul_left hs hR))
  have hupper : inUnits φ ≤ (N : ℝ) + 1 / 2 + 1 / 2 ^ 24 := by
    have hle := (angleReached_error (n := N + 1) (by omega) (by omega)).2 hnext
    have hpos := (halfBelow_bounds (n := N + 1) (by omega) (by omega)).1
    have hs : R * Real.sin (φ - halfBelow (N + 1)) ≤ R * (1 / 2 ^ 54) := by
      rw [← neg_sub, Real.sin_neg]
      linarith [hturned (halfBelow (N + 1))]
    have hunits := inUnits_le (le_of_sin_le (by linarith) (le_of_mul_le_mul_left hs hR))
    rw [inUnits_halfBelow] at hunits
    push_cast at hunits
    linarith
  exact abs_le.mpr ⟨by norm_num at hupper ⊢; linarith, by norm_num at hlower ⊢; linarith⟩

end Sys2Proof.Machine
end

section
/-! Proofs: the angle of two words, the circle of ipl, and O17 (R129, R133, R134). -/

namespace Sys2Proof.Machine

/-! ### The angle of two words (R129) -/

/-- The vector (p, q) points at an angle of the upper half plane that n units are nearest to. -/
def PointsAt (p q : ℝ) (n : ℤ) : Prop :=
  ∃ R φ : ℝ, 0 < R ∧ p = R * Real.cos φ ∧ q = R * Real.sin φ ∧ 0 ≤ φ ∧ φ ≤ Real.pi ∧ Nearest n (inUnits φ)

section
variable {p q : ℝ} {n : ℤ}

/-- The vector mirrored at the vertical axis points at the supplement. -/
theorem PointsAt.mirror (h : PointsAt p q n) : PointsAt (-p) q (0x80000000 - n) := by
  obtain ⟨R, φ, hR, hp, hq, h0, hpi, hn⟩ := h
  refine ⟨R, Real.pi - φ, hR, by rw [Real.cos_pi_sub, hp]; ring, by rw [Real.sin_pi_sub, hq], by linarith, by linarith, ?_⟩
  have hunits : inUnits (Real.pi - φ) = 0x80000000 - inUnits φ := by
    have := Real.pi_pos
    unfold inUnits
    field_simp
    ring
  rw [Nearest, hunits, Int.cast_sub, Int.cast_ofNat, sub_sub_sub_cancel_left, abs_sub_comm]
  exact hn

/-- The angle of the vector. -/
theorem PointsAt.arg (h : PointsAt p q n) : Nearest n (inUnits (Complex.arg ⟨p, q⟩)) := by
  obtain ⟨R, φ, hR, hp, hq, h0, hpi, hn⟩ := h
  have harg := Complex.arg_mul_cos_add_sin_mul_I hR (θ := φ) ⟨by linarith [Real.pi_pos], hpi⟩
  rwa [show (⟨p, q⟩ : ℂ) = R * (Complex.cos φ + Complex.sin φ * Complex.I) from
    Complex.ext (by simp [hp, Complex.cos_ofReal_re]) (by simp [hq, Complex.sin_ofReal_re]), harg]

/-- The angle of the vector mirrored at the horizontal axis. -/
theorem PointsAt.arg_below (h : PointsAt p q n) (hq : 0 < q) : Nearest (-n) (inUnits (Complex.arg ⟨p, -q⟩)) := by
  have hpos : Complex.arg ⟨p, q⟩ ≠ Real.pi := fun hpi => (Complex.arg_eq_pi_iff.mp hpi).2.not_gt hq
  have hconj : Complex.arg ⟨p, -q⟩ = -Complex.arg ⟨p, q⟩ := (Complex.arg_conj ⟨p, q⟩).trans (if_neg hpos)
  rw [hconj, show inUnits (-Complex.arg ⟨p, q⟩) = -inUnits (Complex.arg ⟨p, q⟩) by unfold inUnits; ring]
  exact h.arg.neg

end

/-- The angle of two magnitudes. -/
def quarterAngle (x y : Nat) : Int := if x = 0 then 0x40000000 else if y = 0 then 0 else angleFrom 30 0 x y

theorem pointsAt_quarterAngle {x y : Nat} (hx : x ≤ 2 ^ 31) (hy : y ≤ 2 ^ 31) (h : ¬ (x = 0 ∧ y = 0)) : PointsAt x y (quarterAngle x y) := by
  have hpi := Real.pi_pos
  unfold quarterAngle
  split_ifs with hx0 hy0
  · have hy0 : (0 : ℝ) < y := by exact_mod_cast Nat.pos_of_ne_zero fun hy0 => h ⟨hx0, hy0⟩
    refine ⟨y, Real.pi / 2, hy0, by simp [hx0], by simp, by positivity, by linarith, .of_eq ?_⟩
    unfold inUnits
    field_simp
    norm_num
  · exact ⟨x, 0, by exact_mod_cast Nat.pos_of_ne_zero hx0, by simp, by simp [hy0], le_rfl, hpi.le, .of_eq (by simp [inUnits])⟩
  · have hne : (⟨x, y⟩ : ℂ) ≠ 0 := fun h0 => hx0 (by simpa using congrArg Complex.re h0)
    have hquarter : |Complex.arg ⟨x, y⟩| ≤ Real.pi / 2 := Complex.abs_arg_le_pi_div_two_iff.mpr (Nat.cast_nonneg x)
    have h0 : 0 ≤ Complex.arg ⟨x, y⟩ := Complex.arg_nonneg_iff.mpr (Nat.cast_nonneg y)
    have hle := (abs_le.mp hquarter).2
    have hcos := (Complex.norm_mul_cos_arg ⟨x, y⟩).symm
    have hsin := (Complex.norm_mul_sin_arg ⟨x, y⟩).symm
    have hR := norm_pos_iff.mpr hne
    exact ⟨_, _, hR, hcos, hsin, h0, by linarith,
      angleFrom_nearest (Nat.pos_of_ne_zero hx0) hx (Nat.pos_of_ne_zero hy0) hy hR hcos hsin h0 hle⟩

/-- The magnitude of a signed word. -/
theorem natAbs_toInt_le (w : Word) : w.toInt.natAbs ≤ 2 ^ 31 := by
  have hlo := w.le_toInt
  have hhi := w.toInt_lt
  omega

/-- `atan2Word` is the word of an integer nearest to the angle of its operands. -/
theorem atan2Word_nearest {a t : Word} (h : ¬ (a = 0 ∧ t = 0)) :
    ∃ n : Int, atan2Word a t = BitVec.ofInt 32 n ∧ Nearest n (inUnits (Complex.arg ⟨t.toInt, a.toInt⟩)) := by
  have hzero : ∀ w : Word, w.toInt.natAbs = 0 → w = 0 := fun w hw => BitVec.eq_of_toInt_eq (by simpa using hw)
  have hquarter := pointsAt_quarterAngle (natAbs_toInt_le t) (natAbs_toInt_le a) fun h0 => h ⟨hzero a h0.2, hzero t h0.1⟩
  have hhalf : PointsAt t.toInt a.toInt.natAbs (if t.toInt < 0 then 0x80000000 - quarterAngle t.toInt.natAbs a.toInt.natAbs
      else quarterAngle t.toInt.natAbs a.toInt.natAbs) := by
    split_ifs with ht
    · have hmirror := hquarter.mirror
      rwa [Nat.cast_natAbs, abs_of_neg ht, Int.cast_neg, neg_neg] at hmirror
    · rwa [Nat.cast_natAbs, abs_of_nonneg (not_lt.mp ht)] at hquarter
  refine ⟨_, rfl, ?_⟩
  obtain ha | ha := lt_or_ge a.toInt 0
  · have hbelow := hhalf.arg_below (by exact_mod_cast Int.natAbs_pos.mpr ha.ne)
    rw [if_pos ha]
    rwa [Nat.cast_natAbs, abs_of_neg ha, Int.cast_neg, neg_neg] at hbelow
  · have habove := hhalf.arg
    rw [if_neg ha.not_gt]
    rwa [Nat.cast_natAbs a.toInt, abs_of_nonneg ha] at habove

/-! ### The circle of ipl (R133, R134) -/

/-- A circle of 2 to 8 axes gives its setpoints, U and STAT. -/
theorem iplExec_circ {t : Word} {ws : List Word} {n : Nat} (hn : (inputAt ws 0).toNat = n) (hmin : 2 ≤ n) (hmax : n ≤ 8) :
    iplExec .circ t ws = iplResult .circ t ws n := by
  have hlow : fld (inputAt ws 0) 0 4 = n := by simp [fld, hn]; omega
  have hhigh : fld (inputAt ws 0) 4 28 = 0 := by simp [fld, hn, Nat.shiftRight_eq_div_pow]; omega
  simp only [iplExec, hlow]
  refine (if_neg ?_).trans ?_
  · omega
  · interval_cases n <;> rfl

/-- The words that a block of at most 8 axes is given lie apart. -/
theorem iplResult_writes_apart (e : Nat) (block : Word) (op : IplOp) (t : Word) (ws : List Word) {n : Nat} (hmax : n ≤ 8) :
    (iplResult op t ws n).writes.Pairwise (wordsApart e block) := by
  have hoffsets : ∀ w ∈ (iplResult op t ws n).writes, w.1 % 4 = 0 ∧ w.1 < 0x400000 := by
    simp only [iplResult, List.forall_mem_cons, List.forall_mem_map, List.mem_range]
    exact ⟨by norm_num, by norm_num, fun i hi => by omega⟩
  have hrising : (iplResult op t ws n).writes.Pairwise (fun v w => v.1 < w.1) := by
    simp only [iplResult, List.pairwise_cons, List.forall_mem_cons, List.forall_mem_map, List.pairwise_map]
    exact ⟨⟨by norm_num, fun i _ => by omega⟩, fun i _ => by omega, List.pairwise_lt_range.imp fun h => by omega⟩
  exact hrising.imp_of_mem fun hv hw hlt =>
    wordsApart_of_ne e block (hoffsets _ hv).1 (hoffsets _ hw).1 (hoffsets _ hv).2 (hoffsets _ hw).2 hlt.ne

/-- The angle word of a circle at E. -/
def circleAngle (ws : List Word) (e : Int) : Word := wrap32 ((inputAt ws 12).toNat + rsh ((inputAt ws 13).toInt * e) 31)

/-- The setpoints of a circle: its first two axes turn, the others are those of lin. -/
theorem iplAxis_circ (ws : List Word) (e : Int) :
    (iplAxis .circ ws e 0).1 = clamp32 ((inputAt ws 4).toInt + ((inputAt ws 20).toInt * (sinCos (circleAngle ws e)).2 + 2 ^ 29) / 2 ^ 30) ∧
      (iplAxis .circ ws e 1).1 = clamp32 ((inputAt ws 5).toInt + ((inputAt ws 20).toInt * (sinCos (circleAngle ws e)).1 + 2 ^ 29) / 2 ^ 30) ∧
      ∀ i, 2 ≤ i → iplAxis .circ ws e i = iplAxis .lin ws e i :=
  ⟨satClamp_fst _, satClamp_fst _, fun i hi => (if_neg (by omega)).trans (if_neg (by omega))⟩

/-- Where a segment stands: at its end, or as far as it goes. -/
theorem iplPlace_eq (t : Word) (ws : List Word) :
    (bit (inputAt ws 3) 0 = true ∨ 2 ^ 32 ≤ iplReach t ws → iplPlace t ws = 2 ^ 32) ∧
      (bit (inputAt ws 3) 0 = false → iplReach t ws < 2 ^ 32 → iplPlace t ws = iplReach t ws) := by
  refine ⟨fun h => if_pos ?_, fun hbit hlt => if_neg ?_⟩
  · rwa [iplEnds, Bool.or_eq_true, decide_eq_true_eq]
  · simpa [iplEnds, hbit] using hlt

/-! ### The completions (R129, R133) -/

section
variable {s : State} {c : Nat} {v : Service} (hpaused : s.dev.pausedCluster c = false) (hdue : s.dev.servedBy v ≤ s.dev.now)
  (hdead : v.req.dead = false) (hbad : v.bad = false) (hctx : v.req.ctx = (s.dev.eng v.req.engine).ctx)
include hpaused hdue hdead hbad hctx

/-- A sine and a cosine, in kin.r and kin.r2. -/
theorem kinComplete_sincos (hservice : (s.dev.unit3 c .kin).service = some v) (hop : v.req.op = .kin .sincos) :
    ∃ t, exec (.kinComplete c) s = .next t ∧ ServedState s c .kin v t ∧
      (t.dev.eng v.req.engine).result .kinR = { value := wrap32 (sinCos v.req.t).1, readable := true } ∧
      (t.dev.eng v.req.engine).result .kinR2 = { value := wrap32 (sinCos v.req.t).2, readable := true } ∧
      (t.dev.eng v.req.engine).acst = (s.dev.eng v.req.engine).acst ∧ ∀ k, t.dev.byte k = s.dev.byte k := by
  have hres : v.result = { writes := [], r := wrap32 (sinCos v.req.t).1, r2 := some (wrap32 (sinCos v.req.t).2), flags := 0 } := by
    simp only [Service.result, hop, kinExec]
  have hserved := sharedComplete_served hpaused hservice hdue hdead hbad (.inl (by rw [hres]))
  obtain ⟨k, heng⟩ := hserved.eng
  obtain ⟨hr, hr2, -, -, hflags⟩ := Engine.served_kin hctx k hop
  refine ⟨_, rfl, hserved, ?_, heng ▸ hr2 _ (by rw [hres]), ?_, hserved.byte_of_no_writes (by rw [hres])⟩
  · rw [heng, hr, hres]
  · rw [heng, hflags, hres]; exact BitVec.or_zero

/-- An angle, in kin.r. -/
theorem kinComplete_atan2 (hservice : (s.dev.unit3 c .kin).service = some v) (hop : v.req.op = .kin .atan2) :
    ∃ t r, exec (.kinComplete c) s = .next t ∧ ServedState s c .kin v t ∧
      (t.dev.eng v.req.engine).result .kinR = { value := r, readable := true } ∧
      ((t.dev.eng v.req.engine).result .kinR2).readable = false ∧ (∀ k, t.dev.byte k = s.dev.byte k) ∧
      (v.req.a = 0 ∧ v.req.t = 0 → r = 0 ∧ (t.dev.eng v.req.engine).acst = (s.dev.eng v.req.engine).acst ||| flagKR) ∧
      (¬ (v.req.a = 0 ∧ v.req.t = 0) → r = atan2Word v.req.a v.req.t ∧
        (t.dev.eng v.req.engine).acst = (s.dev.eng v.req.engine).acst) := by
  have hres : v.result = kinExec .atan2 v.req.a v.req.t v.inputs := by simp only [Service.result, hop]
  have hwrites : v.result.writes = [] ∧ v.result.r2 = none := by rw [hres]; simp only [kinExec]; split <;> exact ⟨rfl, rfl⟩
  have hserved := sharedComplete_served hpaused hservice hdue hdead hbad (.inl hwrites.1)
  obtain ⟨k, heng⟩ := hserved.eng
  obtain ⟨hr, -, hr2, -, hflags⟩ := Engine.served_kin hctx k hop
  refine ⟨_, _, rfl, hserved, heng ▸ hr, by rw [heng, hr2 hwrites.2], hserved.byte_of_no_writes hwrites.1, fun h => ?_, fun h => ?_⟩
  · have hzero : v.result = { writes := [], r := 0, r2 := none, flags := flagKR } := hres.trans (if_pos h)
    exact ⟨by rw [hzero], by rw [heng, hflags, hzero]⟩
  · have hangle : v.result = { writes := [], r := atan2Word v.req.a v.req.t, r2 := none, flags := 0 } := hres.trans (if_neg h)
    exact ⟨by rw [hangle], by rw [heng, hflags, hangle]; exact BitVec.or_zero⟩

/-- The setpoints of a circle, in its block. -/
theorem iplComplete_circ (hservice : (s.dev.unit3 c .ipl).service = some v) (hop : v.req.op = .ipl .circ) (hcanon : s.dev.canonical = true)
    (hmarks : s.dev.marks = []) (hstored : v.req.stored = []) {n : Nat} (hn : (inputAt v.inputs 0).toNat = n) (hmin : 2 ≤ n) (hmax : n ≤ 8) :
    ∃ t, exec (.iplComplete c) s = .next t ∧ ServedState s c .ipl v t ∧
      ∀ i < n, t.dev.loadWord (blockAddr v.req.engine v.req.a (0x90 + 4 * i)) = iplOut .circ v.req.t v.inputs i := by
  have hres : v.result = iplResult .circ v.req.t v.inputs n := by simp only [Service.result, hop, iplExec_circ hn hmin hmax]
  obtain ⟨t, hexec, hserved, -, -, -, hread, -⟩ := iplComplete_served hpaused hservice hop hdue hdead hbad hctx hcanon hmarks hstored
    (by rw [hres]; exact iplResult_writes_apart _ _ _ _ _ hmax)
  simp only [hres, iplResult, List.forall_mem_cons, List.forall_mem_map, List.mem_range] at hread
  obtain ⟨-, -, houts⟩ := hread
  exact ⟨t, hexec, hserved, houts⟩

end

/-- Settles O17: the sines by `sinCos_nearest`, the angle by `atan2Word_nearest`, and the circle by `iplAxis_circ`. -/
theorem anglesComplete : Obligations.AnglesComplete := by
  unfold Obligations.AnglesComplete
  intro turn near s c v e x hpaused hdue hdead hbad hctx
  refine ⟨fun hop hservice => ?_, fun hop hservice => ?_, fun n hop hservice hcanon hmarks hstored hblock hn hmin hmax => ?_⟩
  · obtain ⟨t, hexec, hserved, hr, hr2, hacst, hbyte⟩ := kinComplete_sincos hpaused hdue hdead hbad hctx hservice hop
    obtain ⟨hsin, hcos⟩ := sinCos_nearest v.req.t
    refine ⟨t, _, _, hexec, hserved.pending, hr, hr2, ?_, ?_, hacst, hbyte⟩
    · rw [hsin.toInt_wrap32 (Real.abs_sin_le_one _)]; exact hsin
    · rw [hcos.toInt_wrap32 (Real.abs_cos_le_one _)]; exact hcos
  · obtain ⟨t, r, hexec, hserved, hr, hr2, hbyte, hzero, hangle⟩ := kinComplete_atan2 hpaused hdue hdead hbad hctx hservice hop
    refine ⟨t, r, hexec, hserved.pending, hr, hr2, hbyte, fun ha ht => hzero ⟨ha, ht⟩, fun h => ?_⟩
    obtain ⟨hword, hacst⟩ := hangle h
    exact ⟨hacst, hword ▸ atan2Word_nearest h⟩
  · intro word4 go clamp
    obtain ⟨t, hexec, hserved, houts⟩ := iplComplete_circ hpaused hdue hdead hbad hctx hservice hop hcanon hmarks hstored hn hmin hmax
    obtain ⟨hend, hgoing⟩ := iplPlace_eq v.req.t v.inputs
    rw [show iplReach v.req.t v.inputs = go by simp [iplReach, fld, go]] at hend hgoing
    have hout : ∀ i < n, ∀ y, (iplAxis .circ v.inputs (iplPlace v.req.t v.inputs) i).1 = clamp32 y →
        (t.dev.loadWord (blockAddr e v.req.a (0x90 + 4 * i))).toInt = clamp y := fun i hi y hy => by
      rw [houts i hi, iplOut, hy]; exact toInt_wrap32_clamp32 y
    obtain ⟨hsin, hcos⟩ := sinCos_nearest (circleAngle v.inputs (iplPlace v.req.t v.inputs))
    obtain ⟨hfirst, hsecond, hothers⟩ := iplAxis_circ v.inputs (iplPlace v.req.t v.inputs)
    refine ⟨t, _, _, _, hexec, hserved.pending, hend, hgoing, ⟨hcos, hsin⟩, hout 0 (by omega) _ hfirst, hout 1 (by omega) _ hsecond,
      fun i hi hlt => hout i hlt _ ?_⟩
    rw [hothers i hi]
    exact (iplAxis_lin v.inputs _ i).1

end Sys2Proof.Machine
end
